-- ==== Sys2Proof/Word.lean ====
section
/-!
DEFINITION. The word types of the device. Bit 0 is the least significant bit and multi-byte values are little-endian (R19).
-/

namespace Sys2Proof

/-- An operand, register or payload word (R54, R59). -/
abbrev Word := BitVec 64

/-- An instruction word, lane value or FP32 pattern (R28, R147). -/
abbrev Word32 := BitVec 32

/-- A byte of memory. -/
abbrev Byte := BitVec 8

end Sys2Proof
end

