-- ==== Sys2Proof/Machine/Crypto.lean ====
section
/-!
DEFINITION. The ciphers that the manual names by their standards and does not print (R17): AES-256 in XTS mode (R303) and SHAKE256 (R442 to R448). Their
tables and steps are taken from FIPS 197, IEEE 1619 and FIPS 202 (notes/assumptions).
-/

namespace Sys2Proof.Machine

open Sys2Proof

-- AES-256 (FIPS 197): a state is 16 bytes, column after column

/-- The substitution box and its inverse: entry i is byte i. -/
def aesBox : Nat :=
  0x16bb54b00f2d99416842e6bf0d89a18cdf2855cee9871e9b948ed9691198f8e19e1dc186b95735610ef6034866b53e708a8bbd4b1f74dde8c6b4a61c2e2578ba08ae7a65eaf4566ca94ed58d6d37c8e779e4959162acd3c25c2406490a3a32e0db0b5ede14b8ee4688902a22dc4f816073195d643d7ea7c41744975fec130ccdd2f3ff1021dab6bcf5389d928f40a351a89f3c507f02f94585334d43fbaaefd0cf584c4a39becb6a5bb1fc20ed00d153842fe329b3d63b52a05a6e1b1a2c830975b227ebe28012079a059618c323c7041531d871f1e5a534ccf73f362693fdb7c072a49cafa2d4adf04759fa7dc982ca76abd7fe2b670130c56f6bf27b777c63
def aesUnbox : Nat :=
  0x7d0c2155631469e126d677ba7e042b17619953833cbbebc8b0f52aae4d3be0a0ef9cc9939f7ae52d0d4ab519a97f51605fec8027591012b131c7078833a8dd1ff45acd78fec0db9a2079d2c64b3e56fc1bbe18aa0e62b76f89c5291d711af1476edf751ce837f9e28535ade72274ac9673e6b4f0cecff297eadc674f4111913a6b8a130103bdafc1020f3fca8f1e2cd00645b3b80558e4f70ad3bc8c00abd890849d8da75746155edab9edfd5048706c92b6655dcc5ca4d41698688664f6f87225d18b6d49a25b76b224d92866a12e084ec3fa420b954cee3d23c2a632947b54cbe9dec444438e3487ff2f9b8239e37cfbd7f3819ea340bf38a53630d56a0952

/-- Byte x through a box. -/
def throughBox (box x : Nat) : Nat := box / 2 ^ (8 * x) % 256

/-- Twice a byte in the field of AES. -/
def aesDouble (x : Nat) : Nat := if x < 128 then 2 * x else (2 * x) ^^^ 0x11b

/-- The product of byte x by a four-bit constant in the field of AES. -/
def aesTimes (k x : Nat) : Nat :=
  let d := aesDouble x
  let q := aesDouble d
  (if k % 2 = 1 then x else 0) ^^^ (if k / 2 % 2 = 1 then d else 0) ^^^ (if k / 4 % 2 = 1 then q else 0) ^^^ (if k / 8 = 1 then aesDouble q else 0)

def xorBytes (a b : List Nat) : List Nat := a.zipWith (fun x y => x ^^^ y) b

/-- A column times a circulant matrix whose first row is m. -/
def aesColumn (m : List Nat) (c : List Nat) : List Nat :=
  (List.range 4).map (fun i => (c.mapIdx (fun j x => aesTimes (m.getD ((j + 4 - i) % 4) 0) x)).foldl (fun v x => v ^^^ x) 0)

def aesColumns (m : List Nat) (s : List Nat) : List Nat := (List.range 4).flatMap (fun c => aesColumn m ((s.drop (4 * c)).take 4))

/-- Row r of the state moves r columns: to the left, or with back to the right. -/
def aesRows (back : Bool) (s : List Nat) : List Nat :=
  (List.range 16).map (fun i => (s[4 * ((i / 4 + (if back then 4 - i % 4 else i % 4)) % 4) + i % 4]?).getD 0)

/-- One more word of the key schedule, given the words so far, newest first. -/
def aesNextWord (ws : List (List Nat)) : List (List Nat) :=
  let i := ws.length
  let t := ws.headD []
  let u := if i % 8 = 0 then xorBytes ((t.rotateLeft 1).map (throughBox aesBox)) [2 ^ (i / 8 - 1), 0, 0, 0]
    else if i % 8 = 4 then t.map (throughBox aesBox) else t
  xorBytes ((ws[7]?).getD []) u :: ws

/-- The 15 round keys of a 32-byte key. -/
def aesKeys (key : List Nat) : List (List Nat) :=
  let first := ((List.range 8).map (fun i => (key.drop (4 * i)).take 4)).reverse
  let ws := ((List.range 52).foldl (fun ws _ => aesNextWord ws) first).reverse
  (List.range 15).map (fun r => ((ws.drop (4 * r)).take 4).flatten)

/-- The cipher on one block. -/
def aesEncrypt (keys : List (List Nat)) (b : List Nat) : List Nat :=
  let at' (r : Nat) : List Nat := (keys[r]?).getD []
  let s := (List.range 13).foldl (fun s r => xorBytes (aesColumns [2, 3, 1, 1] (aesRows false (s.map (throughBox aesBox)))) (at' (r + 1))) (xorBytes b (at' 0))
  xorBytes (aesRows false (s.map (throughBox aesBox))) (at' 14)

/-- The inverse cipher on one block. -/
def aesDecrypt (keys : List (List Nat)) (b : List Nat) : List Nat :=
  let at' (r : Nat) : List Nat := (keys[r]?).getD []
  let s := (List.range 13).foldl (fun s r => aesColumns [14, 11, 13, 9] (xorBytes ((aesRows true s).map (throughBox aesUnbox)) (at' (13 - r)))) (xorBytes b (at' 14))
  xorBytes ((aesRows true s).map (throughBox aesUnbox)) (at' 0)

-- XTS (IEEE 1619)

/-- Little-endian bytes of a number, and back. -/
def numBytes (n v : Nat) : List Nat := (List.range n).map (fun i => v / 2 ^ (8 * i) % 256)
def bytesNum (l : List Nat) : Nat := l.foldr (fun b v => b + 256 * v) 0

/-- The tweak of the next block of a data unit. -/
def xtsNext (t : Nat) : Nat := if t < 2 ^ 127 then 2 * t else (2 * (t - 2 ^ 127)) ^^^ 0x87

/-- A 64-byte line under a 64-byte key, little-endian as a number: the data key, then the tweak key; tweak is the number of the data unit (R303,
R449). -/
def xtsLine (decrypt : Bool) (key tweak : Nat) (line : List Nat) : List Nat :=
  let k1 := aesKeys (numBytes 32 key)
  let t0 := bytesNum (aesEncrypt (aesKeys (numBytes 32 (key / 2 ^ 256))) (numBytes 16 tweak))
  (List.range 4).flatMap (fun j =>
    let t := numBytes 16 ((List.range j).foldl (fun t _ => xtsNext t) t0)
    let x := xorBytes ((line.drop (16 * j)).take 16) t
    xorBytes (if decrypt then aesDecrypt k1 x else aesEncrypt k1 x) t)

-- SHAKE256 (FIPS 202): a state is 25 lanes of 64 bits, lane x + 5 y

def keccakTurns : List Nat := [0, 1, 62, 28, 27, 36, 44, 6, 55, 20, 3, 10, 43, 25, 39, 41, 45, 15, 21, 8, 18, 2, 61, 56, 14]

def keccakConstants : List Nat :=
  [0x1, 0x8082, 0x800000000000808a, 0x8000000080008000, 0x808b, 0x80000001, 0x8000000080008081, 0x8000000000008009, 0x8a, 0x88, 0x80008009, 0x8000000a,
   0x8000808b, 0x800000000000008b, 0x8000000000008089, 0x8000000000008003, 0x8000000000008002, 0x8000000000000080, 0x800a, 0x800000008000000a,
   0x8000000080008081, 0x8000000000008080, 0x80000001, 0x8000000080008008]

/-- A lane rotated to the left. -/
def turn64 (n v : Nat) : Nat := v * 2 ^ n % 2 ^ 64 + v / 2 ^ (64 - n)

/-- One round of the permutation. -/
def keccakRound (a : List Nat) (rc : Nat) : List Nat :=
  let lane (l : List Nat) (i : Nat) : Nat := (l[i]?).getD 0
  let c := (List.range 5).map (fun x => (List.range 5).foldl (fun v y => v ^^^ lane a (x + 5 * y)) 0)
  let a := a.mapIdx (fun i v => v ^^^ lane c ((i + 4) % 5) ^^^ turn64 1 (lane c ((i + 1) % 5)))
  -- lane (x, y) of the result comes from lane (x + 3 y, x)
  let b := (List.range 25).map (fun i =>
    let k := (i % 5 + 3 * (i / 5)) % 5 + 5 * (i % 5)
    turn64 (lane keccakTurns k) (lane a k))
  let d := b.mapIdx (fun i v => v ^^^ ((2 ^ 64 - 1 - lane b (i / 5 * 5 + (i + 1) % 5)) &&& lane b (i / 5 * 5 + (i + 2) % 5)))
  d.mapIdx (fun i v => if i = 0 then v ^^^ rc else v)

/-- Takes a block of 136 bytes into the state and permutes it. -/
def keccakBlock (a : List Nat) (block : List Nat) : List Nat :=
  keccakConstants.foldl keccakRound (a.mapIdx (fun i v => v ^^^ bytesNum ((block.drop (8 * i)).take 8)))

/-- SHAKE256 of a message, 64 bytes of output (R442, R447). -/
def shake512 (m : List Byte) : List Byte :=
  let l := m.map BitVec.toNat
  let n := l.length % 136
  let l := l ++ (if n = 135 then [0x9F] else 0x1F :: List.replicate (134 - n) 0 ++ [0x80])
  let a := (List.range (l.length / 136)).foldl (fun a k => keccakBlock a ((l.drop (136 * k)).take 136)) (List.replicate 25 0)
  (a.take 8).flatMap (fun v => (numBytes 8 v).map (BitVec.ofNat 8))

end Sys2Proof.Machine
end

