-- ==== Sys2Proof/Syntax.lean ====
section
/-!
DEFINITION. The instruction type: one constructor for each of the 351 rows of spec/opcode_table.json.
The first 226 are instruction words; each carries the row's own bit fields, named as the table names them
(p predicate field PR, e exit number, s offset or special, i immediate, a target T0, b target T1, w the W bit, l LSID, o offset,
q row slot, k bank or output, m rounding mode ...). The other 125 are the part's other indivisible steps (spec/95), which have no
bits and no operands: what comes to a step from outside the part stands in the state's input (Machine.Input).
-/

namespace Sys2Proof

/-- One constructor per row of the opcode table. -/
inductive Instr where
  | bro (p : BitVec 2) (e : BitVec 3) (s : BitVec 19)
  | brr (p : BitVec 2) (e : BitVec 3)
  | callo (p : BitVec 2) (e : BitVec 3) (s : BitVec 19)
  | callr (p : BitVec 2) (e : BitVec 3)
  | ret (p : BitVec 2) (e : BitVec 3)
  | hend (p : BitVec 2) (e : BitVec 3)
  | trapi (p : BitVec 2) (c : BitVec 12)
  | brk (p : BitVec 2) (c : BitVec 8)
  | nop (p : BitVec 2)
  | rstl (p : BitVec 2) (s : BitVec 19)
  | mov (p : BitVec 2) (b : BitVec 7) (a : BitVec 7)
  | movi (i : BitVec 17) (a : BitVec 7)
  | genc (p : BitVec 2) (i : BitVec 15) (a : BitVec 7)
  | read (p : BitVec 2) (r : BitVec 6) (b : BitVec 7) (a : BitVec 7)
  | write (p : BitVec 2) (r : BitVec 6)
  | mfs (p : BitVec 2) (s : BitVec 8) (a : BitVec 7)
  | mts (p : BitVec 2) (s : BitVec 8)
  | null (p : BitVec 2) (b : BitVec 7) (a : BitVec 7)
  | sel (b : BitVec 7) (a : BitVec 7)
  | add (p : BitVec 2) (b : BitVec 7) (a : BitVec 7)
  | sub (p : BitVec 2) (b : BitVec 7) (a : BitVec 7)
  | mul (p : BitVec 2) (b : BitVec 7) (a : BitVec 7)
  | mulhs (p : BitVec 2) (b : BitVec 7) (a : BitVec 7)
  | mulhu (p : BitVec 2) (b : BitVec 7) (a : BitVec 7)
  | divs (p : BitVec 2) (b : BitVec 7) (a : BitVec 7)
  | divu (p : BitVec 2) (b : BitVec 7) (a : BitVec 7)
  | rems (p : BitVec 2) (b : BitVec 7) (a : BitVec 7)
  | remu (p : BitVec 2) (b : BitVec 7) (a : BitVec 7)
  | min (p : BitVec 2) (b : BitVec 7) (a : BitVec 7)
  | max (p : BitVec 2) (b : BitVec 7) (a : BitVec 7)
  | minu (p : BitVec 2) (b : BitVec 7) (a : BitVec 7)
  | maxu (p : BitVec 2) (b : BitVec 7) (a : BitVec 7)
  | and (p : BitVec 2) (b : BitVec 7) (a : BitVec 7)
  | or (p : BitVec 2) (b : BitVec 7) (a : BitVec 7)
  | xor (p : BitVec 2) (b : BitVec 7) (a : BitVec 7)
  | andn (p : BitVec 2) (b : BitVec 7) (a : BitVec 7)
  | orn (p : BitVec 2) (b : BitVec 7) (a : BitVec 7)
  | xnor (p : BitVec 2) (b : BitVec 7) (a : BitVec 7)
  | shl (p : BitVec 2) (b : BitVec 7) (a : BitVec 7)
  | shr (p : BitVec 2) (b : BitVec 7) (a : BitVec 7)
  | sar (p : BitVec 2) (b : BitVec 7) (a : BitVec 7)
  | rol (p : BitVec 2) (b : BitVec 7) (a : BitVec 7)
  | ror (p : BitVec 2) (b : BitVec 7) (a : BitVec 7)
  | abs (p : BitVec 2) (b : BitVec 7) (a : BitVec 7)
  | clz (p : BitVec 2) (b : BitVec 7) (a : BitVec 7)
  | ctz (p : BitVec 2) (b : BitVec 7) (a : BitVec 7)
  | popc (p : BitVec 2) (b : BitVec 7) (a : BitVec 7)
  | brev (p : BitVec 2) (b : BitVec 7) (a : BitVec 7)
  | bswap (p : BitVec 2) (b : BitVec 7) (a : BitVec 7)
  | sextB (p : BitVec 2) (b : BitVec 7) (a : BitVec 7)
  | sextH (p : BitVec 2) (b : BitVec 7) (a : BitVec 7)
  | sextW (p : BitVec 2) (b : BitVec 7) (a : BitVec 7)
  | zextB (p : BitVec 2) (b : BitVec 7) (a : BitVec 7)
  | zextH (p : BitVec 2) (b : BitVec 7) (a : BitVec 7)
  | zextW (p : BitVec 2) (b : BitVec 7) (a : BitVec 7)
  | addW (p : BitVec 2) (b : BitVec 7) (a : BitVec 7)
  | subW (p : BitVec 2) (b : BitVec 7) (a : BitVec 7)
  | mulW (p : BitVec 2) (b : BitVec 7) (a : BitVec 7)
  | mulhsW (p : BitVec 2) (b : BitVec 7) (a : BitVec 7)
  | mulhuW (p : BitVec 2) (b : BitVec 7) (a : BitVec 7)
  | divsW (p : BitVec 2) (b : BitVec 7) (a : BitVec 7)
  | divuW (p : BitVec 2) (b : BitVec 7) (a : BitVec 7)
  | remsW (p : BitVec 2) (b : BitVec 7) (a : BitVec 7)
  | remuW (p : BitVec 2) (b : BitVec 7) (a : BitVec 7)
  | minW (p : BitVec 2) (b : BitVec 7) (a : BitVec 7)
  | maxW (p : BitVec 2) (b : BitVec 7) (a : BitVec 7)
  | minuW (p : BitVec 2) (b : BitVec 7) (a : BitVec 7)
  | maxuW (p : BitVec 2) (b : BitVec 7) (a : BitVec 7)
  | andW (p : BitVec 2) (b : BitVec 7) (a : BitVec 7)
  | orW (p : BitVec 2) (b : BitVec 7) (a : BitVec 7)
  | xorW (p : BitVec 2) (b : BitVec 7) (a : BitVec 7)
  | andnW (p : BitVec 2) (b : BitVec 7) (a : BitVec 7)
  | ornW (p : BitVec 2) (b : BitVec 7) (a : BitVec 7)
  | xnorW (p : BitVec 2) (b : BitVec 7) (a : BitVec 7)
  | shlW (p : BitVec 2) (b : BitVec 7) (a : BitVec 7)
  | shrW (p : BitVec 2) (b : BitVec 7) (a : BitVec 7)
  | sarW (p : BitVec 2) (b : BitVec 7) (a : BitVec 7)
  | rolW (p : BitVec 2) (b : BitVec 7) (a : BitVec 7)
  | rorW (p : BitVec 2) (b : BitVec 7) (a : BitVec 7)
  | absW (p : BitVec 2) (b : BitVec 7) (a : BitVec 7)
  | clzW (p : BitVec 2) (b : BitVec 7) (a : BitVec 7)
  | ctzW (p : BitVec 2) (b : BitVec 7) (a : BitVec 7)
  | popcW (p : BitVec 2) (b : BitVec 7) (a : BitVec 7)
  | brevW (p : BitVec 2) (b : BitVec 7) (a : BitVec 7)
  | bswapW (p : BitVec 2) (b : BitVec 7) (a : BitVec 7)
  | addi (p : BitVec 2) (i : BitVec 15) (a : BitVec 7)
  | addiW (p : BitVec 2) (i : BitVec 15) (a : BitVec 7)
  | andi (p : BitVec 2) (i : BitVec 15) (a : BitVec 7)
  | ori (p : BitVec 2) (i : BitVec 15) (a : BitVec 7)
  | xori (p : BitVec 2) (i : BitVec 15) (a : BitVec 7)
  | shli (p : BitVec 2) (w : BitVec 1) (n : BitVec 6) (a : BitVec 7)
  | shri (p : BitVec 2) (w : BitVec 1) (n : BitVec 6) (a : BitVec 7)
  | sari (p : BitVec 2) (w : BitVec 1) (n : BitVec 6) (a : BitVec 7)
  | roli (p : BitVec 2) (w : BitVec 1) (n : BitVec 6) (a : BitVec 7)
  | rori (p : BitVec 2) (w : BitVec 1) (n : BitVec 6) (a : BitVec 7)
  | teq (p : BitVec 2) (w : BitVec 1) (b : BitVec 7) (a : BitVec 7)
  | tne (p : BitVec 2) (w : BitVec 1) (b : BitVec 7) (a : BitVec 7)
  | tlt (p : BitVec 2) (w : BitVec 1) (b : BitVec 7) (a : BitVec 7)
  | tle (p : BitVec 2) (w : BitVec 1) (b : BitVec 7) (a : BitVec 7)
  | tltu (p : BitVec 2) (w : BitVec 1) (b : BitVec 7) (a : BitVec 7)
  | tleu (p : BitVec 2) (w : BitVec 1) (b : BitVec 7) (a : BitVec 7)
  | teqi (p : BitVec 2) (i : BitVec 15) (a : BitVec 7)
  | tnei (p : BitVec 2) (i : BitVec 15) (a : BitVec 7)
  | tlti (p : BitVec 2) (i : BitVec 15) (a : BitVec 7)
  | tlei (p : BitVec 2) (i : BitVec 15) (a : BitVec 7)
  | tltui (p : BitVec 2) (i : BitVec 15) (a : BitVec 7)
  | tleui (p : BitVec 2) (i : BitVec 15) (a : BitVec 7)
  | lop3 (t : BitVec 8) (b : BitVec 7) (a : BitVec 7)
  | fshl (w : BitVec 1) (b : BitVec 7) (a : BitVec 7)
  | fshr (w : BitVec 1) (b : BitVec 7) (a : BitVec 7)
  | extb (p : BitVec 2) (x : BitVec 1) (w : BitVec 6) (o : BitVec 6) (a : BitVec 7)
  | insb (b : BitVec 7) (a : BitVec 7)
  | appc (p : BitVec 2) (i : BitVec 14) (a : BitVec 7)
  | fadd (p : BitVec 2) (m : BitVec 3) (b : BitVec 7) (a : BitVec 7)
  | fsub (p : BitVec 2) (m : BitVec 3) (b : BitVec 7) (a : BitVec 7)
  | fmul (p : BitVec 2) (m : BitVec 3) (b : BitVec 7) (a : BitVec 7)
  | fdiv (p : BitVec 2) (m : BitVec 3) (b : BitVec 7) (a : BitVec 7)
  | fsqrt (p : BitVec 2) (m : BitVec 3) (b : BitVec 7) (a : BitVec 7)
  | fmin (p : BitVec 2) (b : BitVec 7) (a : BitVec 7)
  | fmax (p : BitVec 2) (b : BitVec 7) (a : BitVec 7)
  | fabs (p : BitVec 2) (b : BitVec 7) (a : BitVec 7)
  | fneg (p : BitVec 2) (b : BitVec 7) (a : BitVec 7)
  | fteq (p : BitVec 2) (b : BitVec 7) (a : BitVec 7)
  | ftlt (p : BitVec 2) (b : BitVec 7) (a : BitVec 7)
  | ftle (p : BitVec 2) (b : BitVec 7) (a : BitVec 7)
  | ftun (p : BitVec 2) (b : BitVec 7) (a : BitVec 7)
  | fclass (p : BitVec 2) (b : BitVec 7) (a : BitVec 7)
  | frnd (p : BitVec 2) (m : BitVec 3) (b : BitVec 7) (a : BitVec 7)
  | fexp2 (p : BitVec 2) (m : BitVec 3) (b : BitVec 7) (a : BitVec 7)
  | flog2 (p : BitVec 2) (m : BitVec 3) (b : BitVec 7) (a : BitVec 7)
  | ffma (m : BitVec 3) (b : BitVec 7) (a : BitVec 7)
  | cvtfiW (p : BitVec 2) (m : BitVec 3) (b : BitVec 7) (a : BitVec 7)
  | cvtfiWU (p : BitVec 2) (m : BitVec 3) (b : BitVec 7) (a : BitVec 7)
  | cvtfiD (p : BitVec 2) (m : BitVec 3) (b : BitVec 7) (a : BitVec 7)
  | cvtfiDU (p : BitVec 2) (m : BitVec 3) (b : BitVec 7) (a : BitVec 7)
  | cvtifW (p : BitVec 2) (m : BitVec 3) (b : BitVec 7) (a : BitVec 7)
  | cvtifWU (p : BitVec 2) (m : BitVec 3) (b : BitVec 7) (a : BitVec 7)
  | cvtifD (p : BitVec 2) (m : BitVec 3) (b : BitVec 7) (a : BitVec 7)
  | cvtifDU (p : BitVec 2) (m : BitVec 3) (b : BitVec 7) (a : BitVec 7)
  | cvtffH (p : BitVec 2) (m : BitVec 3) (b : BitVec 7) (a : BitVec 7)
  | cvtffBf (p : BitVec 2) (m : BitVec 3) (b : BitVec 7) (a : BitVec 7)
  | cvtffFH (p : BitVec 2) (b : BitVec 7) (a : BitVec 7)
  | cvtffFBf (p : BitVec 2) (b : BitVec 7) (a : BitVec 7)
  | cvtd (p : BitVec 2) (f : BitVec 4) (b : BitVec 7) (a : BitVec 7)
  | cvtq8 (p : BitVec 2) (m : BitVec 3) (d : BitVec 2) (t : BitVec 3) (b : BitVec 7) (a : BitVec 7)
  | cvtq6 (p : BitVec 2) (m : BitVec 3) (d : BitVec 2) (t : BitVec 3) (b : BitVec 7) (a : BitVec 7)
  | cvtq4 (p : BitVec 2) (m : BitVec 3) (d : BitVec 2) (t : BitVec 3) (b : BitVec 7) (a : BitVec 7)
  | srseed (p : BitVec 2) (d : BitVec 2) (l : BitVec 6)
  | bscale (p : BitVec 2) (f : BitVec 4) (b : BitVec 7) (a : BitVec 7)
  | qblk (p : BitVec 2) (f : BitVec 4) (d : BitVec 2) (m : BitVec 2) (b : BitVec 7) (a : BitVec 7)
  | dqblk (p : BitVec 2) (f : BitVec 4) (b : BitVec 7) (a : BitVec 7)
  | lutld (p : BitVec 2) (t : BitVec 2) (b : BitVec 7) (a : BitVec 7)
  | lutenc (p : BitVec 2) (t : BitVec 2) (b : BitVec 7) (a : BitVec 7)
  | ldB (p : BitVec 2) (w : BitVec 1) (o : BitVec 10) (a : BitVec 7)
  | ldH (p : BitVec 2) (w : BitVec 1) (o : BitVec 10) (a : BitVec 7)
  | ldW (p : BitVec 2) (w : BitVec 1) (o : BitVec 10) (a : BitVec 7)
  | ldD (p : BitVec 2) (w : BitVec 1) (o : BitVec 10) (a : BitVec 7)
  | ldBSx (p : BitVec 2) (w : BitVec 1) (o : BitVec 10) (a : BitVec 7)
  | ldHSx (p : BitVec 2) (w : BitVec 1) (o : BitVec 10) (a : BitVec 7)
  | ldWSx (p : BitVec 2) (w : BitVec 1) (o : BitVec 10) (a : BitVec 7)
  | stB (p : BitVec 2) (w : BitVec 1) (l : BitVec 4) (o : BitVec 10) (a : BitVec 7)
  | stH (p : BitVec 2) (w : BitVec 1) (l : BitVec 4) (o : BitVec 10) (a : BitVec 7)
  | stW (p : BitVec 2) (w : BitVec 1) (l : BitVec 4) (o : BitVec 10) (a : BitVec 7)
  | stD (p : BitVec 2) (w : BitVec 1) (l : BitVec 4) (o : BitVec 10) (a : BitVec 7)
  | ldo (p : BitVec 2) (w : BitVec 1) (o : BitVec 10) (a : BitVec 7)
  | sto (p : BitVec 2) (w : BitVec 1) (l : BitVec 4) (o : BitVec 10) (a : BitVec 7)
  | clro (p : BitVec 2) (w : BitVec 1) (l : BitVec 4) (n : BitVec 10) (a : BitVec 7)
  | scld (p : BitVec 2) (w : BitVec 1) (o : BitVec 10) (a : BitVec 7)
  | scst (p : BitVec 2) (w : BitVec 1) (l : BitVec 4) (o : BitVec 10) (a : BitVec 7)
  | atom (p : BitVec 2) (w : BitVec 1) (l : BitVec 4) (o : BitVec 4) (d : BitVec 1) (a : BitVec 7)
  | atomn (p : BitVec 2) (w : BitVec 1) (l : BitVec 4) (o : BitVec 4) (d : BitVec 1) (a : BitVec 7)
  | cas (l : BitVec 4) (d : BitVec 1) (a : BitVec 7)
  | join2 (p : BitVec 2) (b : BitVec 7) (a : BitVec 7)
  | join3 (b : BitVec 7) (a : BitVec 7)
  | fence (p : BitVec 2) (s : BitVec 3) (a : BitVec 7)
  | send (p : BitVec 2) (w : BitVec 1) (l : BitVec 4) (s : BitVec 3) (t : BitVec 1) (k : BitVec 3) (a : BitVec 7)
  | sendr (p : BitVec 2) (w : BitVec 1) (l : BitVec 4) (s : BitVec 3) (t : BitVec 1) (k : BitVec 3) (a : BitVec 7)
  | sendm (p : BitVec 2) (w : BitVec 1) (l : BitVec 4) (n : BitVec 2) (k : BitVec 3) (a : BitVec 7)
  | eos (p : BitVec 2) (w : BitVec 1) (l : BitVec 4) (k : BitVec 3) (a : BitVec 7)
  | taga (p : BitVec 2) (a : BitVec 7)
  | tagr (p : BitVec 2)
  | tblk (p : BitVec 2) (c : BitVec 6)
  | tunb (p : BitVec 2) (c : BitVec 6)
  | bari (p : BitVec 2) (n : BitVec 6) (b : BitVec 7) (a : BitVec 7)
  | bara (p : BitVec 2) (n : BitVec 6) (b : BitVec 7) (a : BitVec 7)
  | barx (p : BitVec 2) (n : BitVec 6) (b : BitVec 7) (a : BitVec 7)
  | mwin (p : BitVec 2) (l : BitVec 11)
  | mwend (p : BitVec 2)
  | seal (p : BitVec 2)
  | sealw (p : BitVec 2) (a : BitVec 7)
  | irst (p : BitVec 2) (w : BitVec 1) (l : BitVec 4) (o : BitVec 10) (a : BitVec 7)
  | rld (p : BitVec 2) (q : BitVec 2) (b : BitVec 7) (a : BitVec 7)
  | rgo (p : BitVec 2) (q : BitVec 2) (b : BitVec 7) (a : BitVec 7)
  | rstop (p : BitVec 2) (q : BitVec 2) (b : BitVec 7) (a : BitVec 7)
  | rdrain (p : BitVec 2) (x : BitVec 1) (q : BitVec 2) (b : BitVec 7) (a : BitVec 7)
  | rstat (p : BitVec 2) (c : BitVec 1) (q : BitVec 2) (b : BitVec 7) (a : BitVec 7)
  | mma (p : BitVec 2) (f : BitVec 4) (g : BitVec 4) (b : BitVec 7) (a : BitVec 7)
  | mmas (p : BitVec 2) (f : BitVec 4) (g : BitVec 4) (b : BitVec 7) (a : BitVec 7)
  | mclr (p : BitVec 2) (k : BitVec 2) (b : BitVec 7) (a : BitVec 7)
  | mattr (p : BitVec 2) (x : BitVec 1) (k : BitVec 2) (b : BitVec 7) (a : BitVec 7)
  | mfade (p : BitVec 2) (k : BitVec 2) (b : BitVec 7) (a : BitVec 7)
  | mstat (p : BitVec 2) (b : BitVec 7) (a : BitVec 7)
  | lutsel (p : BitVec 2) (k : BitVec 2) (b : BitVec 7) (a : BitVec 7)
  | mlda (p : BitVec 2) (k : BitVec 2) (b : BitVec 7) (a : BitVec 7)
  | mdrain (p : BitVec 2) (f : BitVec 4) (k : BitVec 2) (m : BitVec 2) (b : BitVec 7) (a : BitVec 7)
  | apdef (p : BitVec 2) (i : BitVec 5) (b : BitVec 7) (a : BitVec 7)
  | strmIn (p : BitVec 2) (n : BitVec 3) (b : BitVec 7) (a : BitVec 7)
  | strmOut (p : BitVec 2) (n : BitVec 3) (b : BitVec 7) (a : BitVec 7)
  | sbar (p : BitVec 2) (m : BitVec 8) (b : BitVec 7) (a : BitVec 7)
  | bcopy (p : BitVec 2) (s : BitVec 1) (n : BitVec 6) (b : BitVec 7) (a : BitVec 7)
  | bcopyh (p : BitVec 2) (s : BitVec 1) (n : BitVec 6) (b : BitVec 7) (a : BitVec 7)
  | agcfg (p : BitVec 2) (s : BitVec 2) (w : BitVec 2) (b : BitVec 7) (a : BitVec 7)
  | aggo (p : BitVec 2) (g : BitVec 2) (w : BitVec 2) (b : BitVec 7) (a : BitVec 7)
  | coll (p : BitVec 2) (k : BitVec 3) (b : BitVec 7) (a : BitVec 7)
  | trap (p : BitVec 2)
  | eres (p : BitVec 2) (b : BitVec 7) (a : BitVec 7)
  | ekill (p : BitVec 2) (b : BitVec 7) (a : BitVec 7)
  | mfsp (p : BitVec 2) (b : BitVec 7) (a : BitVec 7)
  | mtsp (p : BitVec 2)
  | halt (p : BitVec 2)
  | dbg (p : BitVec 2)
  | wdog (p : BitVec 2)
  | ecnt (p : BitVec 2) (b : BitVec 7) (a : BitVec 7)
  | telm (p : BitVec 2)
  | cswp (p : BitVec 2)
  | xflush (p : BitVec 2) (b : BitVec 7) (a : BitVec 7)
  | blockFetchDone
  | fetchFrame
  | resultDelivery
  | blockCommit
  | commitWaitRelease
  | blockDead
  | mwinOverrun
  | watchdog
  | dispatchDecision
  | tokenArrival
  | tagReturnToken
  | legacyAck
  | creditReturn
  | trapCreditRequest
  | trapTokenSend
  | trapAnswerArrival
  | loadReply
  | atomicApply
  | atomicReply
  | mTileRequest
  | heldAccessRelease
  | stoApply
  | clroApply
  | agcfgApply
  | postCommitReport
  | scRingToken
  | scstAcknowledge
  | barrierLineComplete
  | haltArrival
  | rowArrayCycle
  | rowRound
  | rowSlotCompletion
  | rowStall
  | matrixOpBegin
  | matrixOpEnd
  | mmasStagingStart
  | ballastPass
  | strmBindingEnd
  | streamErrorReply
  | barrierObjectUpdate
  | aggoDone
  | xflushDone
  | collTokenArrival
  | shoreRequest
  | virtualRequestArrival
  | translationWalkEnd
  | timeBeacon
  | beaconLoss
  | phaseFinish
  | phaseStarvedSave
  | phasePick
  | phaseConfigure
  | minqExpiry
  | preemptStart
  | graceEnd
  | contextSave
  | resumption
  | budgetPeriod
  | rebalancerMove
  | moveAbandon
  | telemetryPeriod
  | launchSlotMap
  | launchSlotTimeout
  | periodicWaveTimer
  | waveStart
  | actorAlign
  | tileCut
  | agentCut
  | waveComplete
  | sealPoint
  | sealed
  | retagSweepEnd
  | uncorrectable
  | rollback
  | flitHop
  | flitReceive
  | ackReceive
  | ackTimer
  | resendTimeout
  | linkDead
  | siteDeath
  | flip
  | flipGraceEnd
  | connectionCreate
  | fjoithFrameReceive
  | fjoithResendTimeout
  | fjoithLaneLoss
  | fjoithRetrainDone
  | fjoithRetryTimer
  | fjoithControlFlit
  | mctpRequest
  | partdefCreate
  | partdefDelete
  | qtailWrite
  | qheadWrite
  | spanWrite
  | ptrootWrite
  | invalPage
  | invalAll
  | fretryRetry
  | fretryAbort
  | esnonceWrite
  | attnonceWrite
  | keycmdLoad
  | keycmdGen
  | keycmdZero
  | fwcmdLoad
  | fwLoadDone
  | fwcmdCommit
  | sundoWrite
  | registerWrite
  | flr
  | bringUp
  | thermalTrip
  | counterFlash
  | auxPowerLoss
  | engineBeat
  | remoteTileRequest
  | hostPortLinkDown
  | hostPortLinkUp
  | vfEnableWrite
  | hostReadCompletion
  | ecntRecordReady
  | invalidationDone
  | partitionDeleteDone
  deriving DecidableEq, Repr

end Sys2Proof
end

