-- ==== Sys2Proof/WellFormed.lean ====
section
/-!
DEFINITION. Which instructions are well formed: the ILLEGAL_OP checks of R48 on the values of an instruction's own fields
(PR = 01, the restrictions of R32, rounding modes R37, format codes R39, scopes R45, special numbers R46 and each layout's reserved
values). The checks that need the block (a privileged instruction in a block with P clear, a ninth queued operation) are made at fetch.
-/

namespace Sys2Proof

/-- R31: PR = 01 is no predicate. -/
def predOk (p : BitVec 2) : Bool := p != 1

/-- R37: rounding modes 101 to 111 are illegal. -/
def rmOk (m : BitVec 3) : Bool := decide (m.toNat ≤ 4)

/-- R112, R113: the format codes that have a block scale. -/
def quantFmt (f : BitVec 4) : Bool := decide (3 ≤ f.toNat ∧ f.toNat ≤ 0xA)

/-- R175: the rate group of a format code, as MACs in eighths per tile cycle; none for a reserved code. -/
def rateGroup (f : BitVec 4) : Option Nat :=
  match f.toNat with
  | 0x0 => some 1
  | 0x1 => some 4
  | 0x2 => some 4
  | 0x3 => some 8
  | 0x4 => some 8
  | 0x5 => some 16
  | 0x6 => some 16
  | 0x7 => some 16
  | 0x8 => some 8
  | 0x9 => some 8
  | 0xA => some 16
  | 0xB => some 8
  | _ => none

/-- R48 order 4 on one instruction's own fields: false means ILLEGAL_OP at fetch. -/
def Instr.wellFormed (i : Instr) : Bool :=
  match i with
  | .bro p _ _ => predOk p
  | .brr p _ => predOk p
  | .callo p _ _ => predOk p
  | .callr p _ => predOk p
  | .ret p _ => predOk p
  | .hend p _ => predOk p
  | .trapi p _ => predOk p
  | .brk p _ => predOk p
  | .nop p => predOk p
  | .rstl p _ => predOk p
  | .mov p _ _ => predOk p
  | .movi _ _ => true
  | .genc p _ _ => predOk p
  | .read p _ _ _ => predOk p
  | .write p _ => predOk p
  | .mfs p s _ => predOk p && decide (s.toNat ≤ 0x12)
  | .mts p s => predOk p && (s == 0x09 || s == 0x0A || s == 0x0B)
  | .null p _ _ => predOk p
  | .sel _ _ => true
  | .add p _ _ => predOk p
  | .sub p _ _ => predOk p
  | .mul p _ _ => predOk p
  | .mulhs p _ _ => predOk p
  | .mulhu p _ _ => predOk p
  | .divs p _ _ => predOk p
  | .divu p _ _ => predOk p
  | .rems p _ _ => predOk p
  | .remu p _ _ => predOk p
  | .min p _ _ => predOk p
  | .max p _ _ => predOk p
  | .minu p _ _ => predOk p
  | .maxu p _ _ => predOk p
  | .and p _ _ => predOk p
  | .or p _ _ => predOk p
  | .xor p _ _ => predOk p
  | .andn p _ _ => predOk p
  | .orn p _ _ => predOk p
  | .xnor p _ _ => predOk p
  | .shl p _ _ => predOk p
  | .shr p _ _ => predOk p
  | .sar p _ _ => predOk p
  | .rol p _ _ => predOk p
  | .ror p _ _ => predOk p
  | .abs p _ _ => predOk p
  | .clz p _ _ => predOk p
  | .ctz p _ _ => predOk p
  | .popc p _ _ => predOk p
  | .brev p _ _ => predOk p
  | .bswap p _ _ => predOk p
  | .sextB p _ _ => predOk p
  | .sextH p _ _ => predOk p
  | .sextW p _ _ => predOk p
  | .zextB p _ _ => predOk p
  | .zextH p _ _ => predOk p
  | .zextW p _ _ => predOk p
  | .addW p _ _ => predOk p
  | .subW p _ _ => predOk p
  | .mulW p _ _ => predOk p
  | .mulhsW p _ _ => predOk p
  | .mulhuW p _ _ => predOk p
  | .divsW p _ _ => predOk p
  | .divuW p _ _ => predOk p
  | .remsW p _ _ => predOk p
  | .remuW p _ _ => predOk p
  | .minW p _ _ => predOk p
  | .maxW p _ _ => predOk p
  | .minuW p _ _ => predOk p
  | .maxuW p _ _ => predOk p
  | .andW p _ _ => predOk p
  | .orW p _ _ => predOk p
  | .xorW p _ _ => predOk p
  | .andnW p _ _ => predOk p
  | .ornW p _ _ => predOk p
  | .xnorW p _ _ => predOk p
  | .shlW p _ _ => predOk p
  | .shrW p _ _ => predOk p
  | .sarW p _ _ => predOk p
  | .rolW p _ _ => predOk p
  | .rorW p _ _ => predOk p
  | .absW p _ _ => predOk p
  | .clzW p _ _ => predOk p
  | .ctzW p _ _ => predOk p
  | .popcW p _ _ => predOk p
  | .brevW p _ _ => predOk p
  | .bswapW p _ _ => predOk p
  | .addi p _ _ => predOk p
  | .addiW p _ _ => predOk p
  | .andi p _ _ => predOk p
  | .ori p _ _ => predOk p
  | .xori p _ _ => predOk p
  | .shli p w n _ => predOk p && (w == 0 || decide (n.toNat < 32))
  | .shri p w n _ => predOk p && (w == 0 || decide (n.toNat < 32))
  | .sari p w n _ => predOk p && (w == 0 || decide (n.toNat < 32))
  | .roli p w n _ => predOk p && (w == 0 || decide (n.toNat < 32))
  | .rori p w n _ => predOk p && (w == 0 || decide (n.toNat < 32))
  | .teq p _ _ _ => predOk p
  | .tne p _ _ _ => predOk p
  | .tlt p _ _ _ => predOk p
  | .tle p _ _ _ => predOk p
  | .tltu p _ _ _ => predOk p
  | .tleu p _ _ _ => predOk p
  | .teqi p _ _ => predOk p
  | .tnei p _ _ => predOk p
  | .tlti p _ _ => predOk p
  | .tlei p _ _ => predOk p
  | .tltui p _ _ => predOk p
  | .tleui p _ _ => predOk p
  | .lop3 _ _ _ => true
  | .fshl _ _ _ => true
  | .fshr _ _ _ => true
  | .extb p _ w o _ => predOk p && decide (o.toNat + w.toNat + 1 ≤ 64)
  | .insb _ _ => true
  | .appc p _ _ => predOk p
  | .fadd p m _ _ => predOk p && rmOk m
  | .fsub p m _ _ => predOk p && rmOk m
  | .fmul p m _ _ => predOk p && rmOk m
  | .fdiv p m _ _ => predOk p && rmOk m
  | .fsqrt p m _ _ => predOk p && rmOk m
  | .fmin p _ _ => predOk p
  | .fmax p _ _ => predOk p
  | .fabs p _ _ => predOk p
  | .fneg p _ _ => predOk p
  | .fteq p _ _ => predOk p
  | .ftlt p _ _ => predOk p
  | .ftle p _ _ => predOk p
  | .ftun p _ _ => predOk p
  | .fclass p _ _ => predOk p
  | .frnd p m _ _ => predOk p && rmOk m
  | .fexp2 p m _ _ => predOk p && rmOk m
  | .flog2 p m _ _ => predOk p && rmOk m
  | .ffma m _ _ => rmOk m
  | .cvtfiW p m _ _ => predOk p && rmOk m
  | .cvtfiWU p m _ _ => predOk p && rmOk m
  | .cvtfiD p m _ _ => predOk p && rmOk m
  | .cvtfiDU p m _ _ => predOk p && rmOk m
  | .cvtifW p m _ _ => predOk p && rmOk m
  | .cvtifWU p m _ _ => predOk p && rmOk m
  | .cvtifD p m _ _ => predOk p && rmOk m
  | .cvtifDU p m _ _ => predOk p && rmOk m
  | .cvtffH p m _ _ => predOk p && rmOk m
  | .cvtffBf p m _ _ => predOk p && rmOk m
  | .cvtffFH p _ _ => predOk p
  | .cvtffFBf p _ _ => predOk p
  | .cvtd p f _ _ => predOk p && decide (1 ≤ f.toNat ∧ f.toNat ≤ 0xB)
  | .cvtq8 p m d t _ _ => predOk p && rmOk m && decide (t.toNat ≤ 3) && d != 3 && (d != 2 || m == 0) && (d != 1 || decide (t.toNat ≤ 1))
  | .cvtq6 p m d t _ _ => predOk p && rmOk m && decide (t.toNat ≤ 1) && d != 3 && (d != 2 || m == 0) && d != 1
  | .cvtq4 p m d t _ _ => predOk p && rmOk m && decide (t.toNat ≤ 1) && d != 3 && (d != 2 || m == 0) && d != 1
  | .srseed p d l => predOk p && decide (d.toNat ≤ 1) && (d != 0 || l == 0)
  | .bscale p f _ _ => predOk p && quantFmt f
  | .qblk p f d m _ _ => predOk p && quantFmt f && d != 3 && (d != 1 || f == 3 || f == 4) && m != 3 && (d != 2 || m == 0)
  | .dqblk p f _ _ => predOk p && quantFmt f
  | .lutld p _ _ _ => predOk p
  | .lutenc p _ _ _ => predOk p
  | .ldB p w _ _ => predOk p && (p == 0 || w == 0)
  | .ldH p w _ _ => predOk p && (p == 0 || w == 0)
  | .ldW p w _ _ => predOk p && (p == 0 || w == 0)
  | .ldD p w _ _ => predOk p && (p == 0 || w == 0)
  | .ldBSx p w _ _ => predOk p && (p == 0 || w == 0)
  | .ldHSx p w _ _ => predOk p && (p == 0 || w == 0)
  | .ldWSx p w _ _ => predOk p && (p == 0 || w == 0)
  | .stB p w _ _ _ => predOk p && (p == 0 || w == 0)
  | .stH p w _ _ _ => predOk p && (p == 0 || w == 0)
  | .stW p w _ _ _ => predOk p && (p == 0 || w == 0)
  | .stD p w _ _ _ => predOk p && (p == 0 || w == 0)
  | .ldo p w _ _ => predOk p && (p == 0 || w == 0)
  | .sto p w _ _ _ => predOk p && (p == 0 || w == 0)
  | .clro p w _ _ _ => predOk p && (p == 0 || w == 0)
  | .scld p w _ _ => predOk p && (p == 0 || w == 0)
  | .scst p w _ _ _ => predOk p && (p == 0 || w == 0)
  | .atom p w _ o d _ => predOk p && (p == 0 || w == 0) && decide (o.toNat ≤ 0xB) && (decide (o.toNat < 9) || d == 0)
  | .atomn p w _ o d _ => predOk p && (p == 0 || w == 0) && decide (o.toNat ≤ 0xB) && (decide (o.toNat < 9) || d == 0)
  | .cas _ _ _ => true
  | .join2 p _ _ => predOk p
  | .join3 _ _ => true
  | .fence p s _ => predOk p && s != 7
  | .send p w _ s _ _ _ => predOk p && (p == 0 || w == 0) && s != 7 && (w == 1 || s == 0)
  | .sendr p w _ s _ _ _ => predOk p && (p == 0 || w == 0) && s != 7
  | .sendm p w _ _ _ _ => predOk p && (p == 0 || w == 0)
  | .eos p w _ _ _ => predOk p && (p == 0 || w == 0)
  | .taga p _ => predOk p
  | .tagr p => predOk p
  | .tblk p _ => predOk p
  | .tunb p _ => predOk p
  | .bari p _ _ _ => predOk p
  | .bara p _ _ _ => predOk p
  | .barx p _ _ _ => predOk p
  | .mwin p _ => predOk p
  | .mwend p => predOk p
  | .seal p => predOk p
  | .sealw p _ => predOk p
  | .irst p w _ _ _ => predOk p && (p == 0 || w == 0)
  | .rld p _ _ _ => predOk p
  | .rgo p _ _ _ => predOk p
  | .rstop p _ _ _ => predOk p
  | .rdrain p x q _ _ => predOk p && (x == 0 || q == 0)
  | .rstat p _ _ _ _ => predOk p
  | .mma p f g _ _ => predOk p && rateGroup f != none && rateGroup f == rateGroup g
  | .mmas p f g _ _ => predOk p && rateGroup f != none && rateGroup f == rateGroup g
  | .mclr p _ _ _ => predOk p
  | .mattr p _ _ _ _ => predOk p
  | .mfade p _ _ _ => predOk p
  | .mstat p _ _ => predOk p
  | .lutsel p _ _ _ => predOk p
  | .mlda p _ _ _ => predOk p
  | .mdrain p f _ m _ _ => predOk p && decide (f.toNat ≤ 0xA) && m != 3
  | .apdef p _ _ _ => predOk p
  | .strmIn p _ _ _ => predOk p
  | .strmOut p _ _ _ => predOk p
  | .sbar p m _ _ => predOk p && m != 0
  | .bcopy p _ _ _ _ => predOk p
  | .bcopyh p _ _ _ _ => predOk p
  | .agcfg p _ _ _ _ => predOk p
  | .aggo p _ _ _ _ => predOk p
  | .coll p _ _ _ => predOk p
  | .trap p => predOk p
  | .eres p _ _ => predOk p
  | .ekill p _ _ => predOk p
  | .mfsp p _ _ => predOk p
  | .mtsp p => predOk p
  | .halt p => predOk p
  | .dbg p => predOk p
  | .wdog p => predOk p
  | .ecnt p _ _ => predOk p
  | .telm p => predOk p
  | .cswp p => predOk p
  | .xflush p _ _ => predOk p
  | .blockFetchDone => true
  | .fetchFrame => true
  | .resultDelivery => true
  | .blockCommit => true
  | .commitWaitRelease => true
  | .blockDead => true
  | .mwinOverrun => true
  | .watchdog => true
  | .dispatchDecision => true
  | .tokenArrival => true
  | .tagReturnToken => true
  | .legacyAck => true
  | .creditReturn => true
  | .trapCreditRequest => true
  | .trapTokenSend => true
  | .trapAnswerArrival => true
  | .loadReply => true
  | .atomicApply => true
  | .atomicReply => true
  | .mTileRequest => true
  | .heldAccessRelease => true
  | .stoApply => true
  | .clroApply => true
  | .agcfgApply => true
  | .postCommitReport => true
  | .scRingToken => true
  | .scstAcknowledge => true
  | .barrierLineComplete => true
  | .haltArrival => true
  | .rowArrayCycle => true
  | .rowRound => true
  | .rowSlotCompletion => true
  | .rowStall => true
  | .matrixOpBegin => true
  | .matrixOpEnd => true
  | .mmasStagingStart => true
  | .ballastPass => true
  | .strmBindingEnd => true
  | .streamErrorReply => true
  | .barrierObjectUpdate => true
  | .aggoDone => true
  | .xflushDone => true
  | .collTokenArrival => true
  | .shoreRequest => true
  | .virtualRequestArrival => true
  | .translationWalkEnd => true
  | .timeBeacon => true
  | .beaconLoss => true
  | .phaseFinish => true
  | .phaseStarvedSave => true
  | .phasePick => true
  | .phaseConfigure => true
  | .minqExpiry => true
  | .preemptStart => true
  | .graceEnd => true
  | .contextSave => true
  | .resumption => true
  | .budgetPeriod => true
  | .rebalancerMove => true
  | .moveAbandon => true
  | .telemetryPeriod => true
  | .launchSlotMap => true
  | .launchSlotTimeout => true
  | .periodicWaveTimer => true
  | .waveStart => true
  | .actorAlign => true
  | .tileCut => true
  | .agentCut => true
  | .waveComplete => true
  | .sealPoint => true
  | .sealed => true
  | .retagSweepEnd => true
  | .uncorrectable => true
  | .rollback => true
  | .flitHop => true
  | .flitReceive => true
  | .ackReceive => true
  | .ackTimer => true
  | .resendTimeout => true
  | .linkDead => true
  | .siteDeath => true
  | .flip => true
  | .flipGraceEnd => true
  | .connectionCreate => true
  | .fjoithFrameReceive => true
  | .fjoithResendTimeout => true
  | .fjoithLaneLoss => true
  | .fjoithRetrainDone => true
  | .fjoithRetryTimer => true
  | .fjoithControlFlit => true
  | .mctpRequest => true
  | .partdefCreate => true
  | .partdefDelete => true
  | .qtailWrite => true
  | .qheadWrite => true
  | .spanWrite => true
  | .ptrootWrite => true
  | .invalPage => true
  | .invalAll => true
  | .fretryRetry => true
  | .fretryAbort => true
  | .esnonceWrite => true
  | .attnonceWrite => true
  | .keycmdLoad => true
  | .keycmdGen => true
  | .keycmdZero => true
  | .fwcmdLoad => true
  | .fwLoadDone => true
  | .fwcmdCommit => true
  | .sundoWrite => true
  | .registerWrite => true
  | .flr => true
  | .bringUp => true
  | .thermalTrip => true
  | .counterFlash => true
  | .auxPowerLoss => true
  | .engineBeat => true
  | .remoteTileRequest => true
  | .hostPortLinkDown => true
  | .hostPortLinkUp => true
  | .vfEnableWrite => true
  | .hostReadCompletion => true
  | .ecntRecordReady => true
  | .invalidationDone => true
  | .partitionDeleteDone => true

/-- An instruction term the device accepts. -/
def Instr.WellFormed (i : Instr) : Prop := i.wellFormed = true

end Sys2Proof
end

