-- ==== Sys2Proof/Decode.lean ====
section
/-!
DEFINITION. The decoder of one instruction word and its encoder, both from the encoding tables of R28 to R44 and the bit fields of
spec/opcode_table.json. A word is read as a natural number, so that a field at bits hi:lo is a division and a remainder by literals.
decode reads opcode, fn and the fields that must be 0; WellFormed holds the remaining ILLEGAL_OP checks on field values.
-/

namespace Sys2Proof

/-- Why a word is no instruction. The first three are ILLEGAL_OP, the last ILLEGAL_TARGET (R48). -/
inductive DecodeError where
  /-- The opcode map gives the opcode no instruction (R33). -/
  | unassignedOpcode
  /-- A shared opcode's fn value is not listed (R34). -/
  | unassignedFn
  /-- A field that R28 or the layout requires to be 0 is not 0. -/
  | reservedField
  /-- An instruction that produces no value has a target other than 0x7F (R29). -/
  | illegalTarget (i : Instr)
  deriving DecidableEq, Repr

/-- Bits lo+w-1 down to lo of a word. -/
def fld (n lo w : Nat) : BitVec w := BitVec.ofNat w (n / 2 ^ lo)

/-- Opcode 0x14: bits 21:14 select the instruction (R34 to R44). -/
def decodeAlu (n : Nat) : Except DecodeError Instr :=
  if n / 2^14 % 2^8 = 0x0 then .ok (.add (fld n 22 2) (fld n 7 7) (fld n 0 7)) else
  if n / 2^14 % 2^8 = 0x1 then .ok (.sub (fld n 22 2) (fld n 7 7) (fld n 0 7)) else
  if n / 2^14 % 2^8 = 0x2 then .ok (.mul (fld n 22 2) (fld n 7 7) (fld n 0 7)) else
  if n / 2^14 % 2^8 = 0x3 then .ok (.mulhs (fld n 22 2) (fld n 7 7) (fld n 0 7)) else
  if n / 2^14 % 2^8 = 0x4 then .ok (.mulhu (fld n 22 2) (fld n 7 7) (fld n 0 7)) else
  if n / 2^14 % 2^8 = 0x5 then .ok (.divs (fld n 22 2) (fld n 7 7) (fld n 0 7)) else
  if n / 2^14 % 2^8 = 0x6 then .ok (.divu (fld n 22 2) (fld n 7 7) (fld n 0 7)) else
  if n / 2^14 % 2^8 = 0x7 then .ok (.rems (fld n 22 2) (fld n 7 7) (fld n 0 7)) else
  if n / 2^14 % 2^8 = 0x8 then .ok (.remu (fld n 22 2) (fld n 7 7) (fld n 0 7)) else
  if n / 2^14 % 2^8 = 0x9 then .ok (.min (fld n 22 2) (fld n 7 7) (fld n 0 7)) else
  if n / 2^14 % 2^8 = 0xa then .ok (.max (fld n 22 2) (fld n 7 7) (fld n 0 7)) else
  if n / 2^14 % 2^8 = 0xb then .ok (.minu (fld n 22 2) (fld n 7 7) (fld n 0 7)) else
  if n / 2^14 % 2^8 = 0xc then .ok (.maxu (fld n 22 2) (fld n 7 7) (fld n 0 7)) else
  if n / 2^14 % 2^8 = 0x10 then .ok (.and (fld n 22 2) (fld n 7 7) (fld n 0 7)) else
  if n / 2^14 % 2^8 = 0x11 then .ok (.or (fld n 22 2) (fld n 7 7) (fld n 0 7)) else
  if n / 2^14 % 2^8 = 0x12 then .ok (.xor (fld n 22 2) (fld n 7 7) (fld n 0 7)) else
  if n / 2^14 % 2^8 = 0x13 then .ok (.andn (fld n 22 2) (fld n 7 7) (fld n 0 7)) else
  if n / 2^14 % 2^8 = 0x14 then .ok (.orn (fld n 22 2) (fld n 7 7) (fld n 0 7)) else
  if n / 2^14 % 2^8 = 0x15 then .ok (.xnor (fld n 22 2) (fld n 7 7) (fld n 0 7)) else
  if n / 2^14 % 2^8 = 0x18 then .ok (.shl (fld n 22 2) (fld n 7 7) (fld n 0 7)) else
  if n / 2^14 % 2^8 = 0x19 then .ok (.shr (fld n 22 2) (fld n 7 7) (fld n 0 7)) else
  if n / 2^14 % 2^8 = 0x1a then .ok (.sar (fld n 22 2) (fld n 7 7) (fld n 0 7)) else
  if n / 2^14 % 2^8 = 0x1b then .ok (.rol (fld n 22 2) (fld n 7 7) (fld n 0 7)) else
  if n / 2^14 % 2^8 = 0x1c then .ok (.ror (fld n 22 2) (fld n 7 7) (fld n 0 7)) else
  if n / 2^14 % 2^8 = 0x20 then .ok (.abs (fld n 22 2) (fld n 7 7) (fld n 0 7)) else
  if n / 2^14 % 2^8 = 0x21 then .ok (.clz (fld n 22 2) (fld n 7 7) (fld n 0 7)) else
  if n / 2^14 % 2^8 = 0x22 then .ok (.ctz (fld n 22 2) (fld n 7 7) (fld n 0 7)) else
  if n / 2^14 % 2^8 = 0x23 then .ok (.popc (fld n 22 2) (fld n 7 7) (fld n 0 7)) else
  if n / 2^14 % 2^8 = 0x24 then .ok (.brev (fld n 22 2) (fld n 7 7) (fld n 0 7)) else
  if n / 2^14 % 2^8 = 0x25 then .ok (.bswap (fld n 22 2) (fld n 7 7) (fld n 0 7)) else
  if n / 2^14 % 2^8 = 0x26 then .ok (.sextB (fld n 22 2) (fld n 7 7) (fld n 0 7)) else
  if n / 2^14 % 2^8 = 0x27 then .ok (.sextH (fld n 22 2) (fld n 7 7) (fld n 0 7)) else
  if n / 2^14 % 2^8 = 0x28 then .ok (.sextW (fld n 22 2) (fld n 7 7) (fld n 0 7)) else
  if n / 2^14 % 2^8 = 0x29 then .ok (.zextB (fld n 22 2) (fld n 7 7) (fld n 0 7)) else
  if n / 2^14 % 2^8 = 0x2a then .ok (.zextH (fld n 22 2) (fld n 7 7) (fld n 0 7)) else
  if n / 2^14 % 2^8 = 0x2b then .ok (.zextW (fld n 22 2) (fld n 7 7) (fld n 0 7)) else
  .error .unassignedFn

/-- Opcode 0x15: bits 21:14 select the instruction (R34 to R44). -/
def decodeAluW (n : Nat) : Except DecodeError Instr :=
  if n / 2^14 % 2^8 = 0x0 then .ok (.addW (fld n 22 2) (fld n 7 7) (fld n 0 7)) else
  if n / 2^14 % 2^8 = 0x1 then .ok (.subW (fld n 22 2) (fld n 7 7) (fld n 0 7)) else
  if n / 2^14 % 2^8 = 0x2 then .ok (.mulW (fld n 22 2) (fld n 7 7) (fld n 0 7)) else
  if n / 2^14 % 2^8 = 0x3 then .ok (.mulhsW (fld n 22 2) (fld n 7 7) (fld n 0 7)) else
  if n / 2^14 % 2^8 = 0x4 then .ok (.mulhuW (fld n 22 2) (fld n 7 7) (fld n 0 7)) else
  if n / 2^14 % 2^8 = 0x5 then .ok (.divsW (fld n 22 2) (fld n 7 7) (fld n 0 7)) else
  if n / 2^14 % 2^8 = 0x6 then .ok (.divuW (fld n 22 2) (fld n 7 7) (fld n 0 7)) else
  if n / 2^14 % 2^8 = 0x7 then .ok (.remsW (fld n 22 2) (fld n 7 7) (fld n 0 7)) else
  if n / 2^14 % 2^8 = 0x8 then .ok (.remuW (fld n 22 2) (fld n 7 7) (fld n 0 7)) else
  if n / 2^14 % 2^8 = 0x9 then .ok (.minW (fld n 22 2) (fld n 7 7) (fld n 0 7)) else
  if n / 2^14 % 2^8 = 0xa then .ok (.maxW (fld n 22 2) (fld n 7 7) (fld n 0 7)) else
  if n / 2^14 % 2^8 = 0xb then .ok (.minuW (fld n 22 2) (fld n 7 7) (fld n 0 7)) else
  if n / 2^14 % 2^8 = 0xc then .ok (.maxuW (fld n 22 2) (fld n 7 7) (fld n 0 7)) else
  if n / 2^14 % 2^8 = 0x10 then .ok (.andW (fld n 22 2) (fld n 7 7) (fld n 0 7)) else
  if n / 2^14 % 2^8 = 0x11 then .ok (.orW (fld n 22 2) (fld n 7 7) (fld n 0 7)) else
  if n / 2^14 % 2^8 = 0x12 then .ok (.xorW (fld n 22 2) (fld n 7 7) (fld n 0 7)) else
  if n / 2^14 % 2^8 = 0x13 then .ok (.andnW (fld n 22 2) (fld n 7 7) (fld n 0 7)) else
  if n / 2^14 % 2^8 = 0x14 then .ok (.ornW (fld n 22 2) (fld n 7 7) (fld n 0 7)) else
  if n / 2^14 % 2^8 = 0x15 then .ok (.xnorW (fld n 22 2) (fld n 7 7) (fld n 0 7)) else
  if n / 2^14 % 2^8 = 0x18 then .ok (.shlW (fld n 22 2) (fld n 7 7) (fld n 0 7)) else
  if n / 2^14 % 2^8 = 0x19 then .ok (.shrW (fld n 22 2) (fld n 7 7) (fld n 0 7)) else
  if n / 2^14 % 2^8 = 0x1a then .ok (.sarW (fld n 22 2) (fld n 7 7) (fld n 0 7)) else
  if n / 2^14 % 2^8 = 0x1b then .ok (.rolW (fld n 22 2) (fld n 7 7) (fld n 0 7)) else
  if n / 2^14 % 2^8 = 0x1c then .ok (.rorW (fld n 22 2) (fld n 7 7) (fld n 0 7)) else
  if n / 2^14 % 2^8 = 0x20 then .ok (.absW (fld n 22 2) (fld n 7 7) (fld n 0 7)) else
  if n / 2^14 % 2^8 = 0x21 then .ok (.clzW (fld n 22 2) (fld n 7 7) (fld n 0 7)) else
  if n / 2^14 % 2^8 = 0x22 then .ok (.ctzW (fld n 22 2) (fld n 7 7) (fld n 0 7)) else
  if n / 2^14 % 2^8 = 0x23 then .ok (.popcW (fld n 22 2) (fld n 7 7) (fld n 0 7)) else
  if n / 2^14 % 2^8 = 0x24 then .ok (.brevW (fld n 22 2) (fld n 7 7) (fld n 0 7)) else
  if n / 2^14 % 2^8 = 0x25 then .ok (.bswapW (fld n 22 2) (fld n 7 7) (fld n 0 7)) else
  .error .unassignedFn

/-- Opcode 0x20: bits 20:14 select the instruction (R34 to R44). -/
def decodeTest (n : Nat) : Except DecodeError Instr :=
  if n / 2^14 % 2^7 = 0x0 then .ok (.teq (fld n 22 2) (fld n 21 1) (fld n 7 7) (fld n 0 7)) else
  if n / 2^14 % 2^7 = 0x1 then .ok (.tne (fld n 22 2) (fld n 21 1) (fld n 7 7) (fld n 0 7)) else
  if n / 2^14 % 2^7 = 0x2 then .ok (.tlt (fld n 22 2) (fld n 21 1) (fld n 7 7) (fld n 0 7)) else
  if n / 2^14 % 2^7 = 0x3 then .ok (.tle (fld n 22 2) (fld n 21 1) (fld n 7 7) (fld n 0 7)) else
  if n / 2^14 % 2^7 = 0x4 then .ok (.tltu (fld n 22 2) (fld n 21 1) (fld n 7 7) (fld n 0 7)) else
  if n / 2^14 % 2^7 = 0x5 then .ok (.tleu (fld n 22 2) (fld n 21 1) (fld n 7 7) (fld n 0 7)) else
  .error .unassignedFn

/-- Opcode 0x30: bits 18:14 select the instruction (R34 to R44). -/
def decodeFp (n : Nat) : Except DecodeError Instr :=
  if n / 2^14 % 2^5 = 0x0 then .ok (.fadd (fld n 22 2) (fld n 19 3) (fld n 7 7) (fld n 0 7)) else
  if n / 2^14 % 2^5 = 0x1 then .ok (.fsub (fld n 22 2) (fld n 19 3) (fld n 7 7) (fld n 0 7)) else
  if n / 2^14 % 2^5 = 0x2 then .ok (.fmul (fld n 22 2) (fld n 19 3) (fld n 7 7) (fld n 0 7)) else
  if n / 2^14 % 2^5 = 0x3 then .ok (.fdiv (fld n 22 2) (fld n 19 3) (fld n 7 7) (fld n 0 7)) else
  if n / 2^14 % 2^5 = 0x4 then .ok (.fsqrt (fld n 22 2) (fld n 19 3) (fld n 7 7) (fld n 0 7)) else
  if n / 2^14 % 2^5 = 0x5 then if n / 2^19 % 2^3 = 0x0 then .ok (.fmin (fld n 22 2) (fld n 7 7) (fld n 0 7)) else .error .reservedField else
  if n / 2^14 % 2^5 = 0x6 then if n / 2^19 % 2^3 = 0x0 then .ok (.fmax (fld n 22 2) (fld n 7 7) (fld n 0 7)) else .error .reservedField else
  if n / 2^14 % 2^5 = 0x7 then if n / 2^19 % 2^3 = 0x0 then .ok (.fabs (fld n 22 2) (fld n 7 7) (fld n 0 7)) else .error .reservedField else
  if n / 2^14 % 2^5 = 0x8 then if n / 2^19 % 2^3 = 0x0 then .ok (.fneg (fld n 22 2) (fld n 7 7) (fld n 0 7)) else .error .reservedField else
  if n / 2^14 % 2^5 = 0x9 then if n / 2^19 % 2^3 = 0x0 then .ok (.fteq (fld n 22 2) (fld n 7 7) (fld n 0 7)) else .error .reservedField else
  if n / 2^14 % 2^5 = 0xa then if n / 2^19 % 2^3 = 0x0 then .ok (.ftlt (fld n 22 2) (fld n 7 7) (fld n 0 7)) else .error .reservedField else
  if n / 2^14 % 2^5 = 0xb then if n / 2^19 % 2^3 = 0x0 then .ok (.ftle (fld n 22 2) (fld n 7 7) (fld n 0 7)) else .error .reservedField else
  if n / 2^14 % 2^5 = 0xc then if n / 2^19 % 2^3 = 0x0 then .ok (.ftun (fld n 22 2) (fld n 7 7) (fld n 0 7)) else .error .reservedField else
  if n / 2^14 % 2^5 = 0xd then if n / 2^19 % 2^3 = 0x0 then .ok (.fclass (fld n 22 2) (fld n 7 7) (fld n 0 7)) else .error .reservedField else
  if n / 2^14 % 2^5 = 0xe then .ok (.frnd (fld n 22 2) (fld n 19 3) (fld n 7 7) (fld n 0 7)) else
  if n / 2^14 % 2^5 = 0xf then .ok (.fexp2 (fld n 22 2) (fld n 19 3) (fld n 7 7) (fld n 0 7)) else
  if n / 2^14 % 2^5 = 0x10 then .ok (.flog2 (fld n 22 2) (fld n 19 3) (fld n 7 7) (fld n 0 7)) else
  .error .unassignedFn

/-- Opcode 0x32 (R40): fn 4:0 selects the conversion. -/
def decodeCvt (n : Nat) : Except DecodeError Instr :=
  if n / 2^14 % 2^5 = 0x0 then .ok (.cvtfiW (fld n 22 2) (fld n 19 3) (fld n 7 7) (fld n 0 7)) else
  if n / 2^14 % 2^5 = 0x1 then .ok (.cvtfiWU (fld n 22 2) (fld n 19 3) (fld n 7 7) (fld n 0 7)) else
  if n / 2^14 % 2^5 = 0x2 then .ok (.cvtfiD (fld n 22 2) (fld n 19 3) (fld n 7 7) (fld n 0 7)) else
  if n / 2^14 % 2^5 = 0x3 then .ok (.cvtfiDU (fld n 22 2) (fld n 19 3) (fld n 7 7) (fld n 0 7)) else
  if n / 2^14 % 2^5 = 0x4 then .ok (.cvtifW (fld n 22 2) (fld n 19 3) (fld n 7 7) (fld n 0 7)) else
  if n / 2^14 % 2^5 = 0x5 then .ok (.cvtifWU (fld n 22 2) (fld n 19 3) (fld n 7 7) (fld n 0 7)) else
  if n / 2^14 % 2^5 = 0x6 then .ok (.cvtifD (fld n 22 2) (fld n 19 3) (fld n 7 7) (fld n 0 7)) else
  if n / 2^14 % 2^5 = 0x7 then .ok (.cvtifDU (fld n 22 2) (fld n 19 3) (fld n 7 7) (fld n 0 7)) else
  if n / 2^14 % 2^5 = 0x8 then .ok (.cvtffH (fld n 22 2) (fld n 19 3) (fld n 7 7) (fld n 0 7)) else
  if n / 2^14 % 2^5 = 0x9 then .ok (.cvtffBf (fld n 22 2) (fld n 19 3) (fld n 7 7) (fld n 0 7)) else
  if n / 2^14 % 2^5 = 0xa then if n / 2^19 % 2^3 = 0x0 then .ok (.cvtffFH (fld n 22 2) (fld n 7 7) (fld n 0 7)) else .error .reservedField else
  if n / 2^14 % 2^5 = 0xb then if n / 2^19 % 2^3 = 0x0 then .ok (.cvtffFBf (fld n 22 2) (fld n 7 7) (fld n 0 7)) else .error .reservedField else
  if n / 2^18 % 2^1 = 1 then if n / 2^19 % 2^3 = 0x0 then .ok (.cvtd (fld n 22 2) (fld n 14 4) (fld n 7 7) (fld n 0 7)) else .error .reservedField else
  .error .unassignedFn

/-- Opcode 0x5e: bits 21:20 select the instruction (R34 to R44). -/
def decodeBar (n : Nat) : Except DecodeError Instr :=
  if n / 2^20 % 2^2 = 0x0 then .ok (.bari (fld n 22 2) (fld n 14 6) (fld n 7 7) (fld n 0 7)) else
  if n / 2^20 % 2^2 = 0x1 then .ok (.bara (fld n 22 2) (fld n 14 6) (fld n 7 7) (fld n 0 7)) else
  if n / 2^20 % 2^2 = 0x2 then .ok (.barx (fld n 22 2) (fld n 14 6) (fld n 7 7) (fld n 0 7)) else
  .error .unassignedFn

/-- Opcode 0x6c: bits 21:18 select the instruction (R34 to R44). -/
def decodeMx (n : Nat) : Except DecodeError Instr :=
  if n / 2^18 % 2^4 = 0x0 then if n / 2^16 % 2^2 = 0x0 then .ok (.mclr (fld n 22 2) (fld n 14 2) (fld n 7 7) (fld n 0 7)) else .error .reservedField else
  if n / 2^18 % 2^4 = 0x1 then if n / 2^17 % 2^1 = 0x0 then .ok (.mattr (fld n 22 2) (fld n 16 1) (fld n 14 2) (fld n 7 7) (fld n 0 7)) else .error .reservedField else
  if n / 2^18 % 2^4 = 0x2 then if n / 2^16 % 2^2 = 0x0 then .ok (.mfade (fld n 22 2) (fld n 14 2) (fld n 7 7) (fld n 0 7)) else .error .reservedField else
  if n / 2^18 % 2^4 = 0x3 then if n / 2^14 % 2^4 = 0x0 then .ok (.mstat (fld n 22 2) (fld n 7 7) (fld n 0 7)) else .error .reservedField else
  if n / 2^18 % 2^4 = 0x4 then if n / 2^16 % 2^2 = 0x0 then .ok (.lutsel (fld n 22 2) (fld n 14 2) (fld n 7 7) (fld n 0 7)) else .error .reservedField else
  .error .unassignedFn

/-- Opcode 0x71: bits 17:17 select the instruction (R34 to R44). -/
def decodeStrm (n : Nat) : Except DecodeError Instr :=
  if n / 2^17 % 2^1 = 0x0 then if n / 2^18 % 2^4 = 0x0 then .ok (.strmIn (fld n 22 2) (fld n 14 3) (fld n 7 7) (fld n 0 7)) else .error .reservedField else
  if n / 2^17 % 2^1 = 0x1 then if n / 2^18 % 2^4 = 0x0 then .ok (.strmOut (fld n 22 2) (fld n 14 3) (fld n 7 7) (fld n 0 7)) else .error .reservedField else
  .error .unassignedFn

/-- Opcode 0x78: bits 21:14 select the instruction (R34 to R44). -/
def decodeSys (n : Nat) : Except DecodeError Instr :=
  if n / 2^14 % 2^8 = 0x0 then if n % 2^14 = 0x3fff then .ok (.trap (fld n 22 2)) else .error (.illegalTarget (.trap (fld n 22 2))) else
  if n / 2^14 % 2^8 = 0x1 then .ok (.eres (fld n 22 2) (fld n 7 7) (fld n 0 7)) else
  if n / 2^14 % 2^8 = 0x2 then .ok (.ekill (fld n 22 2) (fld n 7 7) (fld n 0 7)) else
  if n / 2^14 % 2^8 = 0x3 then .ok (.mfsp (fld n 22 2) (fld n 7 7) (fld n 0 7)) else
  if n / 2^14 % 2^8 = 0x4 then if n % 2^14 = 0x3fff then .ok (.mtsp (fld n 22 2)) else .error (.illegalTarget (.mtsp (fld n 22 2))) else
  if n / 2^14 % 2^8 = 0x5 then if n % 2^14 = 0x3fff then .ok (.halt (fld n 22 2)) else .error (.illegalTarget (.halt (fld n 22 2))) else
  if n / 2^14 % 2^8 = 0x6 then if n % 2^14 = 0x3fff then .ok (.dbg (fld n 22 2)) else .error (.illegalTarget (.dbg (fld n 22 2))) else
  if n / 2^14 % 2^8 = 0x7 then if n % 2^14 = 0x3fff then .ok (.wdog (fld n 22 2)) else .error (.illegalTarget (.wdog (fld n 22 2))) else
  if n / 2^14 % 2^8 = 0x8 then .ok (.ecnt (fld n 22 2) (fld n 7 7) (fld n 0 7)) else
  if n / 2^14 % 2^8 = 0x9 then if n % 2^14 = 0x3fff then .ok (.telm (fld n 22 2)) else .error (.illegalTarget (.telm (fld n 22 2))) else
  if n / 2^14 % 2^8 = 0xa then if n % 2^14 = 0x3fff then .ok (.cswp (fld n 22 2)) else .error (.illegalTarget (.cswp (fld n 22 2))) else
  if n / 2^14 % 2^8 = 0xb then .ok (.xflush (fld n 22 2) (fld n 7 7) (fld n 0 7)) else
  .error .unassignedFn

/-- The word with match value base and fields at bits 23:22, 21:19, 18:0. -/
def enc_23_22_21_19_18_0 (base : Nat) (x0 : BitVec 2) (x1 : BitVec 3) (x2 : BitVec 19) : Nat :=
  base + x0.toNat * 2 ^ 22 + x1.toNat * 2 ^ 19 + x2.toNat * 2 ^ 0

/-- The word with match value base and fields at bits 23:22, 21:19. -/
def enc_23_22_21_19 (base : Nat) (x0 : BitVec 2) (x1 : BitVec 3) : Nat :=
  base + x0.toNat * 2 ^ 22 + x1.toNat * 2 ^ 19

/-- The word with match value base and fields at bits 23:22, 18:7. -/
def enc_23_22_18_7 (base : Nat) (x0 : BitVec 2) (x1 : BitVec 12) : Nat :=
  base + x0.toNat * 2 ^ 22 + x1.toNat * 2 ^ 7

/-- The word with match value base and fields at bits 23:22, 14:7. -/
def enc_23_22_14_7 (base : Nat) (x0 : BitVec 2) (x1 : BitVec 8) : Nat :=
  base + x0.toNat * 2 ^ 22 + x1.toNat * 2 ^ 7

/-- The word with match value base and fields at bits 23:22. -/
def enc_23_22 (base : Nat) (x0 : BitVec 2) : Nat :=
  base + x0.toNat * 2 ^ 22

/-- The word with match value base and fields at bits 23:22, 18:0. -/
def enc_23_22_18_0 (base : Nat) (x0 : BitVec 2) (x1 : BitVec 19) : Nat :=
  base + x0.toNat * 2 ^ 22 + x1.toNat * 2 ^ 0

/-- The word with match value base and fields at bits 23:22, 13:7, 6:0. -/
def enc_23_22_13_7_6_0 (base : Nat) (x0 : BitVec 2) (x1 : BitVec 7) (x2 : BitVec 7) : Nat :=
  base + x0.toNat * 2 ^ 22 + x1.toNat * 2 ^ 7 + x2.toNat * 2 ^ 0

/-- The word with match value base and fields at bits 23:7, 6:0. -/
def enc_23_7_6_0 (base : Nat) (x0 : BitVec 17) (x1 : BitVec 7) : Nat :=
  base + x0.toNat * 2 ^ 7 + x1.toNat * 2 ^ 0

/-- The word with match value base and fields at bits 23:22, 21:7, 6:0. -/
def enc_23_22_21_7_6_0 (base : Nat) (x0 : BitVec 2) (x1 : BitVec 15) (x2 : BitVec 7) : Nat :=
  base + x0.toNat * 2 ^ 22 + x1.toNat * 2 ^ 7 + x2.toNat * 2 ^ 0

/-- The word with match value base and fields at bits 23:22, 21:16, 13:7, 6:0. -/
def enc_23_22_21_16_13_7_6_0 (base : Nat) (x0 : BitVec 2) (x1 : BitVec 6) (x2 : BitVec 7) (x3 : BitVec 7) : Nat :=
  base + x0.toNat * 2 ^ 22 + x1.toNat * 2 ^ 16 + x2.toNat * 2 ^ 7 + x3.toNat * 2 ^ 0

/-- The word with match value base and fields at bits 23:22, 21:16. -/
def enc_23_22_21_16 (base : Nat) (x0 : BitVec 2) (x1 : BitVec 6) : Nat :=
  base + x0.toNat * 2 ^ 22 + x1.toNat * 2 ^ 16

/-- The word with match value base and fields at bits 23:22, 14:7, 6:0. -/
def enc_23_22_14_7_6_0 (base : Nat) (x0 : BitVec 2) (x1 : BitVec 8) (x2 : BitVec 7) : Nat :=
  base + x0.toNat * 2 ^ 22 + x1.toNat * 2 ^ 7 + x2.toNat * 2 ^ 0

/-- The word with match value base and fields at bits 13:7, 6:0. -/
def enc_13_7_6_0 (base : Nat) (x0 : BitVec 7) (x1 : BitVec 7) : Nat :=
  base + x0.toNat * 2 ^ 7 + x1.toNat * 2 ^ 0

/-- The word with match value base and fields at bits 23:22, 13:13, 12:7, 6:0. -/
def enc_23_22_13_13_12_7_6_0 (base : Nat) (x0 : BitVec 2) (x1 : BitVec 1) (x2 : BitVec 6) (x3 : BitVec 7) : Nat :=
  base + x0.toNat * 2 ^ 22 + x1.toNat * 2 ^ 13 + x2.toNat * 2 ^ 7 + x3.toNat * 2 ^ 0

/-- The word with match value base and fields at bits 23:22, 21:21, 13:7, 6:0. -/
def enc_23_22_21_21_13_7_6_0 (base : Nat) (x0 : BitVec 2) (x1 : BitVec 1) (x2 : BitVec 7) (x3 : BitVec 7) : Nat :=
  base + x0.toNat * 2 ^ 22 + x1.toNat * 2 ^ 21 + x2.toNat * 2 ^ 7 + x3.toNat * 2 ^ 0

/-- The word with match value base and fields at bits 21:14, 13:7, 6:0. -/
def enc_21_14_13_7_6_0 (base : Nat) (x0 : BitVec 8) (x1 : BitVec 7) (x2 : BitVec 7) : Nat :=
  base + x0.toNat * 2 ^ 14 + x1.toNat * 2 ^ 7 + x2.toNat * 2 ^ 0

/-- The word with match value base and fields at bits 14:14, 13:7, 6:0. -/
def enc_14_14_13_7_6_0 (base : Nat) (x0 : BitVec 1) (x1 : BitVec 7) (x2 : BitVec 7) : Nat :=
  base + x0.toNat * 2 ^ 14 + x1.toNat * 2 ^ 7 + x2.toNat * 2 ^ 0

/-- The word with match value base and fields at bits 23:22, 19:19, 18:13, 12:7, 6:0. -/
def enc_23_22_19_19_18_13_12_7_6_0 (base : Nat) (x0 : BitVec 2) (x1 : BitVec 1) (x2 : BitVec 6) (x3 : BitVec 6) (x4 : BitVec 7) : Nat :=
  base + x0.toNat * 2 ^ 22 + x1.toNat * 2 ^ 19 + x2.toNat * 2 ^ 13 + x3.toNat * 2 ^ 7 + x4.toNat * 2 ^ 0

/-- The word with match value base and fields at bits 23:22, 20:7, 6:0. -/
def enc_23_22_20_7_6_0 (base : Nat) (x0 : BitVec 2) (x1 : BitVec 14) (x2 : BitVec 7) : Nat :=
  base + x0.toNat * 2 ^ 22 + x1.toNat * 2 ^ 7 + x2.toNat * 2 ^ 0

/-- The word with match value base and fields at bits 23:22, 21:19, 13:7, 6:0. -/
def enc_23_22_21_19_13_7_6_0 (base : Nat) (x0 : BitVec 2) (x1 : BitVec 3) (x2 : BitVec 7) (x3 : BitVec 7) : Nat :=
  base + x0.toNat * 2 ^ 22 + x1.toNat * 2 ^ 19 + x2.toNat * 2 ^ 7 + x3.toNat * 2 ^ 0

/-- The word with match value base and fields at bits 21:19, 13:7, 6:0. -/
def enc_21_19_13_7_6_0 (base : Nat) (x0 : BitVec 3) (x1 : BitVec 7) (x2 : BitVec 7) : Nat :=
  base + x0.toNat * 2 ^ 19 + x1.toNat * 2 ^ 7 + x2.toNat * 2 ^ 0

/-- The word with match value base and fields at bits 23:22, 17:14, 13:7, 6:0. -/
def enc_23_22_17_14_13_7_6_0 (base : Nat) (x0 : BitVec 2) (x1 : BitVec 4) (x2 : BitVec 7) (x3 : BitVec 7) : Nat :=
  base + x0.toNat * 2 ^ 22 + x1.toNat * 2 ^ 14 + x2.toNat * 2 ^ 7 + x3.toNat * 2 ^ 0

/-- The word with match value base and fields at bits 23:22, 21:19, 18:17, 16:14, 13:7, 6:0. -/
def enc_23_22_21_19_18_17_16_14_13_7_6_0 (base : Nat) (x0 : BitVec 2) (x1 : BitVec 3) (x2 : BitVec 2) (x3 : BitVec 3) (x4 : BitVec 7) (x5 : BitVec 7) : Nat :=
  base + x0.toNat * 2 ^ 22 + x1.toNat * 2 ^ 19 + x2.toNat * 2 ^ 17 + x3.toNat * 2 ^ 14 + x4.toNat * 2 ^ 7 + x5.toNat * 2 ^ 0

/-- The word with match value base and fields at bits 23:22, 21:20, 19:14. -/
def enc_23_22_21_20_19_14 (base : Nat) (x0 : BitVec 2) (x1 : BitVec 2) (x2 : BitVec 6) : Nat :=
  base + x0.toNat * 2 ^ 22 + x1.toNat * 2 ^ 20 + x2.toNat * 2 ^ 14

/-- The word with match value base and fields at bits 23:22, 21:18, 13:7, 6:0. -/
def enc_23_22_21_18_13_7_6_0 (base : Nat) (x0 : BitVec 2) (x1 : BitVec 4) (x2 : BitVec 7) (x3 : BitVec 7) : Nat :=
  base + x0.toNat * 2 ^ 22 + x1.toNat * 2 ^ 18 + x2.toNat * 2 ^ 7 + x3.toNat * 2 ^ 0

/-- The word with match value base and fields at bits 23:22, 21:18, 17:16, 15:14, 13:7, 6:0. -/
def enc_23_22_21_18_17_16_15_14_13_7_6_0 (base : Nat) (x0 : BitVec 2) (x1 : BitVec 4) (x2 : BitVec 2) (x3 : BitVec 2) (x4 : BitVec 7) (x5 : BitVec 7) : Nat :=
  base + x0.toNat * 2 ^ 22 + x1.toNat * 2 ^ 18 + x2.toNat * 2 ^ 16 + x3.toNat * 2 ^ 14 + x4.toNat * 2 ^ 7 + x5.toNat * 2 ^ 0

/-- The word with match value base and fields at bits 23:22, 15:14, 13:7, 6:0. -/
def enc_23_22_15_14_13_7_6_0 (base : Nat) (x0 : BitVec 2) (x1 : BitVec 2) (x2 : BitVec 7) (x3 : BitVec 7) : Nat :=
  base + x0.toNat * 2 ^ 22 + x1.toNat * 2 ^ 14 + x2.toNat * 2 ^ 7 + x3.toNat * 2 ^ 0

/-- The word with match value base and fields at bits 23:22, 21:21, 16:7, 6:0. -/
def enc_23_22_21_21_16_7_6_0 (base : Nat) (x0 : BitVec 2) (x1 : BitVec 1) (x2 : BitVec 10) (x3 : BitVec 7) : Nat :=
  base + x0.toNat * 2 ^ 22 + x1.toNat * 2 ^ 21 + x2.toNat * 2 ^ 7 + x3.toNat * 2 ^ 0

/-- The word with match value base and fields at bits 23:22, 21:21, 20:17, 16:7, 6:0. -/
def enc_23_22_21_21_20_17_16_7_6_0 (base : Nat) (x0 : BitVec 2) (x1 : BitVec 1) (x2 : BitVec 4) (x3 : BitVec 10) (x4 : BitVec 7) : Nat :=
  base + x0.toNat * 2 ^ 22 + x1.toNat * 2 ^ 21 + x2.toNat * 2 ^ 17 + x3.toNat * 2 ^ 7 + x4.toNat * 2 ^ 0

/-- The word with match value base and fields at bits 23:22, 21:21, 20:17, 16:13, 12:12, 6:0. -/
def enc_23_22_21_21_20_17_16_13_12_12_6_0 (base : Nat) (x0 : BitVec 2) (x1 : BitVec 1) (x2 : BitVec 4) (x3 : BitVec 4) (x4 : BitVec 1) (x5 : BitVec 7) : Nat :=
  base + x0.toNat * 2 ^ 22 + x1.toNat * 2 ^ 21 + x2.toNat * 2 ^ 17 + x3.toNat * 2 ^ 13 + x4.toNat * 2 ^ 12 + x5.toNat * 2 ^ 0

/-- The word with match value base and fields at bits 20:17, 12:12, 6:0. -/
def enc_20_17_12_12_6_0 (base : Nat) (x0 : BitVec 4) (x1 : BitVec 1) (x2 : BitVec 7) : Nat :=
  base + x0.toNat * 2 ^ 17 + x1.toNat * 2 ^ 12 + x2.toNat * 2 ^ 0

/-- The word with match value base and fields at bits 23:22, 9:7, 6:0. -/
def enc_23_22_9_7_6_0 (base : Nat) (x0 : BitVec 2) (x1 : BitVec 3) (x2 : BitVec 7) : Nat :=
  base + x0.toNat * 2 ^ 22 + x1.toNat * 2 ^ 7 + x2.toNat * 2 ^ 0

/-- The word with match value base and fields at bits 23:22, 21:21, 20:17, 13:11, 10:10, 9:7, 6:0. -/
def enc_23_22_21_21_20_17_13_11_10_10_9_7_6_0 (base : Nat) (x0 : BitVec 2) (x1 : BitVec 1) (x2 : BitVec 4) (x3 : BitVec 3) (x4 : BitVec 1) (x5 : BitVec 3) (x6 : BitVec 7) : Nat :=
  base + x0.toNat * 2 ^ 22 + x1.toNat * 2 ^ 21 + x2.toNat * 2 ^ 17 + x3.toNat * 2 ^ 11 + x4.toNat * 2 ^ 10 + x5.toNat * 2 ^ 7 + x6.toNat * 2 ^ 0

/-- The word with match value base and fields at bits 23:22, 21:21, 20:17, 11:10, 9:7, 6:0. -/
def enc_23_22_21_21_20_17_11_10_9_7_6_0 (base : Nat) (x0 : BitVec 2) (x1 : BitVec 1) (x2 : BitVec 4) (x3 : BitVec 2) (x4 : BitVec 3) (x5 : BitVec 7) : Nat :=
  base + x0.toNat * 2 ^ 22 + x1.toNat * 2 ^ 21 + x2.toNat * 2 ^ 17 + x3.toNat * 2 ^ 10 + x4.toNat * 2 ^ 7 + x5.toNat * 2 ^ 0

/-- The word with match value base and fields at bits 23:22, 21:21, 20:17, 9:7, 6:0. -/
def enc_23_22_21_21_20_17_9_7_6_0 (base : Nat) (x0 : BitVec 2) (x1 : BitVec 1) (x2 : BitVec 4) (x3 : BitVec 3) (x4 : BitVec 7) : Nat :=
  base + x0.toNat * 2 ^ 22 + x1.toNat * 2 ^ 21 + x2.toNat * 2 ^ 17 + x3.toNat * 2 ^ 7 + x4.toNat * 2 ^ 0

/-- The word with match value base and fields at bits 23:22, 6:0. -/
def enc_23_22_6_0 (base : Nat) (x0 : BitVec 2) (x1 : BitVec 7) : Nat :=
  base + x0.toNat * 2 ^ 22 + x1.toNat * 2 ^ 0

/-- The word with match value base and fields at bits 23:22, 12:7. -/
def enc_23_22_12_7 (base : Nat) (x0 : BitVec 2) (x1 : BitVec 6) : Nat :=
  base + x0.toNat * 2 ^ 22 + x1.toNat * 2 ^ 7

/-- The word with match value base and fields at bits 23:22, 19:14, 13:7, 6:0. -/
def enc_23_22_19_14_13_7_6_0 (base : Nat) (x0 : BitVec 2) (x1 : BitVec 6) (x2 : BitVec 7) (x3 : BitVec 7) : Nat :=
  base + x0.toNat * 2 ^ 22 + x1.toNat * 2 ^ 14 + x2.toNat * 2 ^ 7 + x3.toNat * 2 ^ 0

/-- The word with match value base and fields at bits 23:22, 17:7. -/
def enc_23_22_17_7 (base : Nat) (x0 : BitVec 2) (x1 : BitVec 11) : Nat :=
  base + x0.toNat * 2 ^ 22 + x1.toNat * 2 ^ 7

/-- The word with match value base and fields at bits 23:22, 16:16, 15:14, 13:7, 6:0. -/
def enc_23_22_16_16_15_14_13_7_6_0 (base : Nat) (x0 : BitVec 2) (x1 : BitVec 1) (x2 : BitVec 2) (x3 : BitVec 7) (x4 : BitVec 7) : Nat :=
  base + x0.toNat * 2 ^ 22 + x1.toNat * 2 ^ 16 + x2.toNat * 2 ^ 14 + x3.toNat * 2 ^ 7 + x4.toNat * 2 ^ 0

/-- The word with match value base and fields at bits 23:22, 21:18, 17:14, 13:7, 6:0. -/
def enc_23_22_21_18_17_14_13_7_6_0 (base : Nat) (x0 : BitVec 2) (x1 : BitVec 4) (x2 : BitVec 4) (x3 : BitVec 7) (x4 : BitVec 7) : Nat :=
  base + x0.toNat * 2 ^ 22 + x1.toNat * 2 ^ 18 + x2.toNat * 2 ^ 14 + x3.toNat * 2 ^ 7 + x4.toNat * 2 ^ 0

/-- The word with match value base and fields at bits 23:22, 18:14, 13:7, 6:0. -/
def enc_23_22_18_14_13_7_6_0 (base : Nat) (x0 : BitVec 2) (x1 : BitVec 5) (x2 : BitVec 7) (x3 : BitVec 7) : Nat :=
  base + x0.toNat * 2 ^ 22 + x1.toNat * 2 ^ 14 + x2.toNat * 2 ^ 7 + x3.toNat * 2 ^ 0

/-- The word with match value base and fields at bits 23:22, 16:14, 13:7, 6:0. -/
def enc_23_22_16_14_13_7_6_0 (base : Nat) (x0 : BitVec 2) (x1 : BitVec 3) (x2 : BitVec 7) (x3 : BitVec 7) : Nat :=
  base + x0.toNat * 2 ^ 22 + x1.toNat * 2 ^ 14 + x2.toNat * 2 ^ 7 + x3.toNat * 2 ^ 0

/-- The word with match value base and fields at bits 23:22, 21:14, 13:7, 6:0. -/
def enc_23_22_21_14_13_7_6_0 (base : Nat) (x0 : BitVec 2) (x1 : BitVec 8) (x2 : BitVec 7) (x3 : BitVec 7) : Nat :=
  base + x0.toNat * 2 ^ 22 + x1.toNat * 2 ^ 14 + x2.toNat * 2 ^ 7 + x3.toNat * 2 ^ 0

/-- The word with match value base and fields at bits 23:22, 20:20, 19:14, 13:7, 6:0. -/
def enc_23_22_20_20_19_14_13_7_6_0 (base : Nat) (x0 : BitVec 2) (x1 : BitVec 1) (x2 : BitVec 6) (x3 : BitVec 7) (x4 : BitVec 7) : Nat :=
  base + x0.toNat * 2 ^ 22 + x1.toNat * 2 ^ 20 + x2.toNat * 2 ^ 14 + x3.toNat * 2 ^ 7 + x4.toNat * 2 ^ 0

/-- The word with match value base and fields at bits 23:22, 17:16, 15:14, 13:7, 6:0. -/
def enc_23_22_17_16_15_14_13_7_6_0 (base : Nat) (x0 : BitVec 2) (x1 : BitVec 2) (x2 : BitVec 2) (x3 : BitVec 7) (x4 : BitVec 7) : Nat :=
  base + x0.toNat * 2 ^ 22 + x1.toNat * 2 ^ 16 + x2.toNat * 2 ^ 14 + x3.toNat * 2 ^ 7 + x4.toNat * 2 ^ 0

/-- The decoder: total on any word, rejecting by name. -/
def decodeNat (n : Nat) : Except DecodeError Instr :=
  match n / 2^24 with
  | 0x01 => .ok (.bro (fld n 22 2) (fld n 19 3) (fld n 0 19))
  | 0x02 => if n % 2^19 = 0x0 then .ok (.brr (fld n 22 2) (fld n 19 3)) else .error .reservedField
  | 0x03 => .ok (.callo (fld n 22 2) (fld n 19 3) (fld n 0 19))
  | 0x04 => if n % 2^19 = 0x0 then .ok (.callr (fld n 22 2) (fld n 19 3)) else .error .reservedField
  | 0x05 => if n % 2^19 = 0x0 then .ok (.ret (fld n 22 2) (fld n 19 3)) else .error .reservedField
  | 0x06 => if n % 2^19 = 0x0 then .ok (.hend (fld n 22 2) (fld n 19 3)) else .error .reservedField
  | 0x07 => if n / 2^19 % 2^3 = 0x0 then if n % 2^7 = 0x7f then .ok (.trapi (fld n 22 2) (fld n 7 12)) else .error (.illegalTarget (.trapi (fld n 22 2) (fld n 7 12))) else .error .reservedField
  | 0x08 => if n / 2^15 % 2^7 = 0x0 then if n % 2^7 = 0x7f then .ok (.brk (fld n 22 2) (fld n 7 8)) else .error (.illegalTarget (.brk (fld n 22 2) (fld n 7 8))) else .error .reservedField
  | 0x09 => if n / 2^7 % 2^15 = 0x0 then if n % 2^7 = 0x7f then .ok (.nop (fld n 22 2)) else .error (.illegalTarget (.nop (fld n 22 2))) else .error .reservedField
  | 0x0a => if n / 2^19 % 2^3 = 0x0 then .ok (.rstl (fld n 22 2) (fld n 0 19)) else .error .reservedField
  | 0x0b => if n / 2^14 % 2^8 = 0x0 then .ok (.mov (fld n 22 2) (fld n 7 7) (fld n 0 7)) else .error .reservedField
  | 0x0c => .ok (.movi (fld n 7 17) (fld n 0 7))
  | 0x0d => .ok (.genc (fld n 22 2) (fld n 7 15) (fld n 0 7))
  | 0x0e => if n / 2^14 % 2^2 = 0x0 then .ok (.read (fld n 22 2) (fld n 16 6) (fld n 7 7) (fld n 0 7)) else .error .reservedField
  | 0x0f => if n % 2^16 = 0x0 then .ok (.write (fld n 22 2) (fld n 16 6)) else .error .reservedField
  | 0x10 => if n / 2^15 % 2^7 = 0x0 then .ok (.mfs (fld n 22 2) (fld n 7 8) (fld n 0 7)) else .error .reservedField
  | 0x11 => if n / 2^15 % 2^7 = 0x0 then if n % 2^7 = 0x7f then .ok (.mts (fld n 22 2) (fld n 7 8)) else .error (.illegalTarget (.mts (fld n 22 2) (fld n 7 8))) else .error .reservedField
  | 0x12 => if n / 2^14 % 2^8 = 0x0 then .ok (.null (fld n 22 2) (fld n 7 7) (fld n 0 7)) else .error .reservedField
  | 0x13 => if n / 2^14 % 2^10 = 0x0 then .ok (.sel (fld n 7 7) (fld n 0 7)) else .error .reservedField
  | 0x14 => decodeAlu n
  | 0x15 => decodeAluW n
  | 0x16 => .ok (.addi (fld n 22 2) (fld n 7 15) (fld n 0 7))
  | 0x17 => .ok (.addiW (fld n 22 2) (fld n 7 15) (fld n 0 7))
  | 0x18 => .ok (.andi (fld n 22 2) (fld n 7 15) (fld n 0 7))
  | 0x19 => .ok (.ori (fld n 22 2) (fld n 7 15) (fld n 0 7))
  | 0x1a => .ok (.xori (fld n 22 2) (fld n 7 15) (fld n 0 7))
  | 0x1b => if n / 2^14 % 2^8 = 0x0 then .ok (.shli (fld n 22 2) (fld n 13 1) (fld n 7 6) (fld n 0 7)) else .error .reservedField
  | 0x1c => if n / 2^14 % 2^8 = 0x0 then .ok (.shri (fld n 22 2) (fld n 13 1) (fld n 7 6) (fld n 0 7)) else .error .reservedField
  | 0x1d => if n / 2^14 % 2^8 = 0x0 then .ok (.sari (fld n 22 2) (fld n 13 1) (fld n 7 6) (fld n 0 7)) else .error .reservedField
  | 0x1e => if n / 2^14 % 2^8 = 0x0 then .ok (.roli (fld n 22 2) (fld n 13 1) (fld n 7 6) (fld n 0 7)) else .error .reservedField
  | 0x1f => if n / 2^14 % 2^8 = 0x0 then .ok (.rori (fld n 22 2) (fld n 13 1) (fld n 7 6) (fld n 0 7)) else .error .reservedField
  | 0x20 => decodeTest n
  | 0x21 => .ok (.teqi (fld n 22 2) (fld n 7 15) (fld n 0 7))
  | 0x22 => .ok (.tnei (fld n 22 2) (fld n 7 15) (fld n 0 7))
  | 0x23 => .ok (.tlti (fld n 22 2) (fld n 7 15) (fld n 0 7))
  | 0x24 => .ok (.tlei (fld n 22 2) (fld n 7 15) (fld n 0 7))
  | 0x25 => .ok (.tltui (fld n 22 2) (fld n 7 15) (fld n 0 7))
  | 0x26 => .ok (.tleui (fld n 22 2) (fld n 7 15) (fld n 0 7))
  | 0x27 => if n / 2^22 % 2^2 = 0x0 then .ok (.lop3 (fld n 14 8) (fld n 7 7) (fld n 0 7)) else .error .reservedField
  | 0x28 => if n / 2^15 % 2^9 = 0x0 then .ok (.fshl (fld n 14 1) (fld n 7 7) (fld n 0 7)) else .error .reservedField
  | 0x29 => if n / 2^15 % 2^9 = 0x0 then .ok (.fshr (fld n 14 1) (fld n 7 7) (fld n 0 7)) else .error .reservedField
  | 0x2a => if n / 2^20 % 2^2 = 0x0 then .ok (.extb (fld n 22 2) (fld n 19 1) (fld n 13 6) (fld n 7 6) (fld n 0 7)) else .error .reservedField
  | 0x2b => if n / 2^14 % 2^10 = 0x0 then .ok (.insb (fld n 7 7) (fld n 0 7)) else .error .reservedField
  | 0x2c => if n / 2^21 % 2^1 = 0x0 then .ok (.appc (fld n 22 2) (fld n 7 14) (fld n 0 7)) else .error .reservedField
  | 0x30 => decodeFp n
  | 0x31 => if n / 2^14 % 2^5 = 0x0 ∧ n / 2^22 % 2^2 = 0x0 then .ok (.ffma (fld n 19 3) (fld n 7 7) (fld n 0 7)) else .error .reservedField
  | 0x32 => decodeCvt n
  | 0x33 => .ok (.cvtq8 (fld n 22 2) (fld n 19 3) (fld n 17 2) (fld n 14 3) (fld n 7 7) (fld n 0 7))
  | 0x34 => .ok (.cvtq6 (fld n 22 2) (fld n 19 3) (fld n 17 2) (fld n 14 3) (fld n 7 7) (fld n 0 7))
  | 0x35 => .ok (.cvtq4 (fld n 22 2) (fld n 19 3) (fld n 17 2) (fld n 14 3) (fld n 7 7) (fld n 0 7))
  | 0x36 => if n % 2^14 = 0x3fff then .ok (.srseed (fld n 22 2) (fld n 20 2) (fld n 14 6)) else .error (.illegalTarget (.srseed (fld n 22 2) (fld n 20 2) (fld n 14 6)))
  | 0x37 => if n / 2^14 % 2^4 = 0x0 then .ok (.bscale (fld n 22 2) (fld n 18 4) (fld n 7 7) (fld n 0 7)) else .error .reservedField
  | 0x38 => .ok (.qblk (fld n 22 2) (fld n 18 4) (fld n 16 2) (fld n 14 2) (fld n 7 7) (fld n 0 7))
  | 0x39 => if n / 2^14 % 2^4 = 0x0 then .ok (.dqblk (fld n 22 2) (fld n 18 4) (fld n 7 7) (fld n 0 7)) else .error .reservedField
  | 0x3a => if n / 2^16 % 2^6 = 0x0 then .ok (.lutld (fld n 22 2) (fld n 14 2) (fld n 7 7) (fld n 0 7)) else .error .reservedField
  | 0x3b => if n / 2^16 % 2^6 = 0x0 then .ok (.lutenc (fld n 22 2) (fld n 14 2) (fld n 7 7) (fld n 0 7)) else .error .reservedField
  | 0x40 => if n / 2^17 % 2^4 = 0x0 then .ok (.ldB (fld n 22 2) (fld n 21 1) (fld n 7 10) (fld n 0 7)) else .error .reservedField
  | 0x41 => if n / 2^17 % 2^4 = 0x0 then .ok (.ldH (fld n 22 2) (fld n 21 1) (fld n 7 10) (fld n 0 7)) else .error .reservedField
  | 0x42 => if n / 2^17 % 2^4 = 0x0 then .ok (.ldW (fld n 22 2) (fld n 21 1) (fld n 7 10) (fld n 0 7)) else .error .reservedField
  | 0x43 => if n / 2^17 % 2^4 = 0x0 then .ok (.ldD (fld n 22 2) (fld n 21 1) (fld n 7 10) (fld n 0 7)) else .error .reservedField
  | 0x44 => if n / 2^17 % 2^4 = 0x0 then .ok (.ldBSx (fld n 22 2) (fld n 21 1) (fld n 7 10) (fld n 0 7)) else .error .reservedField
  | 0x45 => if n / 2^17 % 2^4 = 0x0 then .ok (.ldHSx (fld n 22 2) (fld n 21 1) (fld n 7 10) (fld n 0 7)) else .error .reservedField
  | 0x46 => if n / 2^17 % 2^4 = 0x0 then .ok (.ldWSx (fld n 22 2) (fld n 21 1) (fld n 7 10) (fld n 0 7)) else .error .reservedField
  | 0x47 => .ok (.stB (fld n 22 2) (fld n 21 1) (fld n 17 4) (fld n 7 10) (fld n 0 7))
  | 0x48 => .ok (.stH (fld n 22 2) (fld n 21 1) (fld n 17 4) (fld n 7 10) (fld n 0 7))
  | 0x49 => .ok (.stW (fld n 22 2) (fld n 21 1) (fld n 17 4) (fld n 7 10) (fld n 0 7))
  | 0x4a => .ok (.stD (fld n 22 2) (fld n 21 1) (fld n 17 4) (fld n 7 10) (fld n 0 7))
  | 0x4b => if n / 2^17 % 2^4 = 0x0 then .ok (.ldo (fld n 22 2) (fld n 21 1) (fld n 7 10) (fld n 0 7)) else .error .reservedField
  | 0x4c => .ok (.sto (fld n 22 2) (fld n 21 1) (fld n 17 4) (fld n 7 10) (fld n 0 7))
  | 0x4d => .ok (.clro (fld n 22 2) (fld n 21 1) (fld n 17 4) (fld n 7 10) (fld n 0 7))
  | 0x4e => if n / 2^17 % 2^4 = 0x0 then .ok (.scld (fld n 22 2) (fld n 21 1) (fld n 7 10) (fld n 0 7)) else .error .reservedField
  | 0x4f => .ok (.scst (fld n 22 2) (fld n 21 1) (fld n 17 4) (fld n 7 10) (fld n 0 7))
  | 0x50 => if n / 2^7 % 2^5 = 0x0 then .ok (.atom (fld n 22 2) (fld n 21 1) (fld n 17 4) (fld n 13 4) (fld n 12 1) (fld n 0 7)) else .error .reservedField
  | 0x51 => if n / 2^7 % 2^5 = 0x0 then .ok (.atomn (fld n 22 2) (fld n 21 1) (fld n 17 4) (fld n 13 4) (fld n 12 1) (fld n 0 7)) else .error .reservedField
  | 0x52 => if n / 2^7 % 2^5 = 0x0 ∧ n / 2^13 % 2^4 = 0x0 ∧ n / 2^21 % 2^3 = 0x0 then .ok (.cas (fld n 17 4) (fld n 12 1) (fld n 0 7)) else .error .reservedField
  | 0x53 => if n / 2^14 % 2^8 = 0x0 then .ok (.join2 (fld n 22 2) (fld n 7 7) (fld n 0 7)) else .error .reservedField
  | 0x54 => if n / 2^14 % 2^10 = 0x0 then .ok (.join3 (fld n 7 7) (fld n 0 7)) else .error .reservedField
  | 0x55 => if n / 2^10 % 2^12 = 0x0 then .ok (.fence (fld n 22 2) (fld n 7 3) (fld n 0 7)) else .error .reservedField
  | 0x56 => if n / 2^14 % 2^3 = 0x0 then .ok (.send (fld n 22 2) (fld n 21 1) (fld n 17 4) (fld n 11 3) (fld n 10 1) (fld n 7 3) (fld n 0 7)) else .error .reservedField
  | 0x57 => if n / 2^14 % 2^3 = 0x0 then .ok (.sendr (fld n 22 2) (fld n 21 1) (fld n 17 4) (fld n 11 3) (fld n 10 1) (fld n 7 3) (fld n 0 7)) else .error .reservedField
  | 0x58 => if n / 2^12 % 2^5 = 0x0 then .ok (.sendm (fld n 22 2) (fld n 21 1) (fld n 17 4) (fld n 10 2) (fld n 7 3) (fld n 0 7)) else .error .reservedField
  | 0x59 => if n / 2^10 % 2^7 = 0x0 then .ok (.eos (fld n 22 2) (fld n 21 1) (fld n 17 4) (fld n 7 3) (fld n 0 7)) else .error .reservedField
  | 0x5a => if n / 2^7 % 2^15 = 0x0 then .ok (.taga (fld n 22 2) (fld n 0 7)) else .error .reservedField
  | 0x5b => if n / 2^7 % 2^15 = 0x0 then if n % 2^7 = 0x7f then .ok (.tagr (fld n 22 2)) else .error (.illegalTarget (.tagr (fld n 22 2))) else .error .reservedField
  | 0x5c => if n / 2^13 % 2^9 = 0x0 then if n % 2^7 = 0x7f then .ok (.tblk (fld n 22 2) (fld n 7 6)) else .error (.illegalTarget (.tblk (fld n 22 2) (fld n 7 6))) else .error .reservedField
  | 0x5d => if n / 2^13 % 2^9 = 0x0 then if n % 2^7 = 0x7f then .ok (.tunb (fld n 22 2) (fld n 7 6)) else .error (.illegalTarget (.tunb (fld n 22 2) (fld n 7 6))) else .error .reservedField
  | 0x5e => decodeBar n
  | 0x60 => if n / 2^18 % 2^4 = 0x0 then if n % 2^7 = 0x7f then .ok (.mwin (fld n 22 2) (fld n 7 11)) else .error (.illegalTarget (.mwin (fld n 22 2) (fld n 7 11))) else .error .reservedField
  | 0x61 => if n / 2^7 % 2^15 = 0x0 then if n % 2^7 = 0x7f then .ok (.mwend (fld n 22 2)) else .error (.illegalTarget (.mwend (fld n 22 2))) else .error .reservedField
  | 0x62 => if n / 2^7 % 2^15 = 0x0 then if n % 2^7 = 0x7f then .ok (.seal (fld n 22 2)) else .error (.illegalTarget (.seal (fld n 22 2))) else .error .reservedField
  | 0x63 => if n / 2^7 % 2^15 = 0x0 then .ok (.sealw (fld n 22 2) (fld n 0 7)) else .error .reservedField
  | 0x64 => .ok (.irst (fld n 22 2) (fld n 21 1) (fld n 17 4) (fld n 7 10) (fld n 0 7))
  | 0x65 => if n / 2^16 % 2^6 = 0x0 then .ok (.rld (fld n 22 2) (fld n 14 2) (fld n 7 7) (fld n 0 7)) else .error .reservedField
  | 0x66 => if n / 2^16 % 2^6 = 0x0 then .ok (.rgo (fld n 22 2) (fld n 14 2) (fld n 7 7) (fld n 0 7)) else .error .reservedField
  | 0x67 => if n / 2^16 % 2^6 = 0x0 then .ok (.rstop (fld n 22 2) (fld n 14 2) (fld n 7 7) (fld n 0 7)) else .error .reservedField
  | 0x68 => if n / 2^17 % 2^5 = 0x0 then .ok (.rdrain (fld n 22 2) (fld n 16 1) (fld n 14 2) (fld n 7 7) (fld n 0 7)) else .error .reservedField
  | 0x69 => if n / 2^17 % 2^5 = 0x0 then .ok (.rstat (fld n 22 2) (fld n 16 1) (fld n 14 2) (fld n 7 7) (fld n 0 7)) else .error .reservedField
  | 0x6a => .ok (.mma (fld n 22 2) (fld n 18 4) (fld n 14 4) (fld n 7 7) (fld n 0 7))
  | 0x6b => .ok (.mmas (fld n 22 2) (fld n 18 4) (fld n 14 4) (fld n 7 7) (fld n 0 7))
  | 0x6c => decodeMx n
  | 0x6d => if n / 2^16 % 2^6 = 0x0 then .ok (.mlda (fld n 22 2) (fld n 14 2) (fld n 7 7) (fld n 0 7)) else .error .reservedField
  | 0x6e => .ok (.mdrain (fld n 22 2) (fld n 18 4) (fld n 16 2) (fld n 14 2) (fld n 7 7) (fld n 0 7))
  | 0x70 => if n / 2^19 % 2^3 = 0x0 then .ok (.apdef (fld n 22 2) (fld n 14 5) (fld n 7 7) (fld n 0 7)) else .error .reservedField
  | 0x71 => decodeStrm n
  | 0x72 => .ok (.sbar (fld n 22 2) (fld n 14 8) (fld n 7 7) (fld n 0 7))
  | 0x73 => if n / 2^21 % 2^1 = 0x0 then .ok (.bcopy (fld n 22 2) (fld n 20 1) (fld n 14 6) (fld n 7 7) (fld n 0 7)) else .error .reservedField
  | 0x74 => if n / 2^21 % 2^1 = 0x0 then .ok (.bcopyh (fld n 22 2) (fld n 20 1) (fld n 14 6) (fld n 7 7) (fld n 0 7)) else .error .reservedField
  | 0x75 => if n / 2^18 % 2^4 = 0x0 then .ok (.agcfg (fld n 22 2) (fld n 16 2) (fld n 14 2) (fld n 7 7) (fld n 0 7)) else .error .reservedField
  | 0x76 => if n / 2^18 % 2^4 = 0x0 then .ok (.aggo (fld n 22 2) (fld n 16 2) (fld n 14 2) (fld n 7 7) (fld n 0 7)) else .error .reservedField
  | 0x77 => if n / 2^17 % 2^5 = 0x0 then .ok (.coll (fld n 22 2) (fld n 14 3) (fld n 7 7) (fld n 0 7)) else .error .reservedField
  | 0x78 => decodeSys n
  | _ => .error .unassignedOpcode

/-- The instruction a 32-bit word holds. -/
def decode (w : Word32) : Except DecodeError Instr := decodeNat w.toNat

/-- The instruction the decoder reads from a table row's bits. An instruction is one 32-bit word (R28); a word of another length is none. -/
def decodeTableWord (nbits w : Nat) : Option Instr :=
  if nbits ≤ 32 then
    match decodeNat (w % 2^32) with
    | .ok i => some i
    | .error _ => none
  else none

/-- The word of an instruction as a number; none for a step that is no instruction word. -/
def encodeNat (i : Instr) : Option Nat :=
  match i with
  | .bro p e s => some (enc_23_22_21_19_18_0 0x01000000 p e s)
  | .brr p e => some (enc_23_22_21_19 0x02000000 p e)
  | .callo p e s => some (enc_23_22_21_19_18_0 0x03000000 p e s)
  | .callr p e => some (enc_23_22_21_19 0x04000000 p e)
  | .ret p e => some (enc_23_22_21_19 0x05000000 p e)
  | .hend p e => some (enc_23_22_21_19 0x06000000 p e)
  | .trapi p c => some (enc_23_22_18_7 0x0700007F p c)
  | .brk p c => some (enc_23_22_14_7 0x0800007F p c)
  | .nop p => some (enc_23_22 0x0900007F p)
  | .rstl p s => some (enc_23_22_18_0 0x0A000000 p s)
  | .mov p b a => some (enc_23_22_13_7_6_0 0x0B000000 p b a)
  | .movi i a => some (enc_23_7_6_0 0x0C000000 i a)
  | .genc p i a => some (enc_23_22_21_7_6_0 0x0D000000 p i a)
  | .read p r b a => some (enc_23_22_21_16_13_7_6_0 0x0E000000 p r b a)
  | .write p r => some (enc_23_22_21_16 0x0F000000 p r)
  | .mfs p s a => some (enc_23_22_14_7_6_0 0x10000000 p s a)
  | .mts p s => some (enc_23_22_14_7 0x1100007F p s)
  | .null p b a => some (enc_23_22_13_7_6_0 0x12000000 p b a)
  | .sel b a => some (enc_13_7_6_0 0x13000000 b a)
  | .add p b a => some (enc_23_22_13_7_6_0 0x14000000 p b a)
  | .sub p b a => some (enc_23_22_13_7_6_0 0x14004000 p b a)
  | .mul p b a => some (enc_23_22_13_7_6_0 0x14008000 p b a)
  | .mulhs p b a => some (enc_23_22_13_7_6_0 0x1400C000 p b a)
  | .mulhu p b a => some (enc_23_22_13_7_6_0 0x14010000 p b a)
  | .divs p b a => some (enc_23_22_13_7_6_0 0x14014000 p b a)
  | .divu p b a => some (enc_23_22_13_7_6_0 0x14018000 p b a)
  | .rems p b a => some (enc_23_22_13_7_6_0 0x1401C000 p b a)
  | .remu p b a => some (enc_23_22_13_7_6_0 0x14020000 p b a)
  | .min p b a => some (enc_23_22_13_7_6_0 0x14024000 p b a)
  | .max p b a => some (enc_23_22_13_7_6_0 0x14028000 p b a)
  | .minu p b a => some (enc_23_22_13_7_6_0 0x1402C000 p b a)
  | .maxu p b a => some (enc_23_22_13_7_6_0 0x14030000 p b a)
  | .and p b a => some (enc_23_22_13_7_6_0 0x14040000 p b a)
  | .or p b a => some (enc_23_22_13_7_6_0 0x14044000 p b a)
  | .xor p b a => some (enc_23_22_13_7_6_0 0x14048000 p b a)
  | .andn p b a => some (enc_23_22_13_7_6_0 0x1404C000 p b a)
  | .orn p b a => some (enc_23_22_13_7_6_0 0x14050000 p b a)
  | .xnor p b a => some (enc_23_22_13_7_6_0 0x14054000 p b a)
  | .shl p b a => some (enc_23_22_13_7_6_0 0x14060000 p b a)
  | .shr p b a => some (enc_23_22_13_7_6_0 0x14064000 p b a)
  | .sar p b a => some (enc_23_22_13_7_6_0 0x14068000 p b a)
  | .rol p b a => some (enc_23_22_13_7_6_0 0x1406C000 p b a)
  | .ror p b a => some (enc_23_22_13_7_6_0 0x14070000 p b a)
  | .abs p b a => some (enc_23_22_13_7_6_0 0x14080000 p b a)
  | .clz p b a => some (enc_23_22_13_7_6_0 0x14084000 p b a)
  | .ctz p b a => some (enc_23_22_13_7_6_0 0x14088000 p b a)
  | .popc p b a => some (enc_23_22_13_7_6_0 0x1408C000 p b a)
  | .brev p b a => some (enc_23_22_13_7_6_0 0x14090000 p b a)
  | .bswap p b a => some (enc_23_22_13_7_6_0 0x14094000 p b a)
  | .sextB p b a => some (enc_23_22_13_7_6_0 0x14098000 p b a)
  | .sextH p b a => some (enc_23_22_13_7_6_0 0x1409C000 p b a)
  | .sextW p b a => some (enc_23_22_13_7_6_0 0x140A0000 p b a)
  | .zextB p b a => some (enc_23_22_13_7_6_0 0x140A4000 p b a)
  | .zextH p b a => some (enc_23_22_13_7_6_0 0x140A8000 p b a)
  | .zextW p b a => some (enc_23_22_13_7_6_0 0x140AC000 p b a)
  | .addW p b a => some (enc_23_22_13_7_6_0 0x15000000 p b a)
  | .subW p b a => some (enc_23_22_13_7_6_0 0x15004000 p b a)
  | .mulW p b a => some (enc_23_22_13_7_6_0 0x15008000 p b a)
  | .mulhsW p b a => some (enc_23_22_13_7_6_0 0x1500C000 p b a)
  | .mulhuW p b a => some (enc_23_22_13_7_6_0 0x15010000 p b a)
  | .divsW p b a => some (enc_23_22_13_7_6_0 0x15014000 p b a)
  | .divuW p b a => some (enc_23_22_13_7_6_0 0x15018000 p b a)
  | .remsW p b a => some (enc_23_22_13_7_6_0 0x1501C000 p b a)
  | .remuW p b a => some (enc_23_22_13_7_6_0 0x15020000 p b a)
  | .minW p b a => some (enc_23_22_13_7_6_0 0x15024000 p b a)
  | .maxW p b a => some (enc_23_22_13_7_6_0 0x15028000 p b a)
  | .minuW p b a => some (enc_23_22_13_7_6_0 0x1502C000 p b a)
  | .maxuW p b a => some (enc_23_22_13_7_6_0 0x15030000 p b a)
  | .andW p b a => some (enc_23_22_13_7_6_0 0x15040000 p b a)
  | .orW p b a => some (enc_23_22_13_7_6_0 0x15044000 p b a)
  | .xorW p b a => some (enc_23_22_13_7_6_0 0x15048000 p b a)
  | .andnW p b a => some (enc_23_22_13_7_6_0 0x1504C000 p b a)
  | .ornW p b a => some (enc_23_22_13_7_6_0 0x15050000 p b a)
  | .xnorW p b a => some (enc_23_22_13_7_6_0 0x15054000 p b a)
  | .shlW p b a => some (enc_23_22_13_7_6_0 0x15060000 p b a)
  | .shrW p b a => some (enc_23_22_13_7_6_0 0x15064000 p b a)
  | .sarW p b a => some (enc_23_22_13_7_6_0 0x15068000 p b a)
  | .rolW p b a => some (enc_23_22_13_7_6_0 0x1506C000 p b a)
  | .rorW p b a => some (enc_23_22_13_7_6_0 0x15070000 p b a)
  | .absW p b a => some (enc_23_22_13_7_6_0 0x15080000 p b a)
  | .clzW p b a => some (enc_23_22_13_7_6_0 0x15084000 p b a)
  | .ctzW p b a => some (enc_23_22_13_7_6_0 0x15088000 p b a)
  | .popcW p b a => some (enc_23_22_13_7_6_0 0x1508C000 p b a)
  | .brevW p b a => some (enc_23_22_13_7_6_0 0x15090000 p b a)
  | .bswapW p b a => some (enc_23_22_13_7_6_0 0x15094000 p b a)
  | .addi p i a => some (enc_23_22_21_7_6_0 0x16000000 p i a)
  | .addiW p i a => some (enc_23_22_21_7_6_0 0x17000000 p i a)
  | .andi p i a => some (enc_23_22_21_7_6_0 0x18000000 p i a)
  | .ori p i a => some (enc_23_22_21_7_6_0 0x19000000 p i a)
  | .xori p i a => some (enc_23_22_21_7_6_0 0x1A000000 p i a)
  | .shli p w n a => some (enc_23_22_13_13_12_7_6_0 0x1B000000 p w n a)
  | .shri p w n a => some (enc_23_22_13_13_12_7_6_0 0x1C000000 p w n a)
  | .sari p w n a => some (enc_23_22_13_13_12_7_6_0 0x1D000000 p w n a)
  | .roli p w n a => some (enc_23_22_13_13_12_7_6_0 0x1E000000 p w n a)
  | .rori p w n a => some (enc_23_22_13_13_12_7_6_0 0x1F000000 p w n a)
  | .teq p w b a => some (enc_23_22_21_21_13_7_6_0 0x20000000 p w b a)
  | .tne p w b a => some (enc_23_22_21_21_13_7_6_0 0x20004000 p w b a)
  | .tlt p w b a => some (enc_23_22_21_21_13_7_6_0 0x20008000 p w b a)
  | .tle p w b a => some (enc_23_22_21_21_13_7_6_0 0x2000C000 p w b a)
  | .tltu p w b a => some (enc_23_22_21_21_13_7_6_0 0x20010000 p w b a)
  | .tleu p w b a => some (enc_23_22_21_21_13_7_6_0 0x20014000 p w b a)
  | .teqi p i a => some (enc_23_22_21_7_6_0 0x21000000 p i a)
  | .tnei p i a => some (enc_23_22_21_7_6_0 0x22000000 p i a)
  | .tlti p i a => some (enc_23_22_21_7_6_0 0x23000000 p i a)
  | .tlei p i a => some (enc_23_22_21_7_6_0 0x24000000 p i a)
  | .tltui p i a => some (enc_23_22_21_7_6_0 0x25000000 p i a)
  | .tleui p i a => some (enc_23_22_21_7_6_0 0x26000000 p i a)
  | .lop3 t b a => some (enc_21_14_13_7_6_0 0x27000000 t b a)
  | .fshl w b a => some (enc_14_14_13_7_6_0 0x28000000 w b a)
  | .fshr w b a => some (enc_14_14_13_7_6_0 0x29000000 w b a)
  | .extb p x w o a => some (enc_23_22_19_19_18_13_12_7_6_0 0x2A000000 p x w o a)
  | .insb b a => some (enc_13_7_6_0 0x2B000000 b a)
  | .appc p i a => some (enc_23_22_20_7_6_0 0x2C000000 p i a)
  | .fadd p m b a => some (enc_23_22_21_19_13_7_6_0 0x30000000 p m b a)
  | .fsub p m b a => some (enc_23_22_21_19_13_7_6_0 0x30004000 p m b a)
  | .fmul p m b a => some (enc_23_22_21_19_13_7_6_0 0x30008000 p m b a)
  | .fdiv p m b a => some (enc_23_22_21_19_13_7_6_0 0x3000C000 p m b a)
  | .fsqrt p m b a => some (enc_23_22_21_19_13_7_6_0 0x30010000 p m b a)
  | .fmin p b a => some (enc_23_22_13_7_6_0 0x30014000 p b a)
  | .fmax p b a => some (enc_23_22_13_7_6_0 0x30018000 p b a)
  | .fabs p b a => some (enc_23_22_13_7_6_0 0x3001C000 p b a)
  | .fneg p b a => some (enc_23_22_13_7_6_0 0x30020000 p b a)
  | .fteq p b a => some (enc_23_22_13_7_6_0 0x30024000 p b a)
  | .ftlt p b a => some (enc_23_22_13_7_6_0 0x30028000 p b a)
  | .ftle p b a => some (enc_23_22_13_7_6_0 0x3002C000 p b a)
  | .ftun p b a => some (enc_23_22_13_7_6_0 0x30030000 p b a)
  | .fclass p b a => some (enc_23_22_13_7_6_0 0x30034000 p b a)
  | .frnd p m b a => some (enc_23_22_21_19_13_7_6_0 0x30038000 p m b a)
  | .fexp2 p m b a => some (enc_23_22_21_19_13_7_6_0 0x3003C000 p m b a)
  | .flog2 p m b a => some (enc_23_22_21_19_13_7_6_0 0x30040000 p m b a)
  | .ffma m b a => some (enc_21_19_13_7_6_0 0x31000000 m b a)
  | .cvtfiW p m b a => some (enc_23_22_21_19_13_7_6_0 0x32000000 p m b a)
  | .cvtfiWU p m b a => some (enc_23_22_21_19_13_7_6_0 0x32004000 p m b a)
  | .cvtfiD p m b a => some (enc_23_22_21_19_13_7_6_0 0x32008000 p m b a)
  | .cvtfiDU p m b a => some (enc_23_22_21_19_13_7_6_0 0x3200C000 p m b a)
  | .cvtifW p m b a => some (enc_23_22_21_19_13_7_6_0 0x32010000 p m b a)
  | .cvtifWU p m b a => some (enc_23_22_21_19_13_7_6_0 0x32014000 p m b a)
  | .cvtifD p m b a => some (enc_23_22_21_19_13_7_6_0 0x32018000 p m b a)
  | .cvtifDU p m b a => some (enc_23_22_21_19_13_7_6_0 0x3201C000 p m b a)
  | .cvtffH p m b a => some (enc_23_22_21_19_13_7_6_0 0x32020000 p m b a)
  | .cvtffBf p m b a => some (enc_23_22_21_19_13_7_6_0 0x32024000 p m b a)
  | .cvtffFH p b a => some (enc_23_22_13_7_6_0 0x32028000 p b a)
  | .cvtffFBf p b a => some (enc_23_22_13_7_6_0 0x3202C000 p b a)
  | .cvtd p f b a => some (enc_23_22_17_14_13_7_6_0 0x32040000 p f b a)
  | .cvtq8 p m d t b a => some (enc_23_22_21_19_18_17_16_14_13_7_6_0 0x33000000 p m d t b a)
  | .cvtq6 p m d t b a => some (enc_23_22_21_19_18_17_16_14_13_7_6_0 0x34000000 p m d t b a)
  | .cvtq4 p m d t b a => some (enc_23_22_21_19_18_17_16_14_13_7_6_0 0x35000000 p m d t b a)
  | .srseed p d l => some (enc_23_22_21_20_19_14 0x36003FFF p d l)
  | .bscale p f b a => some (enc_23_22_21_18_13_7_6_0 0x37000000 p f b a)
  | .qblk p f d m b a => some (enc_23_22_21_18_17_16_15_14_13_7_6_0 0x38000000 p f d m b a)
  | .dqblk p f b a => some (enc_23_22_21_18_13_7_6_0 0x39000000 p f b a)
  | .lutld p t b a => some (enc_23_22_15_14_13_7_6_0 0x3A000000 p t b a)
  | .lutenc p t b a => some (enc_23_22_15_14_13_7_6_0 0x3B000000 p t b a)
  | .ldB p w o a => some (enc_23_22_21_21_16_7_6_0 0x40000000 p w o a)
  | .ldH p w o a => some (enc_23_22_21_21_16_7_6_0 0x41000000 p w o a)
  | .ldW p w o a => some (enc_23_22_21_21_16_7_6_0 0x42000000 p w o a)
  | .ldD p w o a => some (enc_23_22_21_21_16_7_6_0 0x43000000 p w o a)
  | .ldBSx p w o a => some (enc_23_22_21_21_16_7_6_0 0x44000000 p w o a)
  | .ldHSx p w o a => some (enc_23_22_21_21_16_7_6_0 0x45000000 p w o a)
  | .ldWSx p w o a => some (enc_23_22_21_21_16_7_6_0 0x46000000 p w o a)
  | .stB p w l o a => some (enc_23_22_21_21_20_17_16_7_6_0 0x47000000 p w l o a)
  | .stH p w l o a => some (enc_23_22_21_21_20_17_16_7_6_0 0x48000000 p w l o a)
  | .stW p w l o a => some (enc_23_22_21_21_20_17_16_7_6_0 0x49000000 p w l o a)
  | .stD p w l o a => some (enc_23_22_21_21_20_17_16_7_6_0 0x4A000000 p w l o a)
  | .ldo p w o a => some (enc_23_22_21_21_16_7_6_0 0x4B000000 p w o a)
  | .sto p w l o a => some (enc_23_22_21_21_20_17_16_7_6_0 0x4C000000 p w l o a)
  | .clro p w l n a => some (enc_23_22_21_21_20_17_16_7_6_0 0x4D000000 p w l n a)
  | .scld p w o a => some (enc_23_22_21_21_16_7_6_0 0x4E000000 p w o a)
  | .scst p w l o a => some (enc_23_22_21_21_20_17_16_7_6_0 0x4F000000 p w l o a)
  | .atom p w l o d a => some (enc_23_22_21_21_20_17_16_13_12_12_6_0 0x50000000 p w l o d a)
  | .atomn p w l o d a => some (enc_23_22_21_21_20_17_16_13_12_12_6_0 0x51000000 p w l o d a)
  | .cas l d a => some (enc_20_17_12_12_6_0 0x52000000 l d a)
  | .join2 p b a => some (enc_23_22_13_7_6_0 0x53000000 p b a)
  | .join3 b a => some (enc_13_7_6_0 0x54000000 b a)
  | .fence p s a => some (enc_23_22_9_7_6_0 0x55000000 p s a)
  | .send p w l s t k a => some (enc_23_22_21_21_20_17_13_11_10_10_9_7_6_0 0x56000000 p w l s t k a)
  | .sendr p w l s t k a => some (enc_23_22_21_21_20_17_13_11_10_10_9_7_6_0 0x57000000 p w l s t k a)
  | .sendm p w l n k a => some (enc_23_22_21_21_20_17_11_10_9_7_6_0 0x58000000 p w l n k a)
  | .eos p w l k a => some (enc_23_22_21_21_20_17_9_7_6_0 0x59000000 p w l k a)
  | .taga p a => some (enc_23_22_6_0 0x5A000000 p a)
  | .tagr p => some (enc_23_22 0x5B00007F p)
  | .tblk p c => some (enc_23_22_12_7 0x5C00007F p c)
  | .tunb p c => some (enc_23_22_12_7 0x5D00007F p c)
  | .bari p n b a => some (enc_23_22_19_14_13_7_6_0 0x5E000000 p n b a)
  | .bara p n b a => some (enc_23_22_19_14_13_7_6_0 0x5E100000 p n b a)
  | .barx p n b a => some (enc_23_22_19_14_13_7_6_0 0x5E200000 p n b a)
  | .mwin p l => some (enc_23_22_17_7 0x6000007F p l)
  | .mwend p => some (enc_23_22 0x6100007F p)
  | .seal p => some (enc_23_22 0x6200007F p)
  | .sealw p a => some (enc_23_22_6_0 0x63000000 p a)
  | .irst p w l o a => some (enc_23_22_21_21_20_17_16_7_6_0 0x64000000 p w l o a)
  | .rld p q b a => some (enc_23_22_15_14_13_7_6_0 0x65000000 p q b a)
  | .rgo p q b a => some (enc_23_22_15_14_13_7_6_0 0x66000000 p q b a)
  | .rstop p q b a => some (enc_23_22_15_14_13_7_6_0 0x67000000 p q b a)
  | .rdrain p x q b a => some (enc_23_22_16_16_15_14_13_7_6_0 0x68000000 p x q b a)
  | .rstat p c q b a => some (enc_23_22_16_16_15_14_13_7_6_0 0x69000000 p c q b a)
  | .mma p f g b a => some (enc_23_22_21_18_17_14_13_7_6_0 0x6A000000 p f g b a)
  | .mmas p f g b a => some (enc_23_22_21_18_17_14_13_7_6_0 0x6B000000 p f g b a)
  | .mclr p k b a => some (enc_23_22_15_14_13_7_6_0 0x6C000000 p k b a)
  | .mattr p x k b a => some (enc_23_22_16_16_15_14_13_7_6_0 0x6C040000 p x k b a)
  | .mfade p k b a => some (enc_23_22_15_14_13_7_6_0 0x6C080000 p k b a)
  | .mstat p b a => some (enc_23_22_13_7_6_0 0x6C0C0000 p b a)
  | .lutsel p k b a => some (enc_23_22_15_14_13_7_6_0 0x6C100000 p k b a)
  | .mlda p k b a => some (enc_23_22_15_14_13_7_6_0 0x6D000000 p k b a)
  | .mdrain p f k m b a => some (enc_23_22_21_18_17_16_15_14_13_7_6_0 0x6E000000 p f k m b a)
  | .apdef p i b a => some (enc_23_22_18_14_13_7_6_0 0x70000000 p i b a)
  | .strmIn p n b a => some (enc_23_22_16_14_13_7_6_0 0x71000000 p n b a)
  | .strmOut p n b a => some (enc_23_22_16_14_13_7_6_0 0x71020000 p n b a)
  | .sbar p m b a => some (enc_23_22_21_14_13_7_6_0 0x72000000 p m b a)
  | .bcopy p s n b a => some (enc_23_22_20_20_19_14_13_7_6_0 0x73000000 p s n b a)
  | .bcopyh p s n b a => some (enc_23_22_20_20_19_14_13_7_6_0 0x74000000 p s n b a)
  | .agcfg p s w b a => some (enc_23_22_17_16_15_14_13_7_6_0 0x75000000 p s w b a)
  | .aggo p g w b a => some (enc_23_22_17_16_15_14_13_7_6_0 0x76000000 p g w b a)
  | .coll p k b a => some (enc_23_22_16_14_13_7_6_0 0x77000000 p k b a)
  | .trap p => some (enc_23_22 0x78003FFF p)
  | .eres p b a => some (enc_23_22_13_7_6_0 0x78004000 p b a)
  | .ekill p b a => some (enc_23_22_13_7_6_0 0x78008000 p b a)
  | .mfsp p b a => some (enc_23_22_13_7_6_0 0x7800C000 p b a)
  | .mtsp p => some (enc_23_22 0x78013FFF p)
  | .halt p => some (enc_23_22 0x78017FFF p)
  | .dbg p => some (enc_23_22 0x7801BFFF p)
  | .wdog p => some (enc_23_22 0x7801FFFF p)
  | .ecnt p b a => some (enc_23_22_13_7_6_0 0x78020000 p b a)
  | .telm p => some (enc_23_22 0x78027FFF p)
  | .cswp p => some (enc_23_22 0x7802BFFF p)
  | .xflush p b a => some (enc_23_22_13_7_6_0 0x7802C000 p b a)
  | .blockFetchDone => none
  | .fetchFrame => none
  | .resultDelivery => none
  | .blockCommit => none
  | .commitWaitRelease => none
  | .blockDead => none
  | .mwinOverrun => none
  | .watchdog => none
  | .dispatchDecision => none
  | .tokenArrival => none
  | .tagReturnToken => none
  | .legacyAck => none
  | .creditReturn => none
  | .trapCreditRequest => none
  | .trapTokenSend => none
  | .trapAnswerArrival => none
  | .loadReply => none
  | .atomicApply => none
  | .atomicReply => none
  | .mTileRequest => none
  | .heldAccessRelease => none
  | .stoApply => none
  | .clroApply => none
  | .agcfgApply => none
  | .postCommitReport => none
  | .scRingToken => none
  | .scstAcknowledge => none
  | .barrierLineComplete => none
  | .haltArrival => none
  | .rowArrayCycle => none
  | .rowRound => none
  | .rowSlotCompletion => none
  | .rowStall => none
  | .matrixOpBegin => none
  | .matrixOpEnd => none
  | .mmasStagingStart => none
  | .ballastPass => none
  | .strmBindingEnd => none
  | .streamErrorReply => none
  | .barrierObjectUpdate => none
  | .aggoDone => none
  | .xflushDone => none
  | .collTokenArrival => none
  | .shoreRequest => none
  | .virtualRequestArrival => none
  | .translationWalkEnd => none
  | .timeBeacon => none
  | .beaconLoss => none
  | .phaseFinish => none
  | .phaseStarvedSave => none
  | .phasePick => none
  | .phaseConfigure => none
  | .minqExpiry => none
  | .preemptStart => none
  | .graceEnd => none
  | .contextSave => none
  | .resumption => none
  | .budgetPeriod => none
  | .rebalancerMove => none
  | .moveAbandon => none
  | .telemetryPeriod => none
  | .launchSlotMap => none
  | .launchSlotTimeout => none
  | .periodicWaveTimer => none
  | .waveStart => none
  | .actorAlign => none
  | .tileCut => none
  | .agentCut => none
  | .waveComplete => none
  | .sealPoint => none
  | .sealed => none
  | .retagSweepEnd => none
  | .uncorrectable => none
  | .rollback => none
  | .flitHop => none
  | .flitReceive => none
  | .ackReceive => none
  | .ackTimer => none
  | .resendTimeout => none
  | .linkDead => none
  | .siteDeath => none
  | .flip => none
  | .flipGraceEnd => none
  | .connectionCreate => none
  | .fjoithFrameReceive => none
  | .fjoithResendTimeout => none
  | .fjoithLaneLoss => none
  | .fjoithRetrainDone => none
  | .fjoithRetryTimer => none
  | .fjoithControlFlit => none
  | .mctpRequest => none
  | .partdefCreate => none
  | .partdefDelete => none
  | .qtailWrite => none
  | .qheadWrite => none
  | .spanWrite => none
  | .ptrootWrite => none
  | .invalPage => none
  | .invalAll => none
  | .fretryRetry => none
  | .fretryAbort => none
  | .esnonceWrite => none
  | .attnonceWrite => none
  | .keycmdLoad => none
  | .keycmdGen => none
  | .keycmdZero => none
  | .fwcmdLoad => none
  | .fwLoadDone => none
  | .fwcmdCommit => none
  | .sundoWrite => none
  | .registerWrite => none
  | .flr => none
  | .bringUp => none
  | .thermalTrip => none
  | .counterFlash => none
  | .auxPowerLoss => none
  | .engineBeat => none
  | .remoteTileRequest => none
  | .hostPortLinkDown => none
  | .hostPortLinkUp => none
  | .vfEnableWrite => none
  | .hostReadCompletion => none
  | .ecntRecordReady => none
  | .invalidationDone => none
  | .partitionDeleteDone => none

/-- The word of an instruction (R28). -/
def encode (i : Instr) : Option Word32 := (encodeNat i).map (BitVec.ofNat 32)

end Sys2Proof
end

