-- ==== Sys2Proof/Machine/Operands.lean ====
section
/-!
DEFINITION. The operand forms: for each instruction word its predicate field, data operands, ordering token, targets, latency and kind
(R27, R29, R30, R60, R61, R74, R97, R121, R164, R189, R208).
-/

namespace Sys2Proof.Machine

/-- What the window must know of an instruction before it fires. -/
structure Info where
  /-- The predicate field (R31); 0 where the form has none. -/
  pr : BitVec 2
  /-- Data operands (R30). -/
  nIn : Nat
  /-- The W bit gives the instruction an ordering token as third operand (R121). -/
  ord : Bool
  t0 : BitVec 7
  t1 : BitVec 7
  /-- Result latency in tile cycles (R61). -/
  lat : Nat
  /-- Takes one of the two memory places a cycle (R60). -/
  mem : Bool
  /-- The LSID of a store-class instruction (R27). -/
  lsid : Option (BitVec 4)
  /-- The exit number of an exit instruction (R27). -/
  exit : Option (BitVec 3)
  /-- Produces a value for its targets (R29). -/
  value : Bool
  deriving DecidableEq, Repr

/-- No target (R29). -/
def noT : BitVec 7 := 0x7F

/-- A value-producing form with two targets. -/
def infV (p : BitVec 2) (n : Nat) (b a : BitVec 7) (lat : Nat) : Info := ⟨p, n, false, a, b, lat, false, none, none, true⟩
/-- A memory-limited value form with two targets (R97, R164, R189). -/
def infM (p : BitVec 2) (n : Nat) (b a : BitVec 7) (lat : Nat) : Info := ⟨p, n, false, a, b, lat, true, none, none, true⟩
/-- A form that produces no value. -/
def infN (p : BitVec 2) (n : Nat) : Info := ⟨p, n, false, noT, noT, 1, false, none, none, false⟩
/-- An exit (R77). -/
def infX (p : BitVec 2) (n : Nat) (e : BitVec 3) : Info := ⟨p, n, false, noT, noT, 1, false, none, some e, false⟩
/-- A load (R125, R126, R135). -/
def infL (p : BitVec 2) (w : BitVec 1) (a : BitVec 7) : Info := ⟨p, 1, w == 1, a, noT, 4, true, none, none, true⟩
/-- A store-class form (R122, R129, R137). -/
def infS (p : BitVec 2) (n : Nat) (w : BitVec 1) (l : BitVec 4) (a : BitVec 7) : Info := ⟨p, n, w == 1, a, noT, 1, true, some l, none, true⟩

/-- The operand form of an instruction word; none for the other steps of the part. -/
def infoOf (i : Instr) : Option Info :=
  match i with
  | .bro p e _ => some (infX p 0 e)
  | .brr p e => some (infX p 1 e)
  | .callo p e _ => some (infX p 0 e)
  | .callr p e => some (infX p 1 e)
  | .ret p e => some (infX p 0 e)
  | .hend p e => some (infX p 0 e)
  | .trapi p _ => some (infN p 0)
  | .brk p _ => some (infN p 0)
  | .nop p => some (infN p 0)
  | .rstl p _ => some (infN p 0)
  | .mov p b a => some (infV p 1 b a 1)
  | .movi _ a => some (infV 0 0 noT a 1)
  | .genc p _ a => some (infV p 0 noT a 1)
  | .read p _ b a => some (infV p 0 b a 1)
  | .write p _ => some (infN p 1)
  | .mfs p _ a => some (infV p 0 noT a 1)
  | .mts p _ => some (infN p 1)
  | .null p b a => some (infV p 0 b a 1)
  | .sel b a => some (infV 0 3 b a 1)
  | .add p b a => some (infV p 2 b a 1)
  | .sub p b a => some (infV p 2 b a 1)
  | .mul p b a => some (infV p 2 b a 3)
  | .mulhs p b a => some (infV p 2 b a 3)
  | .mulhu p b a => some (infV p 2 b a 3)
  | .divs p b a => some (infV p 2 b a 36)
  | .divu p b a => some (infV p 2 b a 36)
  | .rems p b a => some (infV p 2 b a 36)
  | .remu p b a => some (infV p 2 b a 36)
  | .min p b a => some (infV p 2 b a 1)
  | .max p b a => some (infV p 2 b a 1)
  | .minu p b a => some (infV p 2 b a 1)
  | .maxu p b a => some (infV p 2 b a 1)
  | .and p b a => some (infV p 2 b a 1)
  | .or p b a => some (infV p 2 b a 1)
  | .xor p b a => some (infV p 2 b a 1)
  | .andn p b a => some (infV p 2 b a 1)
  | .orn p b a => some (infV p 2 b a 1)
  | .xnor p b a => some (infV p 2 b a 1)
  | .shl p b a => some (infV p 2 b a 1)
  | .shr p b a => some (infV p 2 b a 1)
  | .sar p b a => some (infV p 2 b a 1)
  | .rol p b a => some (infV p 2 b a 1)
  | .ror p b a => some (infV p 2 b a 1)
  | .abs p b a => some (infV p 1 b a 1)
  | .clz p b a => some (infV p 1 b a 2)
  | .ctz p b a => some (infV p 1 b a 2)
  | .popc p b a => some (infV p 1 b a 2)
  | .brev p b a => some (infV p 1 b a 1)
  | .bswap p b a => some (infV p 1 b a 1)
  | .sextB p b a => some (infV p 1 b a 1)
  | .sextH p b a => some (infV p 1 b a 1)
  | .sextW p b a => some (infV p 1 b a 1)
  | .zextB p b a => some (infV p 1 b a 1)
  | .zextH p b a => some (infV p 1 b a 1)
  | .zextW p b a => some (infV p 1 b a 1)
  | .addW p b a => some (infV p 2 b a 1)
  | .subW p b a => some (infV p 2 b a 1)
  | .mulW p b a => some (infV p 2 b a 3)
  | .mulhsW p b a => some (infV p 2 b a 3)
  | .mulhuW p b a => some (infV p 2 b a 3)
  | .divsW p b a => some (infV p 2 b a 20)
  | .divuW p b a => some (infV p 2 b a 20)
  | .remsW p b a => some (infV p 2 b a 20)
  | .remuW p b a => some (infV p 2 b a 20)
  | .minW p b a => some (infV p 2 b a 1)
  | .maxW p b a => some (infV p 2 b a 1)
  | .minuW p b a => some (infV p 2 b a 1)
  | .maxuW p b a => some (infV p 2 b a 1)
  | .andW p b a => some (infV p 2 b a 1)
  | .orW p b a => some (infV p 2 b a 1)
  | .xorW p b a => some (infV p 2 b a 1)
  | .andnW p b a => some (infV p 2 b a 1)
  | .ornW p b a => some (infV p 2 b a 1)
  | .xnorW p b a => some (infV p 2 b a 1)
  | .shlW p b a => some (infV p 2 b a 1)
  | .shrW p b a => some (infV p 2 b a 1)
  | .sarW p b a => some (infV p 2 b a 1)
  | .rolW p b a => some (infV p 2 b a 1)
  | .rorW p b a => some (infV p 2 b a 1)
  | .absW p b a => some (infV p 1 b a 1)
  | .clzW p b a => some (infV p 1 b a 2)
  | .ctzW p b a => some (infV p 1 b a 2)
  | .popcW p b a => some (infV p 1 b a 2)
  | .brevW p b a => some (infV p 1 b a 1)
  | .bswapW p b a => some (infV p 1 b a 1)
  | .addi p _ a => some (infV p 1 noT a 1)
  | .addiW p _ a => some (infV p 1 noT a 1)
  | .andi p _ a => some (infV p 1 noT a 1)
  | .ori p _ a => some (infV p 1 noT a 1)
  | .xori p _ a => some (infV p 1 noT a 1)
  | .shli p _ _ a => some (infV p 1 noT a 1)
  | .shri p _ _ a => some (infV p 1 noT a 1)
  | .sari p _ _ a => some (infV p 1 noT a 1)
  | .roli p _ _ a => some (infV p 1 noT a 1)
  | .rori p _ _ a => some (infV p 1 noT a 1)
  | .teq p _ b a => some (infV p 2 b a 1)
  | .tne p _ b a => some (infV p 2 b a 1)
  | .tlt p _ b a => some (infV p 2 b a 1)
  | .tle p _ b a => some (infV p 2 b a 1)
  | .tltu p _ b a => some (infV p 2 b a 1)
  | .tleu p _ b a => some (infV p 2 b a 1)
  | .teqi p _ a => some (infV p 1 noT a 1)
  | .tnei p _ a => some (infV p 1 noT a 1)
  | .tlti p _ a => some (infV p 1 noT a 1)
  | .tlei p _ a => some (infV p 1 noT a 1)
  | .tltui p _ a => some (infV p 1 noT a 1)
  | .tleui p _ a => some (infV p 1 noT a 1)
  | .lop3 _ b a => some (infV 0 3 b a 1)
  | .fshl _ b a => some (infV 0 3 b a 1)
  | .fshr _ b a => some (infV 0 3 b a 1)
  | .extb p _ _ _ a => some (infV p 1 noT a 1)
  | .insb b a => some (infV 0 3 b a 1)
  | .appc p _ a => some (infV p 1 noT a 1)
  | .fadd p _ b a => some (infV p 2 b a 4)
  | .fsub p _ b a => some (infV p 2 b a 4)
  | .fmul p _ b a => some (infV p 2 b a 4)
  | .fdiv p _ b a => some (infV p 2 b a 12)
  | .fsqrt p _ b a => some (infV p 1 b a 12)
  | .fmin p b a => some (infV p 2 b a 1)
  | .fmax p b a => some (infV p 2 b a 1)
  | .fabs p b a => some (infV p 1 b a 1)
  | .fneg p b a => some (infV p 1 b a 1)
  | .fteq p b a => some (infV p 2 b a 1)
  | .ftlt p b a => some (infV p 2 b a 1)
  | .ftle p b a => some (infV p 2 b a 1)
  | .ftun p b a => some (infV p 2 b a 1)
  | .fclass p b a => some (infV p 1 b a 1)
  | .frnd p _ b a => some (infV p 1 b a 2)
  | .fexp2 p _ b a => some (infV p 1 b a 8)
  | .flog2 p _ b a => some (infV p 1 b a 8)
  | .ffma _ b a => some (infV 0 3 b a 4)
  | .cvtfiW p _ b a => some (infV p 1 b a 2)
  | .cvtfiWU p _ b a => some (infV p 1 b a 2)
  | .cvtfiD p _ b a => some (infV p 1 b a 2)
  | .cvtfiDU p _ b a => some (infV p 1 b a 2)
  | .cvtifW p _ b a => some (infV p 1 b a 2)
  | .cvtifWU p _ b a => some (infV p 1 b a 2)
  | .cvtifD p _ b a => some (infV p 1 b a 2)
  | .cvtifDU p _ b a => some (infV p 1 b a 2)
  | .cvtffH p _ b a => some (infV p 1 b a 2)
  | .cvtffBf p _ b a => some (infV p 1 b a 2)
  | .cvtffFH p b a => some (infV p 1 b a 2)
  | .cvtffFBf p b a => some (infV p 1 b a 2)
  | .cvtd p _ b a => some (infV p 1 b a 2)
  | .cvtq8 p _ _ _ b a => some (infV p 2 b a 2)
  | .cvtq6 p _ _ _ b a => some (infV p 2 b a 2)
  | .cvtq4 p _ _ _ b a => some (infV p 2 b a 2)
  | .srseed p _ _ => some (infN p 1)
  | .bscale p _ b a => some (infV p 1 b a 1)
  | .qblk p _ _ _ b a => some (infM p 2 b a 10)
  | .dqblk p _ b a => some (infM p 2 b a 10)
  | .lutld p _ b a => some (infM p 1 b a 17)
  | .lutenc p _ b a => some (infV p 1 b a 3)
  | .ldB p w _ a => some (infL p w a)
  | .ldH p w _ a => some (infL p w a)
  | .ldW p w _ a => some (infL p w a)
  | .ldD p w _ a => some (infL p w a)
  | .ldBSx p w _ a => some (infL p w a)
  | .ldHSx p w _ a => some (infL p w a)
  | .ldWSx p w _ a => some (infL p w a)
  | .stB p w l _ a => some (infS p 2 w l a)
  | .stH p w l _ a => some (infS p 2 w l a)
  | .stW p w l _ a => some (infS p 2 w l a)
  | .stD p w l _ a => some (infS p 2 w l a)
  | .ldo p w _ a => some (infL p w a)
  | .sto p w l _ a => some (infS p 2 w l a)
  | .clro p w l _ a => some (infS p 1 w l a)
  | .scld p w _ a => some (infL p w a)
  | .scst p w l _ a => some (infS p 2 w l a)
  | .atom p w l _ _ a => some (infS p 2 w l a)
  | .atomn p w l _ _ a => some (infS p 2 w l a)
  | .cas l _ a => some (infS 0 3 0 l a)
  | .join2 p b a => some (infV p 2 b a 1)
  | .join3 b a => some (infV 0 3 b a 1)
  | .fence p _ a => some (infV p 0 noT a 1)
  | .send p w l _ t _ a => some (infS p (if t == 1 then 2 else 1) w l a)
  | .sendr p w l _ t _ a => some (infS p (if t == 1 then 2 else 1) w l a)
  | .sendm p w l _ _ a => some (infS p 1 w l a)
  | .eos p w l _ a => some (infS p 0 w l a)
  | .taga p a => some (infV p 0 noT a 1)
  | .tagr p => some (infN p 1)
  | .tblk p _ => some (infN p 0)
  | .tunb p _ => some (infN p 0)
  | .bari p _ b a => some (infV p 1 b a 1)
  | .bara p _ b a => some (infV p 1 b a 1)
  | .barx p _ b a => some (infV p 1 b a 1)
  | .mwin p _ => some (infN p 0)
  | .mwend p => some (infN p 0)
  | .seal p => some (infN p 0)
  | .sealw p a => some (infV p 0 noT a 1)
  | .irst p w l _ a => some (infS p 2 w l a)
  | .rld p _ b a => some (infM p 1 b a 10)
  | .rgo p _ b a => some (infV p 1 b a 1)
  | .rstop p _ b a => some (infV p 0 b a 1)
  | .rdrain p _ _ b a => some (infV p 0 b a 1)
  | .rstat p _ _ b a => some (infV p 0 b a 1)
  | .mma p _ _ b a => some (infV p 2 b a 1)
  | .mmas p _ _ b a => some (infV p 2 b a 1)
  | .mclr p _ b a => some (infV p 1 b a 1)
  | .mattr p _ _ b a => some (infV p 1 b a 1)
  | .mfade p _ b a => some (infV p 1 b a 1)
  | .mstat p b a => some (infV p 0 b a 1)
  | .lutsel p _ b a => some (infV p 1 b a 1)
  | .mlda p _ b a => some (infV p 1 b a 1)
  | .mdrain p _ _ _ b a => some (infV p 2 b a 1)
  | .apdef p _ b a => some (infM p 1 b a 4)
  | .strmIn p _ b a => some (infV p 1 b a 1)
  | .strmOut p _ b a => some (infV p 1 b a 1)
  | .sbar p _ b a => some (infV p 0 b a 1)
  | .bcopy p _ _ b a => some (infM p 1 b a 4)
  | .bcopyh p _ _ b a => some (infM p 1 b a 4)
  | .agcfg p _ _ b a => some (infM p 1 b a 4)
  | .aggo p _ _ b a => some (infV p 2 b a 1)
  | .coll p _ b a => some (infV p 1 b a 1)
  | .trap p => some (infN p 1)
  | .eres p b a => some (infV p 1 b a 1)
  | .ekill p b a => some (infV p 1 b a 1)
  | .mfsp p b a => some (infV p 1 b a 2)
  | .mtsp p => some (infN p 2)
  | .halt p => some (infN p 1)
  | .dbg p => some (infN p 1)
  | .wdog p => some (infN p 1)
  | .ecnt p b a => some (infV p 2 b a 1)
  | .telm p => some (infN p 1)
  | .cswp p => some (infN p 1)
  | .xflush p b a => some (infV p 1 b a 1)
  | .blockFetchDone => none
  | .fetchFrame => none
  | .resultDelivery => none
  | .blockCommit => none
  | .commitWaitRelease => none
  | .blockDead => none
  | .mwinOverrun => none
  | .watchdog => none
  | .dispatchDecision => none
  | .tokenArrival => none
  | .tagReturnToken => none
  | .legacyAck => none
  | .creditReturn => none
  | .trapCreditRequest => none
  | .trapTokenSend => none
  | .trapAnswerArrival => none
  | .loadReply => none
  | .atomicApply => none
  | .atomicReply => none
  | .mTileRequest => none
  | .heldAccessRelease => none
  | .stoApply => none
  | .clroApply => none
  | .agcfgApply => none
  | .postCommitReport => none
  | .scRingToken => none
  | .scstAcknowledge => none
  | .barrierLineComplete => none
  | .haltArrival => none
  | .rowArrayCycle => none
  | .rowRound => none
  | .rowSlotCompletion => none
  | .rowStall => none
  | .matrixOpBegin => none
  | .matrixOpEnd => none
  | .mmasStagingStart => none
  | .ballastPass => none
  | .strmBindingEnd => none
  | .streamErrorReply => none
  | .barrierObjectUpdate => none
  | .aggoDone => none
  | .xflushDone => none
  | .collTokenArrival => none
  | .shoreRequest => none
  | .virtualRequestArrival => none
  | .translationWalkEnd => none
  | .timeBeacon => none
  | .beaconLoss => none
  | .phaseFinish => none
  | .phaseStarvedSave => none
  | .phasePick => none
  | .phaseConfigure => none
  | .minqExpiry => none
  | .preemptStart => none
  | .graceEnd => none
  | .contextSave => none
  | .resumption => none
  | .budgetPeriod => none
  | .rebalancerMove => none
  | .moveAbandon => none
  | .telemetryPeriod => none
  | .launchSlotMap => none
  | .launchSlotTimeout => none
  | .periodicWaveTimer => none
  | .waveStart => none
  | .actorAlign => none
  | .tileCut => none
  | .agentCut => none
  | .waveComplete => none
  | .sealPoint => none
  | .sealed => none
  | .retagSweepEnd => none
  | .uncorrectable => none
  | .rollback => none
  | .flitHop => none
  | .flitReceive => none
  | .ackReceive => none
  | .ackTimer => none
  | .resendTimeout => none
  | .linkDead => none
  | .siteDeath => none
  | .flip => none
  | .flipGraceEnd => none
  | .connectionCreate => none
  | .fjoithFrameReceive => none
  | .fjoithResendTimeout => none
  | .fjoithLaneLoss => none
  | .fjoithRetrainDone => none
  | .fjoithRetryTimer => none
  | .fjoithControlFlit => none
  | .mctpRequest => none
  | .partdefCreate => none
  | .partdefDelete => none
  | .qtailWrite => none
  | .qheadWrite => none
  | .spanWrite => none
  | .ptrootWrite => none
  | .invalPage => none
  | .invalAll => none
  | .fretryRetry => none
  | .fretryAbort => none
  | .esnonceWrite => none
  | .attnonceWrite => none
  | .keycmdLoad => none
  | .keycmdGen => none
  | .keycmdZero => none
  | .fwcmdLoad => none
  | .fwLoadDone => none
  | .fwcmdCommit => none
  | .sundoWrite => none
  | .registerWrite => none
  | .flr => none
  | .bringUp => none
  | .thermalTrip => none
  | .counterFlash => none
  | .auxPowerLoss => none
  | .engineBeat => none
  | .remoteTileRequest => none
  | .hostPortLinkDown => none
  | .hostPortLinkUp => none
  | .vfEnableWrite => none
  | .hostReadCompletion => none
  | .ecntRecordReady => none
  | .invalidationDone => none
  | .partitionDeleteDone => none

/-- R27: an exit instruction of the block. -/
def isExitOp (i : Instr) : Bool :=
  match infoOf i with
  | some f => f.exit.isSome
  | none => false

/-- R30, R31, R121: the third operand is used: a third data operand, a predicate or an ordering token. -/
def Info.third (f : Info) : Bool := f.nIn == 3 || f.pr != 0 || f.ord

/-- R29: whether the consumer takes the operand of a target kind (0 left, 1 right, 2 third). -/
def Info.takes (f : Info) (kind : BitVec 2) : Bool :=
  if kind = 0 then decide (1 ≤ f.nIn) else if kind = 1 then decide (2 ≤ f.nIn) else if kind = 2 then f.third else false

/-- The code width in bits of a format (R174). -/
def fmtWidth (f : BitVec 4) : Nat :=
  match f.toNat with
  | 0x0 => 32 | 0x1 => 16 | 0x2 => 16 | 0x3 => 8 | 0x4 => 8 | 0x5 => 6 | 0x6 => 6 | 0x7 => 4 | 0x8 => 8 | 0x9 => 8 | 0xA => 4 | _ => 8

end Sys2Proof.Machine
end

