-- ==== Sys2Proof/Config.lean ====
section
/-!
DEFINITION. What the manual leaves open: free values. Each is a constant without a body, applied to a plain counter of the state or to
the operands it depends on; nothing can be proved of its value. The assumption log names each (notes/assumptions).
-/

namespace Sys2Proof.Config

/-- An undefined byte (R22, R199, R14), one for each count. -/
opaque freeByte : Nat → BitVec 8

/-- A choice the manual leaves to the device (R66, R458), one for each count. -/
opaque freeBool : Nat → Bool

/-- A Falcon-1024 signature over SHAKE256 (R17): the seed of the key pair and the message. At most 1,280 bytes. -/
opaque falcon : List (BitVec 8) → List (BitVec 8) → List (BitVec 8)

/-- Whether a signature verifies (R442, R444): key identity, message and signature. -/
opaque verifies : Nat → List (BitVec 8) → List (BitVec 8) → Bool

/-- The fused voltage table of an island (R357): steps of 5 mV above 0.500 V for a frequency in MHz. -/
opaque islandStep : Nat → Nat → Nat

/-- What the sensors read at the end of a budget period (R357, R451, R455), one for each count: mean power of a unit in mW, highest tile temperature
of an island in 1/16 of a degree C, coolant at the inlet of a side in mL/min. -/
opaque sensedPower : Nat → Nat → Nat
opaque sensedTemp : Nat → Nat → Int
opaque sensedFlow : Nat → Nat → Nat

/-- The response to an MCTP control message (R434), one for each count and message. -/
opaque mctpControl : Nat → List (BitVec 8) → List (BitVec 8)

/-- The bytes of the map that degraded-map mode uses in place of the signed one (R445, R447): fused holes and binned maxima. -/
opaque degradedMap : List Nat → List (Nat × Nat) → List (BitVec 8)

/-- A key from the random generator (R449), one for each count. -/
opaque randomKey : Nat → BitVec 512

/-- The bytes of a signature (R215, R448), by key seed and the bytes that precede its length. -/
opaque falconLen : List (BitVec 8) → List (BitVec 8) → Nat

/-- What a module is built with (R423, R442, R445): sites that the fuses flag as holes, binned maxima in MHz other than 1,900, fuse parity, serial
number, minimum security version, the unique secret (R446); the bytes of a firmware slot; what flash holds at first power-on. -/
opaque fusedHoles : List Nat
opaque fusedMax : List (Nat × Nat)
opaque fusedParity : Bool
opaque fusedSerial : BitVec 64
opaque fusedMinSvn : Nat
opaque fusedSecret : BitVec 256
opaque slotBytes : Nat
opaque flashSlotA : List (BitVec 8)
opaque flashSlotB : List (BitVec 8)
opaque flashMap : List (BitVec 8)
opaque flashCert : List (BitVec 8)

end Sys2Proof.Config
end

