-- ==== Sys2Proof/Machine/TileTypes.lean ====
section
/-!
DEFINITION. The plain data a compute tile holds: blocks, invocations, channels, barriers, the row array, the matrix engine and the
stream engines (R8), and the messages it exchanges with the other agents.
-/

namespace Sys2Proof.Machine

/-- A sparse table: keys with their entries, one entry a key. -/
abbrev Map (α : Type) := List (Nat × α)

/-- The trap causes, with the codes of R366. -/
inductive Cause where
  | fetchRange | privilege | illegalHeader | illegalOp | illegalTarget | operandOverrun | doubleResolve | exitConflict
  | poisonUse | badBranch | userTrap | blockDead | watchdog | mwinOverrun | misaligned | addressRange | protection | nodeDead
  | segmentMode | onceDoubleWrite | irstOrder | irstClass | badChannel | badTag | badBarrier | badSpecial | rowConfig | rowEmpty
  | matrixDesc | apDesc | engineDesc | sysDesc | streamMismatch | collMismatch | rowStall | pageFault | uncorrectable
  | tokenImbalance
  deriving DecidableEq, Repr

/-- The use kinds of a poison trap, in the code order of R364. -/
inductive Use where
  | branch | special | address | store
  deriving DecidableEq, Repr

/-- A register: value and poison bit (R59). -/
structure Reg where
  v : Word
  p : Bool
  deriving DecidableEq, Repr

/-- A token in an operand buffer (R54). -/
inductive Tok where
  | val (v : Word) (p : Bool)
  | null
  deriving DecidableEq, Repr

/-- An operand: its token and the slots of the buffered stores whose completions reach it through wired tokens (R66, R137). -/
structure Opd where
  tok : Tok
  anc : BitVec 32
  deriving DecidableEq, Repr

/-- What has become of a slot's instruction (R54, R31). -/
inductive SlotState where
  | waiting | fired | unmatched
  deriving DecidableEq, Repr

/-- One slot of the block window (R54). -/
structure Slot where
  word : Word32
  l : Option Opd
  r : Option Opd
  t : Option Opd
  st : SlotState
  deriving DecidableEq, Repr

/-- A channel token (R273, R274). len 0 to 4; words always four, those beyond len are 0. -/
structure Token where
  kind : BitVec 4
  len : Nat
  words : List Word
  psn : BitVec 4
  stag : BitVec 8
  rin : BitVec 32
  ch : BitVec 6
  deriving DecidableEq, Repr

/-- Who issued an operation: used for replies, class P reports and undo capture. -/
structure Origin where
  tile : Nat
  part : Nat
  lvl : Bool
  tag : BitVec 8
  act : Nat
  slot : Nat
  lsid : Nat
  blk : BitVec 32
  rin : BitVec 32
  inv : Nat
  deriving DecidableEq, Repr

/-- When a token may leave (R137): at once; once the listed buffered operations are performed at a scope. -/
structure Release where
  scope : BitVec 3
  own : BitVec 32
  all : Bool
  deriving DecidableEq, Repr

/-- The buffered store-class operations (R66, R122). -/
inductive SOp where
  | store (a : Word) (size : Nat) (d : Word)
  | sto (a d : Word)
  | clro (a : Word) (n : Nat)
  | scst (a d : Word)
  | irst (a d : Word)
  | atom (a : Word) (op : BitVec 4) (dbl : Bool) (v : Word)
  | token (k : BitVec 3) (t : Token) (rel : Option Release)
  | record (a : Word) (bytes : List Byte)
  deriving DecidableEq, Repr

/-- A store-buffer entry; lsid is none for the data that QBLK, DQBLK and ECNT write at commit (R116, R215). -/
structure BufOp where
  slot : Nat
  lsid : Option (BitVec 4)
  op : SOp
  anc : BitVec 32
  ready : Nat
  deriving DecidableEq, Repr

/-- A trap raised at a slot, with what its token will carry (R364). -/
structure PTrap where
  slot : Nat
  cause : Cause
  use : Option Use
  info : BitVec 32
  detail : Word
  detailP : Bool
  exitf : Bool
  deriving DecidableEq, Repr

/-- A result on its way to its targets: due in a tile cycle, with the LSID it resolves (R61, R122) or the trap it raises. -/
structure Deliv where
  due : Nat
  slot : Nat
  t0 : BitVec 7
  t1 : BitVec 7
  tok : Tok
  anc : BitVec 32
  lsid : Option (BitVec 4)
  trap : Option PTrap
  deriving DecidableEq, Repr

/-- The exit that fired (R77 to R79). -/
inductive ExitTo where
  | jump (a : BitVec 32)
  | call (a : BitVec 32)
  | hend
  deriving DecidableEq, Repr

/-- An outstanding reply of a load, returning atomic or engine request (R70). -/
structure Owed where
  id : Nat
  slot : Nat
  sx : Bool
  size : Nat
  lsid : Option (BitVec 4)
  anc : BitVec 32
  fwd : List (Option Byte)
  a : Word
  due : Nat
  deriving DecidableEq, Repr

/-- What a fired instruction waits for before it delivers (R134, R141, R144, R169, R198, R215, R218, R135). -/
inductive WaitFor where
  | fence (scope : BitVec 3)
  | sealed (s : BitVec 32)
  | barrier (b : BitVec 6) (g : BitVec 16)
  | ports (mask : BitVec 8)
  | rowIdle (q : Option (BitVec 2))
  | record (a : Word) (msg : List Byte)
  | xflush (id : Nat)
  deriving DecidableEq, Repr

/-- A waiting instruction. -/
structure Wait where
  slot : Nat
  anc : BitVec 32
  what : WaitFor
  deriving DecidableEq, Repr

/-- A queued matrix operation (R178). -/
inductive MxKind where
  | pass (mmas : Bool) (fa fb : BitVec 4) (da db : Word)
  | mclr (b : BitVec 2)
  | mlda (b : BitVec 2) (a : Nat)
  | mdrain (f : BitVec 4) (b : BitVec 2) (rm : BitVec 2) (desc : Word) (factor : BitVec 32)
  | mfade (b : BitVec 2) (f : BitVec 32)
  | lutsel (t : BitVec 2)
  deriving DecidableEq, Repr

/-- What commit steps 4 and 5 do for the block's fired instructions (R68, R171, R190). -/
inductive ActKind where
  | mts (n : BitVec 8) (v : Word)
  | rstl (a : BitVec 32)
  | srseed (d : BitVec 2) (lane : BitVec 6) (v : BitVec 32)
  | lutld (t : BitVec 2) (tab : List Word32)
  | status (bits : BitVec 6)
  | rowStop (q : BitVec 2)
  | rowLoad (q : BitVec 2) (desc : BitVec 128) (lanes : List Word)
  | rowGo (q : BitVec 2) (n : BitVec 32)
  | rowClr (q : BitVec 2) (mask : BitVec 7)
  | tagr (tag : BitVec 8)
  | blocked (c : BitVec 6) (v : Bool)
  | barInit (b : BitVec 6) (e : BitVec 16) (line : Option (BitVec 3))
  | barArrive (b : BitVec 6)
  | mwend
  | seal
  | mattr (b : BitVec 2) (k : Bool)
  | mx (op : MxKind)
  | apdef (i : BitVec 5) (words : List Word)
  | strm (p : BitVec 3) (out : Bool) (ctl : Word)
  | copy (sig : Bool) (b : BitVec 6) (src dst : Word) (len : Nat) (host : Bool)
  | agcfg (w s : BitVec 2) (desc : BitVec 128)
  | aggo (w g : BitVec 2) (l r : Word)
  | coll (k : BitVec 3) (ctl : Word)
  | answer (kill : Bool) (h : Word)
  | mtsp (n : BitVec 8) (v : Word)
  | halt (ctl : Word)
  | dbg (v : Word) (p : Bool)
  | wdog (v : Word)
  | telm (v : Word)
  | cswp (v : Word)
  | brk
  deriving DecidableEq, Repr

/-- A commit effect of one slot; it takes part only when its completion has been delivered by the commit (R117, R166). -/
structure Act where
  slot : Nat
  ready : Nat
  kind : ActKind
  deriving DecidableEq, Repr

/-- Where a block stands (R64, R68). -/
inductive BlkPhase where
  | running | committing | commitWait
  deriving DecidableEq, Repr

/-- A block in the window or in the shadow copy (R54, R55). exitNo: the number of the exit that fired (R78). took: an instruction of it has
been taken in this tile cycle (R70). trap: the trap it was stopped by. pend: the trap of a delivery that this cycle will report, unless a
lower slot traps (R69). tabs: the decode tables replaced since it entered, as they stood then (R107, R117). -/
structure Blk where
  addr : BitVec 32
  hdr : BitVec 128
  slots : List Slot
  start : Nat
  fly : List Deliv
  stores : List BufOp
  lsids : BitVec 16
  wregs : List (BitVec 6 × Option Reg)
  exit : Option ExitTo
  acts : List Act
  fpst : BitVec 6
  owed : List Owed
  waits : List Wait
  tags : List (BitVec 8)
  creds : List (BitVec 3)
  idle : Nat
  phase : BlkPhase
  trap : Option PTrap
  pend : Option PTrap
  exitNo : BitVec 3
  took : Bool
  tabs : Map (List Word32)
  deriving DecidableEq, Repr

/-- A block fetch in progress: fetch cycles left; fresh while the cycle that started it lasts (R56). -/
structure Fetch where
  addr : BitVec 32
  left : Nat
  fresh : Bool
  deriving DecidableEq, Repr

/-- A running, parked, frozen or aborted invocation (R231, R234, R236). -/
structure Inv where
  id : Nat
  chan : BitVec 6
  tag : BitVec 8
  act : Nat
  ent : BitVec 32
  priv : Bool
  leg : Bool
  desc : Word
  entry : List Reg
  toks : List (Nat × Token)
  sealw : Bool
  rin : BitVec 32
  frozen : Option PTrap
  aborted : Bool
  pendTrap : Option Cause
  deriving DecidableEq, Repr

/-- One handler level (R54, R59, R235): register bank, the level's specials, its invocation, fetch and block. wdog is in 10^-15 s. -/
structure Level where
  regs : List Reg
  fpst : BitVec 6
  seed : BitVec 32
  link : BitVec 32
  rstl : BitVec 32
  wdog : Nat
  rr : Nat
  inv : Option Inv
  fetch : Option Fetch
  blk : Option Blk
  deriving DecidableEq, Repr

/-- A named barrier (R141). -/
structure Barrier where
  e : BitVec 16
  a : Nat
  g : BitVec 16
  line : Option (BitVec 3)
  holds : Bool
  deriving DecidableEq, Repr

/-- Where an output or a reply channel leads (R264, R272). -/
inductive Dest where
  | chan (tile : Nat) (c : BitVec 6)
  | hostOut (q : Nat)
  | shore (s : Nat) (port : Nat)
  | coll (fj key : Nat)
  deriving DecidableEq, Repr

/-- A token producer's end of one channel: credits and position (R139, R276). -/
structure OutPort where
  dest : Dest
  credits : Nat
  cap : Nat
  pos : Nat
  back : Nat
  border : Bool
  deriving DecidableEq, Repr

/-- Who gets the credit of an input channel (R276). -/
inductive Source where
  | port (tile : Nat) (act k : Nat)
  | border (tile : Nat) (c : BitVec 6)
  | hostIn (part : Nat) (q : Nat)
  | object (b : BitVec 6)
  | shore (s port : Nat)
  | coll (fj out : Nat)
  | trap
  deriving DecidableEq, Repr

/-- An input channel of a tile (R224, R276, R278): queued tokens, each with its place in the channel. -/
structure InChan where
  src : Source
  cap : Nat
  ret : Bool
  legacy : Bool
  queue : List (Nat × Token)
  pos : Nat
  taken : Nat
  discard : Bool
  border : Option OutPort
  cap0 : Nat
  awaited : Bool
  trapFree : Nat
  asks : List Nat
  late : List (Nat × Token)
  deriving DecidableEq, Repr

/-- A trap token or notice waiting in a trap queue (R238). -/
structure Notice where
  words : List Word
  psn : BitVec 4
  stag : BitVec 8
  rin : BitVec 32
  lvl : Option Bool
  asked : Bool
  granted : Bool
  deriving DecidableEq, Repr

/-- An outbound operation of an invocation not yet performed at its home (R134, R311), with the address it was given. late: no scope sees it
performed before its home has done so, as R311 says of SCSTs and atomics. -/
structure Perf where
  id : Nat
  inv : Nat
  late : Bool
  a : Word
  deriving DecidableEq, Repr

/-- A committed token held by its release condition (R137): the operations it waits for. -/
structure OutTok where
  act : Nat
  k : BitVec 3
  t : Token
  waits : List Nat
  deriving DecidableEq, Repr

/-- An operation waiting for the SC ring token (R135). -/
structure ScOp where
  id : Nat
  org : Origin
  a : Word
  data : Option Word
  sent : Bool
  deriving DecidableEq, Repr

/-- A copy kept for the backwash: the old contents of one line and, for ONCE lines, its presence bits (R392, R128). key: the key index
of a shore line's old contents (R303); part: the partition whose write took the slot, at a shore home. -/
structure UndoSlot where
  rin : BitVec 32
  line : Nat
  old : List Byte
  pres : List Bool
  key : Option Nat
  part : Nat
  deriving DecidableEq, Repr

/-- One version of a decode table (R117, R339). -/
structure DecTable where
  cur : List Word32
  ver : Nat
  old : Option (List Word32)
  oldVer : Nat
  deriving DecidableEq, Repr

/-- A row-array element (R147, R151); ver names the version of each decode table at its stamp. -/
structure RowElem where
  v : BitVec 32
  p : Bool
  tag : BitVec 16
  ver : List Nat
  deriving DecidableEq, Repr

/-- The states of a row slot (R165). -/
inductive RowState where
  | empty | loaded | running
  deriving DecidableEq, Repr

/-- One of the four resident row configurations (R158, R165, R170). Queue key: 4 lane + queue for lane queues, 256 + word for exit
staging. allow none is unbounded. last: the cycle a lane last fired in; marks: status of results on their way, with the cycle they are
produced in (R151). -/
structure RowSlot where
  st : RowState
  desc : BitVec 128
  lanes : List Word
  allow : Option Nat
  entries : Nat
  exits : Nat
  sticky : BitVec 7
  queues : Map (List RowElem)
  fly : List (Nat × Nat × RowElem)
  accs : Map (BitVec 32 × Nat × Bool)
  last : Map Nat
  marks : List (Nat × BitVec 7)
  ages : List Nat
  stall : Nat
  stallSent : Bool
  deriving DecidableEq, Repr

/-- The row array with its scheduler (R331). -/
structure RowArray where
  slots : List RowSlot
  holders : List (Option Nat)
  bubble : List Bool
  gens : List (BitVec 32)
  deriving DecidableEq, Repr

/-- A queued matrix operation with what it latched (R178, R336, R339). began is the cycle it began in. -/
structure MxOp where
  id : Nat
  kind : MxKind
  rin : BitVec 32
  org : Origin
  sig : Option (BitVec 3)
  began : Option Nat
  fade : BitVec 32
  ver : Nat
  table : BitVec 2
  staged : Option (List Byte × List Byte)
  bstVoid : Bool
  deriving DecidableEq, Repr

/-- A drain's SIG token that waits for the operations queued before it (R185). -/
structure MxSig where
  waits : List Nat
  org : Origin
  k : BitVec 3
  a : Word
  deriving DecidableEq, Repr

/-- The matrix engine (R8, R174 to R187). edgeFree, stageFree: the cycles in which the input edges and the stages are free (R336, R338);
ballast: the cycle in which a ballast pass leaves the edges (R188). banks: key 4096 bank + 64 i + j, +0 where absent. -/
structure Matrix where
  banks : Map (BitVec 32)
  keep : BitVec 4
  lost : BitVec 4
  bst : BitVec 16
  fade : List (BitVec 32)
  lut : BitVec 2
  queue : List MxOp
  edgeFree : Nat
  stageFree : Nat
  staging : Option (Nat × List Byte × List Byte)
  ballast : Option Nat
  sigs : List MxSig
  deriving DecidableEq, Repr

/-- A stream binding (R196, R197): its pattern snapshot and how far it has moved. held: its next write waits for undo space (R394). -/
structure Binding where
  id : Nat
  out : Bool
  ap : List Word
  sig : Option (BitVec 3)
  org : Origin
  moved : Nat
  wait : Bool
  held : Bool
  deriving DecidableEq, Repr

/-- A stream port (R196). psn: the places in the buffer of bytes that were read with an uncorrectable error (R368); lost: an OUT binding ended in
error, and what stands in the buffer since has no binding to be performed by (R198, R329). -/
structure Port where
  buf : List Byte
  active : Option Binding
  pending : Option Binding
  fault : Bool
  psn : List Nat
  lost : Bool
  deriving DecidableEq, Repr

/-- A bulk copy (R199 to R202). held: its next write waits for undo space (R394). -/
structure Copy where
  id : Nat
  src : Word
  dst : Word
  len : Nat
  sig : Option (BitVec 6)
  host : Bool
  org : Origin
  moved : Nat
  buf : List Byte
  wait : Bool
  err : Option Cause
  held : Bool
  deriving DecidableEq, Repr

/-- A task-table entry is 128 bits (R225); the tile's message-side state. -/
structure Chans where
  tasks : Map (BitVec 128)
  ins : Map InChan
  outs : Map OutPort
  held : List (Nat × BitVec 8)
  taga : List (Nat × BitVec 8)
  barriers : Map Barrier
  traps : List Notice
  outq : List OutTok
  perf : List Perf
  sc : List ScOp
  scSpent : Nat
  counts : Map (Nat × Nat)
  weights : Map Nat
  deriving DecidableEq, Repr

/-- System state of a tile (R46, R211, R214). -/
structure TileSys where
  wdlim : Word
  dbgen : Bool
  trapcnt : BitVec 32
  stale : BitVec 32
  supv : BitVec 22
  disc : Word
  discs : List (Nat × Nat × Nat)
  rver : BitVec 4
  fduty : BitVec 5
  fdutyNext : Option (BitVec 5)
  part : Option Nat
  region : BitVec 8
  clock : Nat
  halted : Bool
  brk : Bool
  stopped : Bool
  idle : Bool
  tlost : Option (Nat × Nat)
  deriving DecidableEq, Repr

/-- Recovery state of a tile (R386 to R398). bankUndo: by interval, the banks changed in it with their copies; none for a bank that was RECOMP when it
changed, of which no copy is made (R187). -/
structure TileRec where
  rin : BitVec 32
  tags : Map (BitVec 2)
  undo : List UndoSlot
  bankUndo : List (BitVec 32 × Nat × Option (Map (BitVec 32)))
  sweep : Bool
  aligned : Map (BitVec 32)
  carried : Map (List (Nat × Token))
  deriving DecidableEq, Repr

/-- A compute tile (R8). cyc counts its cycles (R11); elapsed: the time they took, in 10^-15 s; exits: the debugger's exit history, the
addresses and exit numbers of committed blocks, newest first (R78). -/
structure CTile where
  cyc : Nat
  elapsed : Nat
  slot : Nat
  fired : Nat
  mems : Nat
  decided : Bool
  run : Option Bool
  l0 : Level
  l1 : Level
  mwin : Option Nat
  staging : Option (Bool × Nat)
  ch : Chans
  sys : TileSys
  recov : TileRec
  tables : List DecTable
  row : RowArray
  mx : Matrix
  aps : Map (List Word)
  ports : List Port
  agNext : Nat
  copies : List Copy
  aggs : List Nat
  exits : List (BitVec 32 × BitVec 3)
  deriving DecidableEq, Repr

end Sys2Proof.Machine
end

