-- ==== Sys2Proof/Machine/NetTypes.lean ====
section
/-!
DEFINITION. Messages between agents, and the plain data of M-tiles and of partitions.
Interface codes: a site's network interface is its tile ID; shore actor s is 0x10000 + s; Fjoith port p is 0x10020 + p; host port h
is 0x10050 + h; Headland is 0x10060.
-/

namespace Sys2Proof.Machine

/-- Why a resident phase is pre-empted (R356). -/
inductive PreemptCause where
  | cswpForce | cswp | contention | slotLost | budget
  deriving DecidableEq, Repr

/-- A unit's measurements over the last budget period (R357, R451), islands by number and shared units from 1,056 up: what the sensors read. -/
structure IslandMeasure where
  island : BitVec 11
  power  : Nat          -- mean power, mW
  temp   : Int          -- highest tile temperature, 1/16 of a degree C
  deriving DecidableEq, Repr

/-- The register space a write names: the partition window of a function, or module space (R433). -/
inductive RegSpace where
  | window (p : BitVec 6)
  | module
  deriving DecidableEq, Repr

/-- The transport bindings of MCTP (R434): SMBus/I2C on the management connector, and vendor-defined messages on host port 0. -/
inductive MctpBinding where
  | smbus | vdm
  deriving DecidableEq, Repr

/-- A requester endpoint of out-of-band management: its binding and its endpoint ID. -/
structure MctpEp where
  binding : MctpBinding
  eid : Nat
  deriving DecidableEq, Repr

/-- An MCTP request (R434): a control message, or one of the vendor-defined type. -/
inductive MctpRequest where
  | control (ep : MctpEp) (bytes : List Byte)
  | read (ep : MctpEp) (sp : RegSpace) (off : BitVec 18)
  | write (ep : MctpEp) (sp : RegSpace) (off : BitVec 18) (v : BitVec 64)
  | attest (ep : MctpEp) (nonce : BitVec 256)
  | reading (ep : MctpEp) (p : BitVec 6) (nonce : BitVec 64)
  | writeSlot (ep : MctpEp) (off : Nat) (bytes : List Byte)
  deriving DecidableEq, Repr

/-- What an engine transfer belongs to at its source: a stream port, a bulk copy, an M-tile generator, or staged reads of a cache. -/
inductive Eng where
  | port (n : Nat) (bind : Nat)
  | copy (id : Nat)
  | gen (g : Nat)
  deriving DecidableEq, Repr

/-- The body of a message. p of engData: the data read has an uncorrectable error (R368). Addresses are the 64-bit program addresses of R120 for virtual requests, and tile-local byte addresses for a
request to a site (the home is the message's destination). void: a message that a rollback discarded while its flit was
unacknowledged (R403): it keeps its number and does nothing. -/
inductive Payload where
  | load (a : Word) (size : Nat)
  | ldo (a : Word)
  | store (a : Word) (size : Nat) (d : Word)
  | sto (a d : Word)
  | clro (a : Word) (n : Nat)
  | atomic (a : Word) (op : BitVec 4) (dbl : Bool) (v : Word) (cas : Option Word) (ret : Bool)
  | scld (a : Word)
  | scst (a d : Word)
  | irst (a d : Word)
  | reply (v : Word) (p : Bool) (err : Option Cause)
  | atomReply (v : Word) (err : Option Cause)
  | scAck (err : Option Cause)
  | token (c : BitVec 6) (pos : Nat) (t : Token)
  | credit (act k : Nat)
  | borderCredit (c : BitVec 6)
  | tret (act : Nat) (tag : BitVec 8)
  | borderTret (c : BitVec 6) (tag : BitVec 8)
  | ack (act k : Nat)
  | trapAsk (c : BitVec 6) (lvl : Option Bool)
  | trapGrant
  | trapToken (c : BitVec 6) (t : Token)
  | answer (kill : Bool) (h : Word)
  | halt (rel : Bool)
  | report (cause : Cause) (a : Word)
  | agcfg (s : BitVec 2) (desc : BitVec 128) (w : BitVec 2)
  | aggo (g w : BitVec 2) (src dst : List Word) (sig : Option (BitVec 3))
  | engRead (e : Eng) (a : Word) (n : Nat)
  | engData (e : Eng) (bytes : List Byte) (p : Bool) (err : Option Cause)
  | engWrite (e : Eng) (a : Word) (bytes : List Byte)
  | engDone (e : Eng) (n : Nat) (err : Option Cause)
  | aggoEnd (g w : BitVec 2) (sig : Option (BitVec 3)) (err : Option Cause)
  | bobj (b : BitVec 6) (err : Bool)
  | segToken (ch : BitVec 6) (act : Nat) (w0 w1 : Word)
  | shoreTok (port : Nat) (t : Token)
  | collTok (key : Nat) (t : Token)
  | hostTok (q : Nat) (t : Token)
  | creditTo (src : Source)
  | void
  deriving DecidableEq, Repr

/-- A message: one request, reply, token, credit or command, sent once and received once (R277, R312). -/
structure Msg where
  id : Nat
  src : Nat
  dst : Nat
  org : Origin
  body : Payload
  deriving DecidableEq, Repr

/-- What a Fjoith frame slot or control flit carries to the other module (R425, R428, R429): a message with its partition, a route-version
flip of the domain's regions, the start and the completion of a wave, the end of its writes and its seal (R400, R401, R407), a cause on its way to
the seal master and the rollback that the master decides, with the highest number that it voids (R388, R402, R403), the contributors that a module
binds to its collective unit (R431), or the SC ring token (R135). -/
inductive FjBody where
  | msg (cls : BitVec 2) (m : Msg)
  | flip (vers : List (Nat × BitVec 4))
  | sealed (n : BitVec 32)
  | wave (n : BitVec 32)
  | waveDone (n : BitVec 32)
  | written (n : BitVec 32)
  | cause
  | rollback (n : BitVec 32)
  | binds (l : List (Nat × Nat))
  | ring (n : BitVec 32)
  | ask
  deriving DecidableEq, Repr

/-- A Fjoith frame (R428). ok: its CRC is correct. -/
structure Frame where
  nak : Bool
  slots : List FjBody
  ack : BitVec 16
  fseq : BitVec 16
  cred : List Nat
  ok : Bool
  deriving DecidableEq, Repr

/-- What comes to a step from outside the part (a register value, a measured power, a link): each event reads the fields it needs. The
step takes it with the event from the agenda. -/
structure Input where
  p : BitVec 6
  r : BitVec 8
  n : Nat
  v : Word
  addr : Nat
  tile : Nat
  flag : Bool
  off : BitVec 18
  own : Option (BitVec 6)
  why : PreemptCause
  sp : RegSpace
  nonce : BitVec 256
  meas : List IslandMeasure
  mctp : Option MctpRequest
  list : List Nat
  bytes : List Byte
  frame : Option Frame
  flow : Option (Nat × Nat)
  deriving DecidableEq, Repr

/-- No input. -/
def Input.none : Input := ⟨0, 0, 0, 0, 0, 0, false, 0, Option.none, .cswp, .module, 0, [], Option.none, [], [], Option.none, Option.none⟩

/-- A step that is due: the agent it happens at, the step, its input. -/
structure Item where
  agent : Nat
  step : Instr
  inp : Input
  deriving DecidableEq, Repr

/-- The segment modes of R203. -/
inductive SegMode where
  | off | tstore | fifo | line | once | cache | owner
  deriving DecidableEq, Repr

/-- One segment of an M-tile (R203, R291 to R296). -/
structure Segment where
  mode : SegMode
  base : Nat
  size : Nat
  param : Nat
  tok : Bool
  tch : BitVec 6
  cfgTile : Nat
  cfgWin : BitVec 2
  cfgAct : Nat
  rowlen : Nat
  head : Nat
  count : Nat
  full : List Bool
  moved : List Nat
  wrote : List Nat
  lo : Nat
  rows : List (Nat × Nat)
  lines : List (Nat × Nat × Bool)
  deriving DecidableEq, Repr

/-- A command of a generator g of an M-tile (R205); a generator runs its commands in the order in which they arrive. buf: bytes read and not
yet written; wait: a request of it is under way; cmd: the identity of the command's message. -/
structure Gen where
  g : BitVec 2
  tile : Nat
  w : BitVec 2
  src : List Word
  dst : List Word
  sig : Option (BitVec 3)
  org : Origin
  moved : Nat
  buf : List Byte
  wait : Bool
  seq : Nat
  cmd : Nat
  deriving DecidableEq, Repr

/-- A memory tile (R8). Its bytes are in the state's memory at its remote-tile keys; pres lists the ONCE words (by offset / 8) whose
presence bit is set; segUndo: the segment state lines captured, one for each segment and interval (R392). -/
structure MTile where
  segs : List Segment
  units : Nat
  pres : List Nat
  held : List Msg
  input : List Msg
  cfgs : List Msg
  gens : List Gen
  rin : BitVec 32
  tags : Map (BitVec 2)
  undo : List UndoSlot
  segUndo : List (BitVec 32 × Nat × Segment)
  notices : List Notice
  sweep : Bool
  region : Option Nat
  deriving DecidableEq, Repr

end Sys2Proof.Machine
end

