-- ==== Sys2Proof/Machine/FabricTypes.lean ====
section
/-!
DEFINITION. The wafer fabric (R409 to R422), the Fjoith ports with their collective units (R207, R428 to R431), and the interfaces that
translate (R302 to R306).
-/

namespace Sys2Proof.Machine

/-- The states of a site (R5). -/
inductive SiteState where
  | live | spare | hole
  deriving DecidableEq, Repr

/-- A site as the module booted it; dead: it died or was fenced since (R419). fmax in MHz (R10). -/
structure Site where
  st : SiteState
  fmax : Nat
  dead : Bool
  deriving DecidableEq, Repr

/-- The types of a route-table entry (R414). -/
inductive EntryType where
  | out | inn | proxy
  deriving DecidableEq, Repr

/-- A route-table entry (R414). turns: (DIR, RUN) segments; edge: EDGE and ESEL of the far end, of a PROXY entry's sender. fresh: flits accepted since the
last ACK; since: when the first of them came, by the tile clock in focus (10^-15 s); nakAt: when the last NAK left; prog: when ASEQ last moved; used: when the entry was last used. -/
structure Entry where
  typ : EntryType
  pin : Bool
  dead : Bool
  peer : BitVec 8
  dst : Nat
  edge : Option (BitVec 1)
  ver : BitVec 4
  nseq : BitVec 6
  aseq : BitVec 6
  turns : List (BitVec 2 × Nat)
  fresh : Nat
  since : Option Nat
  nakAt : Option Nat
  prog : Nat
  used : Nat
  deriving DecidableEq, Repr

/-- What a flit carries: a message, or an acknowledgement (R412, R417). -/
inductive FlitBody where
  | msg (m : Msg)
  | ack (nak : Bool)
  deriving DecidableEq, Repr

/-- A flit in the mesh (R412, R413). place: the router it stands in, or 0x40000 + the interface it has been delivered to; came: the link it came in
by, in whose FIFO of 8 places it stands (R409); none at the interface it leaves. -/
structure Flit where
  ver : BitVec 4
  peer : BitVec 8
  seq : BitVec 6
  route : BitVec 46
  body : FlitBody
  place : Nat
  came : Option (BitVec 2)
  deriving DecidableEq, Repr

/-- An interface: its route table in two banks and its retry buffer, oldest first (R414, R417). grace: a flip's grace is on, in which an entry accepts the
version that it bears in the other bank as well (R420). -/
structure Iface where
  ents : Map Entry
  shadow : Map Entry
  retry : List (Nat × BitVec 6 × Msg)
  grace : Bool
  deriving DecidableEq, Repr

/-- The two links between adjacent sites, known by their west or south end and their axis (R409, R423). crc: the directions and times of the last CRC
failures (R410). -/
structure Link where
  dead : Bool
  xslot : Nat
  crc : List (Nat × Nat)
  deriving DecidableEq, Repr

/-- A route version flip in course: the regions it covers with their new versions, its start d, and whether FLIP has been sent; tell: the regions of whose
flip the peer modules hear (R420). -/
structure FlipJob where
  regions : List (Nat × BitVec 4)
  d : Nat
  sent : Option Nat
  moved : Option (Nat × Nat)
  tell : List Nat
  deriving DecidableEq, Repr

/-- The fabric and its status counts (R432). setups: connection creations waiting at
Headland, (source, destination) interfaces. traffic: per site, the flits sent and received within its region (R352); a rollback, which voids every
flit in flight, starts the counts of its regions anew. -/
structure Fabric where
  sites : Map Site
  links : Map Link
  ifs : Map Iface
  flits : List Flit
  flips : List FlipJob
  setups : List (Nat × Nat)
  bytes : Map Nat
  traffic : Map (Nat × Nat)
  flipCount : BitVec 16
  deadl : BitVec 16
  fenced : BitVec 8
  blost : BitVec 8
  crce : BitVec 8
  deriving DecidableEq, Repr

/-- One contributor's part in a collective round (R207): its control word, then payload words with their poison bits. -/
structure Contribution where
  ctl : Word
  need : Nat
  words : List (Word × Bool)
  deriving DecidableEq, Repr

/-- A contributor's channel: rounds in order, tokens held behind a TIDE (R399), and tokens that came before both ends of the unit were bound (R385). -/
structure Contributor where
  mod : Nat
  tile : Nat
  port : Nat
  part : Nat
  rounds : List Contribution
  tide : Option (BitVec 32)
  behind : List Token
  early : List Token
  deriving DecidableEq, Repr

/-- The collective unit of a Fjoith port (R207, R431). outs: the bound results channels; far: the peer module has told the contributors of its end. -/
structure CollUnit where
  contribs : List Contributor
  outs : List OutPort
  queue : List (Nat × Token)
  rin : BitVec 32
  far : Bool
  deriving DecidableEq, Repr

/-- A Fjoith port (R429, R430). lanes 0: no lane locked; sent: the frames kept until acknowledged; gaveBack: flits received per class whose credit has not
gone back: those that have not been forwarded yet keep their place in the receive queue (R428); cred: the peer's credits per class; peer: the far end's binding register; out: frames put on the lanes since the last beacon. -/
structure FjPort where
  bind : Word
  peer : Word
  lanes : Nat
  training : Bool
  fseq : BitVec 16
  expect : BitVec 16
  sent : List Frame
  wait : List FjBody
  cred : List Nat
  nak : Bool
  gaveBack : List Nat
  prog : Nat
  out : List Frame
  coll : CollUnit
  notices : List Notice
  deriving DecidableEq, Repr

/-- A cached leaf: partition, first partition virtual address and size (log2) of its page, the leaf, and for PLC FIRST the bank chosen at the first
access (R302, R305). -/
structure CLeaf where
  part : Nat
  base : Nat
  bits : Nat
  rcl : BitVec 2
  sub : Nat
  plc : BitVec 2
  key : Nat
  pa : Nat
  w : Bool
  r : Bool
  bank : Option (Nat × Nat)
  deriving DecidableEq, Repr

/-- A page with a walk in progress, or a faulting page with its held requests (R305, R373). -/
structure PageWait where
  part : Nat
  page : Nat
  root : Word
  reqs : List Msg
  noticed : Bool
  why : BitVec 2
  deriving DecidableEq, Repr

/-- A translated request that waits for undo space, with the leaf it completes under (R305, R394); host: at a host bus address. -/
structure LateReq where
  m : Msg
  host : Bool
  leaf : CLeaf
  deriving DecidableEq, Repr

/-- A held write or device record in an outbound hold queue (R304, R322, R438): its interval, the memory bytes; a queue tail to advance when
it is performed. -/
structure Held where
  rin : BitVec 32
  part : Nat
  key : Nat
  bytes : List Byte
  encKey : Option Nat
  queue : Option Nat
  deriving DecidableEq, Repr

/-- A request token at a shore actor, with its partition and request port (R306). -/
structure ShoreReq where
  part : Nat
  port : Nat
  t : Token
  pos : Nat
  deriving DecidableEq, Repr

/-- An interface that translates: shore actor, host port or the receiving side of a Fjoith port (R302 to R306, R373). dir: the cached lines
with the bank that holds them. port state: the shore request and reply ports, key 4 part + k. vols: the lines of this home that have been accessed
through a leaf of class VOLATILE since they were last undefined; false: since then written through another class (R304). late: see there. poss: by shore port and interval, the places that the request port and the reply port
had reached at its cut (R399). -/
structure Recv where
  leaves : List CLeaf
  walks : List PageWait
  faults : List PageWait
  missq : List Msg
  hold : List Held
  notices : List Notice
  undo : List UndoSlot
  vols : Map Bool
  late : List LateReq
  dir : List (Nat × Nat × Nat)
  ins : Map InChan
  outs : Map OutPort
  rin : Map (BitVec 32)
  sweep : List Nat
  poss : List (Nat × BitVec 32 × Nat × Nat)
  deriving DecidableEq, Repr

end Sys2Proof.Machine
end

