-- ==== Sys2Proof/Machine/ModuleTypes.lean ====
section
/-!
DEFINITION. What the module holds beside its tiles and its fabric: partitions and recovery domains (R388 to R408, R436), regions and their
phases (R348 to R363), launch queues and slots (R350, R351, R437), host ports (R433), and Headland (R440 to R455).
-/

namespace Sys2Proof.Machine

/-- What the memory system needs of a partition (R298, R300, R301, R377). -/
structure PartMem where
  spans : List Word
  root : Word
  kfirst : Nat
  kcnt : Nat
  ctx : Word
  deriving DecidableEq, Repr

/-- The recorded position of a host input stream at a cut (R399, R403): the next entry to read and the place of the next token. -/
structure StreamCut where
  read : Nat
  pos : Nat
  eos : Bool
  deriving DecidableEq, Repr

/-- The cut of one interval (R398, R399, R457): tiles as they stood, host streams (by queue), collective units (by port). -/
structure Cut where
  tiles : Map CTile
  gens : Map (List Gen)
  streams : Map StreamCut
  colls : Map (List Contributor)
  deriving DecidableEq, Repr

/-- A tidemark wave: the interval it closes, the agents that have cut, whether the streams have inserted their TIDE, whether it is
complete, the Fjoith ports whose modules have completed it and those whose modules have performed its writes, and whether this module, no seal
master, has told that of its own (R395, R400, R401, R407). -/
structure Wave where
  n : BitVec 32
  cutBy : List Nat
  injected : Bool
  complete : Bool
  peers : List Nat
  wrote : List Nat
  told : Bool
  deriving DecidableEq, Repr

/-- A partition with its recovery domain (R388, R408, R436). sealed is LSEALED; voidTo: every interval up to it has sealed or become void; cuts by
interval number; pend: a wave is requested; inval: invalidations in course; waiting page registers of INVAL; telmAt: the next telemetry period; ran:
the rectangles that phases have left, with the interval in which they last ran (R457); tally: the tokens of data kinds that agents other than tiles
have sent on a channel or received on it, by Dest.code x 2^32 + interval (R400). telmUndo: what TELM's unsealed changes replaced: their intervals,
telm and telmAt, oldest first (R323). -/
structure Partition where
  ix0 : Nat
  iy0 : Nat
  ix1 : Nat
  iy1 : Nat
  mem : PartMem
  cap : Nat
  qfirst : Nat
  qcnt : Nat
  dom : BitVec 16
  master : Bool
  deleting : Bool
  sealed : BitVec 32
  cur : BitVec 32
  voidTo : BitVec 32
  wper : BitVec 32
  autow : BitVec 16
  mrep : BitVec 16
  rbk : BitVec 16
  stall : BitVec 16
  pend : Bool
  wave : Option Wave
  cuts : Map Cut
  ring : Nat
  rings : Map Nat
  telm : Word
  telmAt : Nat
  inval : List (Option Nat)
  esaddr : Word
  kmat : List Byte
  kcmd : Word
  kres : BitVec 2
  ran : List ((Nat × Nat × Nat × Nat) × BitVec 32)
  tally : Map Nat
  telmUndo : List (BitVec 32 × Word × Nat)
  deriving DecidableEq, Repr

/-- The states of the region scheduler (R353); suspended stands for a saved phase that waits. -/
inductive RegState where
  | free | load | run | grace | save | suspended
  deriving DecidableEq, Repr

/-- What the last sweep of the quiescence tree saw (R352). -/
structure SweepSeen where
  idle : Bool
  sent : Nat
  got : Nat
  deriving DecidableEq, Repr

/-- The types of a queue (R437). -/
inductive QType where
  | launch | input | output
  deriving DecidableEq, Repr

/-- A queue (R437, R438). read: the next entry the device reads; recs: entries read ahead; bound: the stream end of an INPUT queue or the
channel of an OUTPUT queue; cuts: entries consumed before each cut; waitSince: when a LAUNCH queue last began to wait; start, bound: where the stream
started, and the interval in which its phase was configured (R457). -/
structure Queue where
  base : Word
  ctl : Word
  head : BitVec 32
  tail : BitVec 32
  read : BitVec 32
  port : Option OutPort
  chan : Option InChan
  eos : Bool
  placed : BitVec 32
  cuts : List (BitVec 32 × BitVec 32)
  waitSince : Option Nat
  img : Option Nat
  start : Option StreamCut
  bound : BitVec 32
  deriving DecidableEq, Repr

/-- The saved context of a phase (R380): its tiles, its M-tiles, their bytes by memory key, the interval and the time it was saved in, the records its
phase would restart from and their interval (R457), and the ends of its channels at host queues, at shore actors (1,024 actor + port) and at
collective units (unit, place, credits); its aliases, the tiles of its movable actors and when they last moved; answers: those held for its frozen
invocations, tile, EKILL and handle (R372). -/
structure Saved where
  tiles : Map CTile
  mts : Map MTile
  mem : List Host.Cell
  rin : BitVec 32
  time : Nat
  queues : Map Queue
  shores : Map (Option InChan × Option OutPort)
  colls : List (Nat × Nat × Nat)
  moved : List (Nat × Nat)
  mig : List Nat
  movedAt : Map Nat
  conf : Map CTile
  confGens : Map (List Gen)
  cfgRin : BitVec 32
  answers : List (Nat × Bool × Word)
  deriving DecidableEq, Repr

/-- A rebalancer move in course: actor's tile, target, start time, and the step reached (R363). -/
structure Move where
  src : Nat
  dst : Nat
  start : Nat
  step : Nat
  deriving DecidableEq, Repr

/-- What telemetry reports of a region's last budget period (R361): the time of its end, powers and grant in mW, the least and the greatest
frequency (MHz), fetch duty and voltage (mV). -/
structure RegMeasure where
  ended : Nat
  power : Nat
  grant : Nat
  temp : Int
  freq : Nat × Nat
  duty : Nat × Nat
  volt : Nat × Nat
  ballast : Nat
  forced : Bool
  thermal : Bool
  held : Bool
  moves : Nat
  deriving DecidableEq, Repr

/-- A region of a launched image (grant, demand, floor, forced and held: of the running budget period, R357 to R359): its index in the image,
rectangle, the phase configured there, and its scheduling (R268, R353 to R356). drain: the grace period is over, every handler has been aborted and
the engines run empty; saved: the contexts of its suspended phases; causes: those that have come and not acted; hot: samples in a row per tile;
movedAt: when a tile's actor last moved; back: the interval that its agents took when it last resumed, until that seals (R405); savedAt: the time of its
last save (R378); moves: moves completed in the running period (R361); born: flits from message number born on count in its sweeps (R352). -/
structure Region where
  img : Nat
  index : Nat
  ix0 : Nat
  iy0 : Nat
  ix1 : Nat
  iy1 : Nat
  units : Nat
  theta : Nat
  st : RegState
  drain : Bool
  phase : Nat
  since : Nat
  quantum : Nat
  graceEnd : Nat
  seen : Option SweepSeen
  quiet : Bool
  powerSum : Nat
  powerN : Nat
  causes : List PreemptCause
  rver : BitVec 4
  moved : List (Nat × Nat)
  move : Option Move
  hot : Map Nat
  movedAt : Map Nat
  mig : List Nat
  saved : Map Saved
  answers : List (Nat × Bool × Word)
  conf : Map CTile
  confGens : Map (List Gen)
  cfgRin : BitVec 32
  back : Option (BitVec 32)
  savedAt : Nat
  moves : Nat
  born : Nat
  grant : Nat
  demand : Nat
  floor : Nat
  forced : Bool
  held : Bool
  meas : RegMeasure
  deriving DecidableEq, Repr

/-- A program image that a queue has launched and that has not ended (R350): its launch record's fields. phase: its current
phase; waits: since when that phase has waited; phs: region index and minimum quantum of every phase; powers: the last power of a
phase; cswp: the phase that a pending CSWP names, with the interval of its commit (R217, R356). -/
structure Image where
  part : Nat
  queue : Nat
  image : Word
  len : Nat
  phase : Nat
  supv : BitVec 22
  iqb : Nat
  oqb : Nat
  done : Word
  utag : Word
  regs : List Nat
  started : Bool
  waits : Nat
  phs : List (Nat × Nat)
  powers : Map Nat
  cswp : Option (Nat × BitVec 32)
  deriving DecidableEq, Repr

/-- A launch slot (R351): the queue (by partition x 4096 + q) and when it was mapped. -/
structure LSlot where
  queue : Nat
  since : Nat
  deriving DecidableEq, Repr

/-- The SR-IOV state and the link of a host port (R433). -/
structure HostPort where
  up : Bool
  vfEnable : Bool
  numVfs : Nat
  deriving DecidableEq, Repr

/-- One island as the power budget tree sees it (R357, R358): frequency in MHz, voltage in mV, grant and measured power in mW; ball: ballast
passes of the period. at0, cyc0: when it took this frequency, and the tile cycles that its tiles had counted by then (R11, R46). -/
structure Island where
  f : Nat
  v : Nat
  duty : Nat
  power : Nat
  temp : Int
  capped : Bool
  grant : Nat
  fcap : Nat
  ball : Nat
  at0 : Nat
  cyc0 : Nat
  deriving DecidableEq, Repr

/-- An energy account (R451, R453): microjoules, the hidden fraction in 2^-16 uJ, reading number, and what flash holds. -/
structure Energy where
  uj : Word
  frac : Nat
  rnum : Word
  flashUj : Word
  flashRnum : Word
  deriving DecidableEq, Repr

/-- A PARTDEF register set (R436): words 0 to 3 as software wrote them. -/
structure PartDef where
  w0 : Word
  w1 : Word
  w2 : Word
  w3 : Word
  deriving DecidableEq, Repr

/-- What a module is built with and keeps without power (R423, R442, R445): fused holes, fused binned maxima (1,900 MHz where absent), fuse
parity, serial, minimum security version and unique secret; the two firmware slots, the defect map and the device certificate in flash. -/
structure Fuses where
  holes : List Nat
  fmax : Map Nat
  parityOk : Bool
  serial : Word
  minSvn : Nat
  secret : BitVec 256
  slotA : List Byte
  slotB : List Byte
  defectMap : List Byte
  cert : List Byte
  deriving DecidableEq, Repr

/-- The registers of a partition window that stand while the partition is not defined (R435, R439, R449, R454). -/
structure Window where
  spans : List Word
  root : Word
  wper : BitVec 32
  esaddr : Word
  kmat : List Byte
  kcmd : Word
  kres : BitVec 2
  deriving DecidableEq, Repr

/-- Headland (R433 to R455). Energy key 64 is the house account. ballast: the power that ballast passes still owe in this period, in units of 1 /
562,500 nJ (R359); draw: the measured draw of the last period in mW; granted: the grants of the last period in mW (R355). mctpReplies: answers that
wait for their requesters, in units of 64 bytes. kmat, kcmd, kres: the key registers of module space; idKey: the device identity key, by its seed (R446);
windows: the window registers of partitions that are not defined; lowFlow: since when the inlet flow has been below the minimum (R455). -/
structure Headland where
  hbmok : BitVec 32
  map : BitVec 2
  mapErr : BitVec 4
  fwB : Bool
  recov : Bool
  trip : Bool
  bootStep : BitVec 3
  fwSvn : BitVec 16
  slotSvn : BitVec 16
  fwResult : BitVec 4
  fwAddr : Word
  fwLen : BitVec 32
  fwMeasure : List Byte
  mapMeasure : List Byte
  attAddr : Word
  nonceIn : List Byte
  budget : BitVec 16
  sundo : BitVec 4
  partdefs : Map PartDef
  keys : Map (List Byte)
  kmat : List Byte
  kcmd : Word
  kres : BitVec 2
  energy : Map Energy
  islands : Map Island
  ballast : Nat
  draw : Nat
  granted : Nat
  mctpReplies : List (MctpEp × List Byte)
  idKey : List Byte
  windows : Map Window
  lowFlow : Option Nat
  powered : Bool
  deriving DecidableEq, Repr

end Sys2Proof.Machine
end

