-- ==== Sys2Proof/Machine/Numfmt.lean ====
section
/-!
DEFINITION. Number formats and exact arithmetic (R98 to R118, R247 to R257). A finite value is a sign and a dyadic magnitude m * 2^e; a
result is computed exactly, or with its lowest bit sticky where it is irrational or a quotient, and rounded once.
-/

namespace Sys2Proof.Machine

open Sys2Proof

-- Status bits (R47)

abbrev Status := BitVec 6
def stNV : Status := 1
def stDZ : Status := 2
def stOF : Status := 4
def stUF : Status := 8
def stNX : Status := 16
def stQINF : Status := 32

/-- A value: NaN (signalling or not), infinity, or a finite value with its sign (a zero keeps its sign). -/
inductive FV where
  | nan (sig : Bool)
  | inf (neg : Bool)
  | fin (neg : Bool) (m : Nat) (e : Int)
  deriving DecidableEq, Repr

/-- Which codes of a format are special (R249). -/
inductive Special where
  | ieee | topOnly | none
  deriving DecidableEq, Repr

/-- A floating format (R247): fraction bits, exponent bits, bias, special codes, and whether its NaNs have a quiet bit. -/
structure Fmt where
  m : Nat
  ebits : Nat
  bias : Int
  sp : Special
  quiet : Bool
  deriving DecidableEq, Repr

def fp32 : Fmt := ⟨23, 8, 127, .ieee, true⟩
def fp16 : Fmt := ⟨10, 5, 15, .ieee, true⟩
def bf16 : Fmt := ⟨7, 8, 127, .ieee, true⟩
def e8m10 : Fmt := ⟨10, 8, 127, .ieee, false⟩
def e4m3 : Fmt := ⟨3, 4, 7, .topOnly, false⟩
def e5m2 : Fmt := ⟨2, 5, 15, .ieee, false⟩
def e3m2 : Fmt := ⟨2, 3, 3, .none, false⟩
def e2m3 : Fmt := ⟨3, 2, 1, .none, false⟩
def e2m1 : Fmt := ⟨1, 2, 1, .none, false⟩

def Fmt.emin (f : Fmt) : Int := 1 - f.bias
def Fmt.width (f : Fmt) : Nat := 1 + f.ebits + f.m

/-- The value of a code (R248, R249). -/
def Fmt.val (f : Fmt) (c : Nat) : FV :=
  let neg := c / 2 ^ (f.ebits + f.m) % 2 == 1
  let e := c / 2 ^ f.m % 2 ^ f.ebits
  let t := c % 2 ^ f.m
  let ones := e + 1 == 2 ^ f.ebits
  if f.sp = .ieee ∧ ones then (if t = 0 then .inf neg else .nan (f.quiet && t / 2 ^ (f.m - 1) == 0))
  else if f.sp = .topOnly ∧ ones ∧ t + 1 = 2 ^ f.m then .nan false
  else if e = 0 then .fin neg t (f.emin - f.m)
  else .fin neg (2 ^ f.m + t) ((e : Int) - f.bias - f.m)

/-- 2^k for a nonnegative exponent, 1 otherwise. -/
def pow2 (k : Int) : Nat := 2 ^ k.toNat

/-- R253: whether a magnitude with quotient k and remainder r of 2^sh rounds up in magnitude. -/
def roundsUp (rm : BitVec 3) (neg : Bool) (k r sh : Nat) : Bool :=
  if r = 0 then false
  else match rm.toNat with
    | 0 => decide (2 ^ sh < 2 * r) || (2 * r == 2 ^ sh && k % 2 == 1)
    | 1 => false
    | 2 => neg
    | 3 => !neg
    | _ => decide (2 ^ sh ≤ 2 * r)

/-- m * 2^e rounded to a multiple of 2^q under rm: the multiple and whether it is inexact. -/
def roundAt (rm : BitVec 3) (neg : Bool) (m : Nat) (e q : Int) : Nat × Bool :=
  if q ≤ e then (m * pow2 (e - q), false)
  else
    let sh := (q - e).toNat
    let k := m / 2 ^ sh
    let r := m % 2 ^ sh
    (if roundsUp rm neg k r sh then k + 1 else k, r != 0)

/-- The exponent of the unit in the last place of a nonzero magnitude in a format (R253). -/
def ulpExp (mbits : Nat) (emin : Int) (m : Nat) (e : Int) : Int := max (e + Nat.log2 m) emin - mbits

/-- The comparison of two dyadic magnitudes. -/
def magLt (m1 : Nat) (e1 : Int) (m2 : Nat) (e2 : Int) : Bool :=
  decide (m1 * pow2 (e1 - min e1 e2) < m2 * pow2 (e2 - min e1 e2))

/-- The code of k * 2^q (k below 2^(m+1), on the format's grid) without its sign. -/
def Fmt.encMag (f : Fmt) (k : Nat) (q : Int) : Nat :=
  if k < 2 ^ f.m then k
  else if k = 2 ^ (f.m + 1) then (q + 1 + f.m + f.bias).toNat * 2 ^ f.m
  else (q + f.m + f.bias).toNat * 2 ^ f.m + (k - 2 ^ f.m)

def Fmt.signBit (f : Fmt) (neg : Bool) : Nat := if neg then 2 ^ (f.ebits + f.m) else 0

/-- The largest finite code of an IEEE format, without its sign. -/
def Fmt.maxCode (f : Fmt) : Nat := (2 ^ f.ebits - 2) * 2 ^ f.m + (2 ^ f.m - 1)
def Fmt.infCode (f : Fmt) : Nat := (2 ^ f.ebits - 1) * 2 ^ f.m
/-- The default NaN (R53). -/
def Fmt.qnan (f : Fmt) : Nat := f.infCode + 2 ^ (f.m - 1)

/-- R98, generalised to FP16 and BF16 by R106: the pattern and status of an exact value. A zero value gives a zero of the sign given. -/
def Fmt.result (f : Fmt) (rm : BitVec 3) (neg : Bool) (m : Nat) (e : Int) : Nat × Status :=
  if m = 0 then (f.signBit neg, 0)
  else
    let q := ulpExp f.m f.emin m e
    let r := roundAt rm neg m e q
    let top := (2 : Int) ^ f.ebits - 2 - f.bias
    if 2 ^ (f.m + 1) * pow2 (top - f.m - min q (top - f.m)) ≤ r.1 * pow2 (q - min q (top - f.m)) then
      (f.signBit neg + (if rm = 0 ∨ rm = 4 ∨ (rm = 3 ∧ !neg) ∨ (rm = 2 ∧ neg) then f.infCode else f.maxCode), stOF ||| stNX)
    else (f.signBit neg + f.encMag r.1 q,
      if r.2 then (if magLt m e 1 f.emin then stNX ||| stUF else stNX) else 0)

/-- Adds two signed dyadic values exactly; the sum's sign is meaningful only when it is not zero. -/
def dyAdd (n1 : Bool) (m1 : Nat) (e1 : Int) (n2 : Bool) (m2 : Nat) (e2 : Int) : Bool × Nat × Int :=
  let e := min e1 e2
  let a : Int := (if n1 then -1 else 1) * (m1 * pow2 (e1 - e) : Nat)
  let b : Int := (if n2 then -1 else 1) * (m2 * pow2 (e2 - e) : Nat)
  (decide (a + b < 0), (a + b).natAbs, e)

abbrev F32 := BitVec 32

def f32 (n : Nat) : F32 := BitVec.ofNat 32 n
def qnan32 : F32 := 0x7FC00000
def val32 (x : F32) : FV := fp32.val x.toNat
def inf32 (neg : Bool) : F32 := if neg then 0xFF800000 else 0x7F800000
def zero32 (neg : Bool) : F32 := if neg then 0x80000000 else 0
def res32 (rm : BitVec 3) (neg : Bool) (m : Nat) (e : Int) : F32 × Status :=
  let r := fp32.result rm neg m e
  (f32 r.1, r.2)

/-- R99: NV for a signalling NaN among the operands. -/
def sigNV (x : FV) : Status := match x with
  | .nan true => stNV
  | _ => 0

def FV.isNan (x : FV) : Bool := match x with
  | .nan _ => true
  | _ => false

/-- The sum of two values: fp32_result with IEEE zero signs (R98, R100). -/
def fvAdd (rm : BitVec 3) (x y : FV) : F32 × Status :=
  match x, y with
  | .nan _, _ => (qnan32, sigNV x ||| sigNV y)
  | _, .nan _ => (qnan32, sigNV x ||| sigNV y)
  | .inf a, .inf b => if a = b then (inf32 a, 0) else (qnan32, stNV)
  | .inf a, _ => (inf32 a, 0)
  | _, .inf b => (inf32 b, 0)
  | .fin n1 m1 e1, .fin n2 m2 e2 =>
    let t := dyAdd n1 m1 e1 n2 m2 e2
    if t.2.1 = 0 then (zero32 (if m1 = 0 ∧ m2 = 0 ∧ n1 = n2 then n1 else rm == 2), 0)
    else res32 rm t.1 t.2.1 t.2.2

def FV.neg (x : FV) : FV := match x with
  | .nan s => .nan s
  | .inf n => .inf (!n)
  | .fin n m e => .fin (!n) m e

def fAdd (rm : BitVec 3) (a b : F32) : F32 × Status := fvAdd rm (val32 a) (val32 b)
def fSub (rm : BitVec 3) (a b : F32) : F32 × Status := fvAdd rm (val32 a) (val32 b).neg

/-- The exact product of two values, with NV for 0 times infinity. -/
def fvMul (x y : FV) : FV × Status :=
  match x, y with
  | .nan _, _ => (.nan false, sigNV x ||| sigNV y)
  | _, .nan _ => (.nan false, sigNV x ||| sigNV y)
  | .inf a, .inf b => (.inf (a != b), 0)
  | .inf a, .fin n m _ => if m = 0 then (.nan false, stNV) else (.inf (a != n), 0)
  | .fin n m _, .inf b => if m = 0 then (.nan false, stNV) else (.inf (n != b), 0)
  | .fin n1 m1 e1, .fin n2 m2 e2 => (.fin (n1 != n2) (m1 * m2) (e1 + e2), 0)

/-- fp32_result of a value already in hand. -/
def fvResult (rm : BitVec 3) (x : FV) : F32 × Status :=
  match x with
  | .nan _ => (qnan32, 0)
  | .inf n => (inf32 n, 0)
  | .fin n m e => res32 rm n m e

def fMul (rm : BitVec 3) (a b : F32) : F32 × Status :=
  let p := fvMul (val32 a) (val32 b)
  let r := fvResult rm p.1
  (r.1, r.2 ||| p.2)

/-- The magnitude m1 2^e1 / m2 2^e2 with a sticky lowest bit, well below any rounding position. -/
def quotient (m1 : Nat) (e1 : Int) (m2 : Nat) (e2 : Int) : Nat × Int :=
  let k := 80 + Nat.log2 m2
  let n := m1 * 2 ^ k
  (2 * (n / m2) + (if n % m2 = 0 then 0 else 1), e1 - e2 - k - 1)

def fvDiv (rm : BitVec 3) (x y : FV) : F32 × Status :=
  match x, y with
  | .nan _, _ => (qnan32, sigNV x ||| sigNV y)
  | _, .nan _ => (qnan32, sigNV x ||| sigNV y)
  | .inf _, .inf _ => (qnan32, stNV)
  | .inf a, .fin n _ _ => (inf32 (a != n), 0)
  | .fin n _ _, .inf b => (zero32 (n != b), 0)
  | .fin n1 m1 e1, .fin n2 m2 e2 =>
    if m2 = 0 then (if m1 = 0 then (qnan32, stNV) else (inf32 (n1 != n2), stDZ))
    else if m1 = 0 then (zero32 (n1 != n2), 0)
    else
      let q := quotient m1 e1 m2 e2
      res32 rm (n1 != n2) q.1 q.2

def fDiv (rm : BitVec 3) (a b : F32) : F32 × Status := fvDiv rm (val32 a) (val32 b)

/-- The integer square root, bit by bit from bit b - 1. -/
def isqrt (n b r : Nat) : Nat :=
  match b with
  | 0 => r
  | b + 1 => isqrt n b (if (r + 2 ^ b) * (r + 2 ^ b) ≤ n then r + 2 ^ b else r)

/-- The root of m 2^e with a sticky lowest bit. -/
def rootOf (m : Nat) (e : Int) : Nat × Int :=
  let odd := e % 2 = 1
  let n := (if odd then 2 * m else m) * 2 ^ 128
  let e' := (if odd then e - 1 else e) / 2 - 64
  let r := isqrt n (Nat.log2 n / 2 + 1) 0
  (2 * r + (if r * r = n then 0 else 1), e' - 1)

def fSqrt (rm : BitVec 3) (a : F32) : F32 × Status :=
  match val32 a with
  | .nan s => (qnan32, sigNV (.nan s))
  | .inf n => if n then (qnan32, stNV) else (inf32 false, 0)
  | .fin n m e =>
    if m = 0 then (zero32 n, 0)
    else if n then (qnan32, stNV)
    else
      let r := rootOf m e
      res32 rm false r.1 r.2

/-- R153: 1 / sqrt, correctly rounded. -/
def fRsq (rm : BitVec 3) (a : F32) : F32 × Status :=
  match val32 a with
  | .nan s => (qnan32, sigNV (.nan s))
  | .inf n => if n then (qnan32, stNV) else (zero32 false, 0)
  | .fin n m e =>
    if m = 0 then (inf32 n, stDZ)
    else if n then (qnan32, stNV)
    else
      let k := 400 + 2 * Nat.log2 m
      let r := rootOf ((2 ^ k / m) * 4 + (if 2 ^ k % m = 0 then 0 else 1)) (-e - k - 2)
      res32 rm false r.1 r.2

/-- FRND (R100): an integral value, never NX. -/
def fRnd (rm : BitVec 3) (a : F32) : F32 × Status :=
  match val32 a with
  | .nan s => (qnan32, sigNV (.nan s))
  | .inf n => (inf32 n, 0)
  | .fin n m e =>
    let r := roundAt rm n m e 0
    if 0 ≤ e then (a, 0) else (f32 (fp32.result 0 n r.1 0).1, 0)

/-- Fixed-point precision of 2^x, in bits. -/
def expBits : Nat := 160

/-- The product of 2^(2^-j) over the fraction bits set: frac is the fraction in units of 2^-bits; root is 2^(2^-(j-1)) in fixed point. -/
def expLoop (frac bits : Nat) (root acc : Nat) : Nat :=
  match bits with
  | 0 => acc
  | b + 1 =>
    let r := isqrt (root * 2 ^ expBits) (expBits + 2) 0
    expLoop frac b r (if frac / 2 ^ b % 2 = 1 then acc * r / 2 ^ expBits else acc)

/-- FEXP2 (R100), correctly rounded: an irrational result carries a sticky bit at 2^-160. -/
def fExp2 (rm : BitVec 3) (a : F32) : F32 × Status :=
  match val32 a with
  | .nan s => (qnan32, sigNV (.nan s))
  | .inf n => if n then (zero32 false, 0) else (inf32 false, 0)
  | .fin n m e =>
    if m = 0 then (0x3F800000, 0)
    else if magLt 128 0 m e || (m * pow2 e == 128 && decide (0 ≤ e)) then
      (if n then (if magLt m e 161 0 then res32 rm false (expLoopInt n m e).1 (expLoopInt n m e).2 else res32 rm false 1 (-400)) else res32 rm false 1 200)
    else if magLt m e 1 (-60) then
      -- 2^x is 1 + d with 0 < |d| below 2^-60: sticky on the side of its sign
      res32 rm false (if n then 2 ^ 100 - 1 else 2 ^ 100 + 1) (-100)
    else res32 rm false (expLoopInt n m e).1 (expLoopInt n m e).2
where
  /-- 2^(sign m 2^e) as a dyadic magnitude, with sticky bit when the exponent is no integer. -/
  expLoopInt (n : Bool) (m : Nat) (e : Int) : Nat × Int :=
    if 0 ≤ e then (1, (if n then -1 else 1) * (m * pow2 e : Nat))
    else
      let sh := (-e).toNat
      let i := m / 2 ^ sh
      let fr := m % 2 ^ sh
      if fr = 0 then (1, if n then -(i : Int) else i)
      else
        let j : Int := if n then -(i : Int) - 1 else i
        let g := if n then 2 ^ sh - fr else fr
        (2 * expLoop g sh (2 ^ (expBits + 1)) (2 ^ expBits) + 1, j - expBits - 1)

/-- The first bits of log2 of y in [1, 2), y in fixed point of 320 bits (R100). -/
def logLoop (y bits acc : Nat) : Nat :=
  match bits with
  | 0 => acc
  | b + 1 =>
    let z := y * y / 2 ^ 320
    if 2 ^ 321 ≤ z then logLoop (z / 2) b (2 * acc + 1) else logLoop z b (2 * acc)

/-- FLOG2 (R100), correctly rounded. -/
def fLog2 (rm : BitVec 3) (a : F32) : F32 × Status :=
  match val32 a with
  | .nan s => (qnan32, sigNV (.nan s))
  | .inf n => if n then (qnan32, stNV) else (inf32 false, 0)
  | .fin n m e =>
    if m = 0 then (inf32 true, stDZ)
    else if n then (qnan32, stNV)
    else
      let k := Nat.log2 m
      let x : Int := e + k
      if m = 2 ^ k then res32 rm (decide (x < 0)) x.natAbs 0
      else
        let v : Int := 2 * (x * 2 ^ 120 + logLoop (m * 2 ^ (320 - k)) 120 0) + 1
        res32 rm (decide (v < 0)) v.natAbs (-121)

/-- The order of R101 and R102 on values that are no NaN: less, equal, greater as -1, 0, 1; zeros of both signs are equal. -/
def fvCmp (x y : FV) : Int :=
  match x, y with
  | .inf a, .inf b => if a = b then 0 else if a then -1 else 1
  | .inf a, _ => if a then -1 else 1
  | _, .inf b => if b then 1 else -1
  | .fin n1 m1 e1, .fin n2 m2 e2 =>
    let t := dyAdd n1 m1 e1 (!n2) m2 e2
    if t.2.1 = 0 then 0 else if t.1 then -1 else 1
  | _, _ => 0

/-- FMIN and FMAX (R101): -0 is below +0. -/
def fMinMax (isMax : Bool) (a b : F32) : F32 × Status :=
  let x := val32 a
  let y := val32 b
  let st := sigNV x ||| sigNV y
  if x.isNan && y.isNan then (qnan32, st)
  else if x.isNan then (b, st)
  else if y.isNan then (a, st)
  else
    let less := decide (fvCmp x y < 0) || (fvCmp x y == 0 && a.msb && !b.msb)
    (if less == isMax then b else a, st)

/-- FTEQ 0, FTLT 1, FTLE 2, FTUN 3 (R102). -/
def fTest (op : Nat) (a b : F32) : Bool × Status :=
  let x := val32 a
  let y := val32 b
  let nan := x.isNan || y.isNan
  let st := if (op = 1 ∨ op = 2) ∧ nan then stNV else sigNV x ||| sigNV y
  (if op = 3 then nan else if nan then false
   else if op = 0 then fvCmp x y == 0 else if op = 1 then decide (fvCmp x y < 0) else decide (fvCmp x y ≤ 0), st)

/-- FCLASS (R102). -/
def fClass (a : F32) : Nat :=
  match val32 a with
  | .inf n => if n then 1 else 0x80
  | .nan s => if s then 0x100 else 0x200
  | .fin n m _ => if m = 0 then (if n then 8 else 16) else if m < 2 ^ 23 then (if n then 4 else 32) else (if n then 2 else 64)

/-- FFMA (R103). -/
def fFma (rm : BitVec 3) (a b c : F32) : F32 × Status :=
  let p := fvMul (val32 a) (val32 b)
  let z := val32 c
  match p.1 with
  | .nan _ => (qnan32, p.2 ||| sigNV z)
  | _ =>
    match z with
    | .nan _ => (qnan32, p.2 ||| sigNV z)
    | _ => fvAdd rm p.1 z

-- Conversions (R104 to R107)

/-- CVTFI: to an integer in [lo, hi], modulo 2^64. -/
def cvtFI (rm : BitVec 3) (lo hi : Int) (a : F32) : Int × Status :=
  match val32 a with
  | .nan _ => (0, stNV)
  | .inf n => (if n then lo else hi, stNV)
  | .fin n m e =>
    let r := roundAt rm n m e 0
    let y : Int := (if n then -1 else 1) * (r.1 : Int)
    if y < lo then (lo, stNV) else if hi < y then (hi, stNV) else (y, if r.2 then stNX else 0)

/-- CVTIF: from an integer. -/
def cvtIF (rm : BitVec 3) (v : Int) : F32 × Status := res32 rm (decide (v < 0)) v.natAbs 0

/-- CVTFF.h and CVTFF.bf (R106). -/
def cvtFF (f : Fmt) (rm : BitVec 3) (a : F32) : Nat × Status :=
  match val32 a with
  | .nan s => (f.qnan, sigNV (.nan s))
  | .inf n => (f.signBit n + f.infCode, 0)
  | .fin n m e => f.result rm n m e

/-- Widens a value to FP32 exactly (R106, R107). -/
def widen (x : FV) : F32 :=
  match x with
  | .nan _ => qnan32
  | .inf n => inf32 n
  | .fin n m e => (res32 0 n m e).1

/-- The value of one element of a format code (R39, R107, R251, R252); tab is the decode table that applies. -/
def elemVal (f : Nat) (c : Nat) (tab : List Word32) : FV :=
  match f with
  | 0x0 => fp32.val c
  | 0x1 => fp16.val (c % 2 ^ 16)
  | 0x2 => bf16.val (c % 2 ^ 16)
  | 0x3 => e4m3.val (c % 256)
  | 0x4 => e5m2.val (c % 256)
  | 0x5 => e3m2.val (c % 64)
  | 0x6 => e2m3.val (c % 64)
  | 0x7 => e2m1.val (c % 16)
  | 0x8 => let v := (BitVec.ofNat 8 c).toInt; .fin (decide (v < 0)) v.natAbs 0
  | 0x9 => .fin false (c % 256) 0
  | 0xA => let v := (BitVec.ofNat 4 c).toInt; .fin (decide (v < 0)) v.natAbs 0
  | _ => e8m10.val (((tab[c % 256]?).getD 0).toNat % 2 ^ 19)

-- Quantisation (R108 to R114)

/-- A quantised target: floating with its Max, Inf and NaN codes, or integer with its bounds (R108). -/
inductive QTarget where
  | flt (f : Fmt) (maxc : Nat) (infc nanc : Option Nat)
  | int (w : Nat) (lo hi : Int)
  deriving DecidableEq, Repr

def qTarget (f : Nat) : QTarget :=
  match f with
  | 0x3 => .flt e4m3 0x7E none (some 0x7F)
  | 0x4 => .flt e5m2 0x7B (some 0x7C) (some 0x7E)
  | 0x5 => .flt e3m2 0x1F none none
  | 0x6 => .flt e2m3 0x1F none none
  | 0x7 => .flt e2m1 0x7 none none
  | 0x8 => .int 8 (-128) 127
  | 0x9 => .int 8 0 255
  | _ => .int 4 (-8) 7

/-- emax of R108, which BSCALE uses. -/
def qEmax (f : Nat) : Int :=
  match f with
  | 0x3 => 8 | 0x4 => 15 | 0x5 => 4 | 0x6 => 2 | 0x7 => 2 | 0x8 => 6 | 0x9 => 7 | _ => 2

/-- The code of an integer in width w. -/
def intCode (w : Nat) (v : Int) : Nat := (BitVec.ofInt w v).toNat

/-- A magnitude rounded to a multiple of 2^q: under rm, or stochastically with draw r (R255). -/
def quantRound (sr : Bool) (rm : BitVec 3) (r : Nat) (neg : Bool) (m : Nat) (e q : Int) : Nat × Bool :=
  if sr then
    if q ≤ e then (m * pow2 (e - q), false)
    else
      let sh := (q - e).toNat
      let k := m / 2 ^ sh
      let d := m % 2 ^ sh * 2 ^ 16 / 2 ^ sh
      (if 2 ^ 16 ≤ d + r then k + 1 else k, m % 2 ^ sh != 0)
  else roundAt rm neg m e q

/-- quant (R109). mode: 0 sat, 1 nsat, 2 sr. -/
def quant (x : F32) (sc : Nat) (f mode : Nat) (rm : BitVec 3) (r : Nat) : Nat × Status :=
  let t := qTarget f
  match val32 x with
  | .nan _ => (nanOf t, stNV)
  | .inf n => if sc = 0xFF then (nanOf t, stNV) else (infOf t mode n, stQINF)
  | .fin n m e =>
    if sc = 0xFF then (nanOf t, stNV)
    else
      let e := e + 127 - sc
      match t with
      | .int w lo hi =>
        let k := quantRound (mode == 2) rm r n m e 0
        let z : Int := (if n then -1 else 1) * (k.1 : Int)
        if z < lo then (intCode w lo, stOF ||| stNX) else if hi < z then (intCode w hi, stOF ||| stNX)
        else (intCode w z, if k.2 then stNX else 0)
      | .flt g maxc _ _ =>
        if m = 0 then (g.signBit n, 0)
        else
          let q := ulpExp g.m g.emin m e
          let k := quantRound (mode == 2) rm r n m e q
          let top := match g.val maxc with
            | .fin _ mm ee => (mm, ee)
            | _ => (0, 0)
          if magLt top.1 top.2 k.1 q then ((if mode = 1 then ovOf t n else g.signBit n + maxc), stOF ||| stNX)
          else (g.signBit n + g.encMag k.1 q, if k.2 then (if magLt m e 1 g.emin then stNX ||| stUF else stNX) else 0)
where
  nanOf (t : QTarget) : Nat := match t with
    | .flt _ _ _ (some c) => c
    | _ => 0
  /-- Overflow in mode nsat: the Inf code, else the NaN code. -/
  ovOf (t : QTarget) (n : Bool) : Nat := match t with
    | .flt g _ (some c) _ => g.signBit n + c
    | .flt _ _ none (some c) => c
    | _ => 0
  infOf (t : QTarget) (mode : Nat) (n : Bool) : Nat := match t with
    | .flt g _ (some c) _ => g.signBit n + c
    | .flt g maxc none nc => if mode = 1 then nc.getD 0 else g.signBit n + maxc
    | .int w lo hi => intCode w (if n then lo else hi)

/-- draw16 (R53): the next state of a generator. -/
def draw16Next (g : BitVec 32) : BitVec 32 :=
  let g := g ^^^ (g <<< 13)
  let g := g ^^^ (g >>> 17)
  g ^^^ (g <<< 5)

/-- The bits a draw delivers: 31:16 of the new state. -/
def drawBits (g : BitVec 32) : Nat := g.toNat / 2 ^ 16

/-- The generator after k draws. -/
def drawsAfter (g : BitVec 32) (k : Nat) : BitVec 32 :=
  match k with
  | 0 => g
  | k + 1 => drawsAfter (draw16Next g) k

/-- The scale of a block with largest finite magnitude m 2^e (R112). -/
def scaleOf (f : Nat) (m : Nat) (e : Int) : Nat :=
  if m = 0 then 0
  else
    let s : Int := e + Nat.log2 m - qEmax f + 127
    if s < 0 then 0 else if 254 < s then 254 else s.toNat

/-- BSCALE (R112). -/
def bscale (f : Nat) (a : F32) : Nat × Status :=
  match val32 a with
  | .nan _ => (0xFF, stNV)
  | .inf _ => (0xFE, stQINF)
  | .fin _ m e => (scaleOf f m e, 0)

/-- The largest finite magnitude among FP32 words (R114). -/
def maxMag (xs : List F32) : Nat × Int :=
  xs.foldl (fun a x => match val32 x with
    | .fin _ m e => if magLt a.1 a.2 m e then (m, e) else a
    | _ => a) (0, 0)

/-- QBLK's codes, scale and status (R114); rs are the draws. -/
def qblkCodes (f mode : Nat) (rm : BitVec 3) (xs : List F32) (rs : List Nat) : List Nat × Nat × Status :=
  if xs.any (fun x => (val32 x).isNan) then (xs.map (fun _ => 0), 0xFF, stNV)
  else
    let a := maxMag xs
    let sc := scaleOf f a.1 a.2
    let qs := (xs.zip (rs ++ List.replicate xs.length 0)).map (fun p => quant p.1 sc f mode rm p.2)
    (qs.map (·.1), sc, qs.foldl (fun st q => st ||| q.2) 0)

/-- A value times a power of two, as fp32_result under RNE (R115, R157). -/
def scaled (x : FV) (sc : Nat) : F32 × Status :=
  if sc = 0xFF then (qnan32, 0)
  else match x with
    | .fin n m e => res32 0 n m (e + sc - 127)
    | y => (widen y, 0)

/-- Codes of width w packed as a little-endian bit string (R113). -/
def packCodes (w : Nat) (cs : List Nat) : Nat :=
  match cs with
  | [] => 0
  | c :: r => c % 2 ^ w + 2 ^ w * packCodes w r

/-- n codes of width w from a bit string. -/
def unpackCodes (w n v : Nat) : List Nat :=
  match n with
  | 0 => []
  | n + 1 => v % 2 ^ w :: unpackCodes w n (v / 2 ^ w)

/-- The E8M10 grid of a decode table at tile reset (R252). -/
def e4m3Entry (i : Nat) : Word32 :=
  match e4m3.val i with
  | .nan _ => if i < 128 then 0x3FE00 else 0x7FE00
  | .inf _ => 0
  | .fin n m e => f32 (e8m10.result 0 n m e).1

def resetTable : List Word32 := (List.range 256).map e4m3Entry

/-- The binary search of LUTENC (R118) with fuel 8. -/
def lutSearch (tab : List Word32) (x : FV) (lo hi fuel : Nat) : Nat × Nat :=
  match fuel with
  | 0 => (lo, hi)
  | k + 1 =>
    if hi - lo ≤ 1 then (lo, hi)
    else
      let mid := (lo + hi) / 2
      let y := elemVal 0xB mid tab
      if !y.isNan && decide (fvCmp y x ≤ 0) then lutSearch tab x mid hi k else lutSearch tab x lo mid k

/-- dist of R118: none is infinite. -/
def lutDist (x y : FV) : Option (Nat × Int) :=
  if !x.isNan && !y.isNan && fvCmp x y == 0 then some (0, 0)
  else match x, y with
    | .fin n1 m1 e1, .fin n2 m2 e2 =>
      let t := dyAdd n1 m1 e1 (!n2) m2 e2
      some (t.2.1, t.2.2)
    | _, _ => none

/-- LUTENC (R118). -/
def lutEnc (tab : List Word32) (a : F32) : Nat × Status :=
  let x := val32 a
  if x.isNan then (((List.range 256).find? (fun i => (elemVal 0xB i tab).isNan)).getD 0, stNV)
  else
    let r := lutSearch tab x 0 255 8
    let d (i : Nat) := lutDist x (elemVal 0xB i tab)
    let less (i j : Nat) : Bool := match d i, d j with
      | some u, some v => magLt u.1 u.2 v.1 v.2
      | some _, none => true
      | none, _ => false
    let code := if less r.1 r.2 then r.1 else if less r.2 r.1 then r.2 else if r.1 % 2 = 0 then r.1 else r.2
    (code, match d code with
      | some (0, _) => 0
      | _ => stNX)

end Sys2Proof.Machine
end

