-- ==== Sys2Proof/Machine/State.lean ====
section
/-!
DEFINITION. The machine's state as plain data, and the state after reset.
-/

namespace Sys2Proof.Machine

open Sys2Proof

/-- Why a step would stop the machine. The manual gives every step an effect (a trap, a notice or a rollback is a next state), so there
is no reason of this kind. -/
inductive Fault where
  deriving DecidableEq, Repr

/-- Why a step has no meaning. -/
inductive Refusal where
  /-- Raised by an arm of exec whose instruction the model has not reached; safe: the model says nothing of it. -/
  | notModelled (mnemonic : String)
  deriving DecidableEq, Repr

/-- The machine: one module. cur, core: the compute tile in focus, held out of tiles. agent, inp: where the step under way happens and what
it takes from outside. agenda: the steps due. mem: every byte of the module and of host memory, by the keys of Ops.lean. bad: bytes with an
uncorrectable error (R124). lineKey: the key index and key each shore or host line was last written with (R303,
State.keyTag). net: messages waiting at their
source interfaces; inbox: messages that have arrived. waiting: writes
that wait at a compute tile for undo space (R394). replays: class B causes not to be repeated (R406). free, nextId: counts of free values
and of identities. -/
structure State where
  cur : Nat
  core : CTile
  tiles : Map CTile
  agent : Nat
  agenda : List Item
  inp : Input
  mts : Map MTile
  mem : List Host.Cell
  bad : List Nat
  lineKey : Map Nat
  parts : Map Partition
  regions : Map Region
  images : Map Image
  queues : Map Queue
  lslots : List (Option LSlot)
  ports : List HostPort
  recvs : Map Recv
  fjs : List FjPort
  fabric : Fabric
  head : Headland
  fuses : Fuses
  net : List Msg
  inbox : Map (List Msg)
  waiting : List Msg
  replays : List (Nat × Cause × Nat)
  time : Nat
  free : Nat
  nextId : Nat
  deriving DecidableEq, Repr

-- The state after reset

/-- R47, R72, R79, R111, R237: a handler level of a tile that has just been reset. -/
def Level.reset : Level :=
  { regs := List.replicate 64 ⟨0, false⟩, fpst := 0, seed := 1, link := 0xFFFFFFFF, rstl := 0xFFFFFFFF, wdog := 0, rr := 0, inv := none,
    fetch := none, blk := none }

/-- R158, R165: a row slot that nothing has loaded. -/
def RowSlot.reset : RowSlot :=
  { st := .empty, desc := 0, lanes := [], allow := some 0, entries := 0, exits := 0, sticky := 0, queues := [], fly := [], accs := [], last := [], marks := [],
    ages := [0, 0, 0, 0], stall := 0, stallSent := false }

/-- R111: what SRSEED's MODE 00 gives lane L for a seed; a state of 0 becomes 1. -/
def laneSeed (seed : BitVec 32) (l : Nat) : BitVec 32 :=
  let x := seed.rotateLeft (l % 32) ^^^ BitVec.ofNat 32 (l * 0x9E3779B9)
  if x = 0 then 1 else x

/-- The row array of a reset tile (R111, R158). -/
def RowArray.reset : RowArray :=
  { slots := List.replicate 4 RowSlot.reset, holders := List.replicate 4 none, bubble := List.replicate 4 false,
    gens := (List.range 64).map (laneSeed 1) }

/-- The matrix engine of a reset tile (R174, R187): banks of +0, KEEP set, fade factors 1.0 (notes/assumptions). -/
def Matrix.reset : Matrix :=
  { banks := [], keep := 15, lost := 0, bst := 0, fade := List.replicate 4 0x3F800000, lut := 0, queue := [], edgeFree := 0, stageFree := 0,
    staging := none, ballast := none, sigs := [] }

/-- A stream port with nothing in it (R196). -/
def Port.reset : Port := ⟨[], none, none, false, [], false⟩

/-- A compute tile after tile reset: unconfigured, both windows empty, at the nominal clock of 1.50 GHz (R10, R46, R47, R211). -/
def CTile.reset : CTile :=
  { cyc := 0, elapsed := 0, slot := 0, fired := 0, mems := 0, decided := false, run := none, l0 := Level.reset, l1 := Level.reset, mwin := none,
    staging := none,
    ch := { tasks := [], ins := [], outs := [], held := [], taga := [], barriers := [], traps := [], outq := [], perf := [], sc := [],
            scSpent := 0, counts := [], weights := [] },
    sys := { wdlim := 100000000, dbgen := false, trapcnt := 0, stale := 0, supv := 0xFFFF, disc := 0, discs := [], rver := 0, fduty := 16,
             fdutyNext := none, part := none, region := 0, clock := 1500, halted := false, brk := false, stopped := false, idle := true,
             tlost := none },
    recov := { rin := 0, tags := [], undo := [], bankUndo := [], sweep := false, aligned := [], carried := [] },
    tables := List.replicate 4 ⟨resetTable, 0, none, 0⟩, row := RowArray.reset, mx := Matrix.reset, aps := [],
    ports := List.replicate 8 Port.reset, agNext := 0, copies := [], aggs := [], exits := [] }

/-- An M-tile segment that nothing has configured (R203, R291). -/
def Segment.reset : Segment :=
  { mode := .off, base := 0, size := 0, param := 0, tok := false, tch := 0, cfgTile := 0, cfgWin := 0, cfgAct := 0, rowlen := 0, head := 0,
    count := 0, full := [], moved := [], wrote := [], lo := 0, rows := [], lines := [] }

/-- A memory tile after reset: every segment OFF and the default four undo units (R291). -/
def MTile.reset : MTile :=
  { segs := List.replicate 4 Segment.reset, units := 4, pres := [], held := [], input := [], cfgs := [], gens := [], rin := 0,
    tags := [], undo := [], segUndo := [], notices := [], sweep := false, region := none }

/-- A translating interface with nothing cached or held (R305). -/
def Recv.reset : Recv :=
  { leaves := [], walks := [], faults := [], missq := [], hold := [], notices := [], undo := [], vols := [], late := [], dir := [], ins := [], outs := [],
    rin := [],
    sweep := [], poss := [] }

/-- A Fjoith port before any lane has trained (R429, R430). -/
def FjPort.reset : FjPort :=
  { bind := 0, peer := 0, lanes := 0, training := false, fseq := 0, expect := 0, sent := [], wait := [], cred := [256, 256, 256, 256], nak := false,
    gaveBack := [0, 0, 0, 0], prog := 0, out := [], coll := { contribs := [], outs := [], queue := [], rin := 0, far := false }, notices := [] }

/-- The fabric before boot: no connection, no recorded defect (R432). -/
def Fabric.reset : Fabric :=
  { sites := [], links := [], ifs := [], flits := [], flips := [], setups := [], traffic := [], bytes := [], flipCount := 0, deadl := 0, fenced := 0, blost := 0, crce := 0 }

/-- What this module is built with (R423, R442, R445): the manual gives no values. -/
def Fuses.built : Fuses :=
  { holes := Config.fusedHoles, fmax := Config.fusedMax, parityOk := Config.fusedParity, serial := Config.fusedSerial, minSvn := Config.fusedMinSvn,
    secret := Config.fusedSecret, slotA := Config.flashSlotA, slotB := Config.flashSlotB, defectMap := Config.flashMap, cert := Config.flashCert }

/-- Headland before boot: every register at its Reset column (R435, R441, R444, R449, R450). -/
def Headland.reset : Headland :=
  { hbmok := 0, map := 0, mapErr := 0, fwB := false, recov := false, trip := false, bootStep := 0, fwSvn := 0, slotSvn := 0, fwResult := 0,
    fwAddr := 0, fwLen := 0, fwMeasure := [], mapMeasure := [], attAddr := 0, nonceIn := [], budget := 28000, sundo := 4,
    partdefs := [], keys := [], kmat := [], kcmd := 0, kres := 0, energy := [], islands := [], ballast := 0, draw := 0, granted := 0, mctpReplies := [],
    idKey := [], windows := [], lowFlow := none, powered := true }

/-- A partition window whose registers nothing has written (R408, R439). -/
def Window.reset : Window := { spans := List.replicate 64 0, root := 0, wper := 1000, esaddr := 0, kmat := [], kcmd := 0, kres := 0 }

/-- What comes up when a module is brought up in full: every stack trains, every host port comes up, no tile link fails (R440 step 4). -/
def Input.allUp : Input := { Input.none with v := 0xFFFFFFFF, n := 15 }

/-- The machine right after power-on: every register at the manual's reset value, memory with nothing listed, the compute tile of site
(0, 0) in focus, and the boot sequence of R440 due. -/
def State.reset : State :=
  { cur := 0, core := CTile.reset, tiles := [], agent := 0, agenda := [⟨0x10060, Instr.bringUp, Input.allUp⟩], inp := Input.none, mts := [],
    mem := [], bad := [], lineKey := [], parts := [], regions := [], images := [], queues := [],
    lslots := List.replicate 64 none, ports := List.replicate 4 ⟨false, false, 0⟩, recvs := [], fjs := List.replicate 48 FjPort.reset,
    fabric := Fabric.reset, head := Headland.reset, fuses := Fuses.built, net := [], inbox := [], waiting := [], replays := [], time := 0, free := 0,
    nextId := 0 }

end Sys2Proof.Machine
end

