-- ==== Sys2Proof/Machine/Ops.lean ====
section
/-!
DEFINITION. The named operations every meaning is built from: tables, memory, registers, the block window, result delivery, firing (R60 to
R64), translation (R298 to R301), and taking a trap (R69, R364, R367).
-/

namespace Sys2Proof.Machine

open Sys2Proof

/-- The one outcome of a step that the manual describes: the machine goes on. -/
abbrev Out := Host.Outcome State Fault Refusal

-- Tables

/-- The entry of a key. -/
def mget {α : Type} (m : Map α) (k : Nat) : Option α :=
  match m with
  | [] => none
  | (k', v) :: r => if k = k' then some v else mget r k

/-- The entry of a key, or a default. -/
def mgetD {α : Type} (m : Map α) (k : Nat) (d : α) : α := (mget m k).getD d

/-- Sets a key's entry, keeping keys in ascending order. -/
def mset {α : Type} (m : Map α) (k : Nat) (v : α) : Map α :=
  match m with
  | [] => [(k, v)]
  | (k', v') :: r => if k < k' then (k, v) :: (k', v') :: r else if k = k' then (k, v) :: r else (k', v') :: mset r k v

/-- Removes a key. -/
def mdel {α : Type} (m : Map α) (k : Nat) : Map α := m.filter (fun e => e.1 != k)

/-- Applies a function to a key's entry, if there is one. -/
def mmod {α : Type} (m : Map α) (k : Nat) (f : α → α) : Map α :=
  match mget m k with
  | some v => mset m k (f v)
  | none => m

/-- Replaces element n of a list. -/
def lset {α : Type} (l : List α) (n : Nat) (v : α) : List α := l.set n v

-- Memory: one canonical list of (key, byte)

/-- What an unlisted byte reads as (notes/assumptions: the manual gives no reset contents). DESIGN CHOICE. -/
def unlistedByte : Byte := 0

/-- The byte at a key. -/
def memByte (m : List Host.Cell) (k : Nat) : Byte :=
  match m with
  | [] => unlistedByte
  | (k', b) :: r => if k = k' then b else memByte r k

/-- Writes one byte, keeping the canonical form: keys strictly rising, no entry equal to what an unlisted key reads as. -/
def memPut (m : List Host.Cell) (k : Nat) (b : Byte) : List Host.Cell :=
  match m with
  | [] => if b = unlistedByte then [] else [(k, b)]
  | (k', b') :: r =>
    if k < k' then (if b = unlistedByte then (k', b') :: r else (k, b) :: (k', b') :: r)
    else if k = k' then (if b = unlistedByte then r else (k, b) :: r)
    else (k', b') :: memPut r k b

/-- The canonical form of memory. -/
def memWf (m : List Host.Cell) : Bool :=
  match m with
  | [] => true
  | (k, b) :: r =>
    (b != unlistedByte) && (match r with
      | [] => true
      | (k', _) :: _ => decide (k < k')) && memWf r

/-- n bytes from a key upward. -/
def memBytes (m : List Host.Cell) (k n : Nat) : List Byte :=
  match n with
  | 0 => []
  | n + 1 => memByte m k :: memBytes m (k + 1) n

/-- Writes bytes from a key upward. -/
def memPuts (m : List Host.Cell) (k : Nat) (bs : List Byte) : List Host.Cell :=
  match bs with
  | [] => m
  | b :: r => memPuts (memPut m k b) (k + 1) r

/-- The number that little-endian bytes stand for (R19). -/
def leNat (bs : List Byte) : Nat :=
  match bs with
  | [] => 0
  | b :: r => b.toNat + 256 * leNat r

/-- The n little-endian bytes of a number (R19). -/
def leBytes (n v : Nat) : List Byte :=
  match n with
  | 0 => []
  | n + 1 => BitVec.ofNat 8 v :: leBytes n (v / 256)

/-- The memory key of byte off of site t: the remote form of R290. -/
def tileKey (t off : Nat) : Nat := 0x0001000000000000 + t * 0x100000000 + off

/-- The memory key of a shore physical address (R300). -/
def shoreKey (pa : Nat) : Nat := 0x1000000000000000 + pa

/-- The memory key of a host bus address (R301). -/
def hostKey (a : Nat) : Nat := 0x10000000000000000 + a

def shoreIf (n : Nat) : Nat := 0x10000 + n
def fjIf (n : Nat) : Nat := 0x10020 + n
def hostIf (n : Nat) : Nat := 0x10050 + n
def headIf : Nat := 0x10060

def State.byte (s : State) (k : Nat) : Byte := memByte s.mem k
def State.bytes (s : State) (k n : Nat) : List Byte := memBytes s.mem k n
/-- Writes bytes; a byte written anew has no uncorrectable error. -/
def State.puts (s : State) (k : Nat) (bs : List Byte) : State :=
  { s with mem := memPuts s.mem k bs, bad := s.bad.filter (fun b => !(decide (k ≤ b ∧ b < k + bs.length))) }

/-- A fresh count for a free value (R22). -/
def State.tick (s : State) : State := { s with free := s.free + 1 }

/-- A fresh identity for a message, an invocation or a transfer. -/
def State.fresh (s : State) : State := { s with nextId := s.nextId + 1 }

-- Sites (R2 to R6)

def tileX (t : Nat) : Nat := t % 256
def tileY (t : Nat) : Nat := t / 256
def tileId (x y : Nat) : Nat := y * 256 + x

/-- The tile ID names a site of the field (R3, R6). -/
def inField (t : Nat) : Bool := decide (tileX t ≤ 131 ∧ tileY t ≤ 127)

/-- R4: a site is a C-tile when x + y is even. -/
def isCTile (t : Nat) : Bool := decide ((tileX t + tileY t) % 2 = 0)

/-- The site adjacent in direction w (0 north, 1 east, 2 south, 3 west; R2), or none outside the field. -/
def neighbour (t w : Nat) : Option Nat :=
  let x := tileX t
  let y := tileY t
  if w = 0 then (if y + 1 ≤ 127 then some (tileId x (y + 1)) else none)
  else if w = 1 then (if x + 1 ≤ 131 then some (tileId (x + 1) y) else none)
  else if w = 2 then (if 1 ≤ y then some (tileId x (y - 1)) else none)
  else (if 1 ≤ x then some (tileId (x - 1) y) else none)

/-- The island of a site (R7). -/
def islandOf (t : Nat) : Nat × Nat := (tileX t / 4, tileY t / 4)

/-- Site t lies in the rectangle of islands (x0, y0) to (x1, y1). -/
def inRect (x0 y0 x1 y1 t : Nat) : Bool := decide (x0 ≤ (islandOf t).1 ∧ (islandOf t).1 ≤ x1 ∧ y0 ≤ (islandOf t).2 ∧ (islandOf t).2 ≤ y1)

-- The running level, its invocation and its block

def CTile.level (c : CTile) (hi : Bool) : Level := if hi then c.l1 else c.l0
def CTile.setLevel (c : CTile) (hi : Bool) (l : Level) : CTile := if hi then { c with l1 := l } else { c with l0 := l }

/-- Every compute tile that has been touched. -/
def State.allTiles (s : State) : Map CTile := mset s.tiles s.cur s.core

def State.setCore (s : State) (c : CTile) : State := { s with core := c }
def State.setLevel (s : State) (hi : Bool) (l : Level) : State := { s with core := s.core.setLevel hi l }

/-- The level whose invocation holds the window (R55). -/
def State.lvl (s : State) : Bool := s.core.run.getD false

def State.level (s : State) : Level := s.core.level s.lvl

/-- The block in the window (R54). -/
def State.blk? (s : State) : Option Blk :=
  match s.core.run with
  | none => none
  | some h => (s.core.level h).blk

def State.inv? (s : State) : Option Inv :=
  match s.core.run with
  | none => none
  | some h => (s.core.level h).inv

def State.setBlk (s : State) (b : Blk) : State :=
  match s.core.run with
  | none => s
  | some h => s.setLevel h { s.core.level h with blk := some b }

def State.setInv (s : State) (i : Inv) : State :=
  match s.core.run with
  | none => s
  | some h => s.setLevel h { s.core.level h with inv := some i }

/-- Changes the block in the window. -/
def State.modBlk (s : State) (f : Blk → Blk) : State :=
  match s.blk? with
  | none => s
  | some b => s.setBlk (f b)

def State.act (s : State) : Nat :=
  match s.inv? with
  | none => 0
  | some i => i.act

/-- Who issues an operation of slot k (R209, R366). -/
def State.origin (s : State) (k lsid : Nat) : Origin :=
  { tile := s.cur, part := s.core.sys.part.getD 64, lvl := s.lvl, tag := (s.inv?.map (·.tag)).getD 0, act := s.act, slot := k, lsid := lsid,
    blk := (s.blk?.map (·.addr)).getD 0, rin := (s.inv?.map (·.rin)).getD 0, inv := (s.inv?.map (·.id)).getD 0 }

-- Registers (R59)

/-- Register i of a bank; every bank has 64. -/
def regGet (rs : List Reg) (i : Nat) : Reg := (rs[i]?).getD ⟨0, false⟩
def regSet (rs : List Reg) (i : Nat) (r : Reg) : List Reg := rs.set i r

-- Tiles out of focus

/-- A site as booted: live at the greatest binned maximum unless recorded otherwise (R5, R10, R423). -/
def State.site (s : State) (t : Nat) : Site := mgetD s.fabric.sites t ⟨.live, 1900, false⟩

/-- Tile t is released and answers: it names a site that is no hole and has not died (R5, R6, R419, R440 step 7). -/
def State.live (s : State) (t : Nat) : Bool :=
  inField t && (s.head.bootStep == 7) && s.head.powered && ((s.site t).st != .hole) && !(s.site t).dead

/-- The phase of the region is resident (R353, R388). -/
def Region.resident (g : Region) : Bool := g.st == .run || g.st == .grace || g.st == .save

/-- The region's grace period is over (R375 step 3): its handlers are aborted, and its row array fires no more. -/
def Region.past (g : Region) : Bool := g.st == .save || g.st == .suspended || (g.st == .grace && g.drain)

/-- The tile that stands for a tile ID: where the aliases of a resident region lead from it (R363, R422), else itself. -/
def State.aliasOf (s : State) (t : Nat) : Nat :=
  s.regions.foldl (fun t g => if g.2.resident then
    g.2.moved.foldl (fun t a => if a.1 = t then a.2 else t) t else t) t

/-- The number of the island of a site: rows of 33 (R7). -/
def islandNo (t : Nat) : Nat := (islandOf t).2 * 33 + (islandOf t).1

/-- V(x) of an island in mV: 5 mV steps from 500 to 950, never falling as x rises. -/
def voltAt (i x : Nat) : Nat := 500 + 5 * ((List.range ((x - 500) / 4 + 1)).foldl (fun v k => max v (Config.islandStep i (500 + 4 * k) % 91)) 0)

/-- An island that the tree has not set yet: the nominal clock. -/
def islandFresh (i : Nat) : Island := ⟨1500, voltAt i 1500, 16, 0, 0, false, 0, 1900, 0, 0, 0⟩

def State.island (s : State) (i : Nat) : Island := mgetD s.head.islands i (islandFresh i)

/-- The period of a clock of f MHz in 10^-15 s (R11). -/
def periodOf (f : Nat) : Nat := 1000000000 / f

/-- The period of the tile's clock. -/
def CTile.period (c : CTile) : Nat := periodOf c.sys.clock

/-- The tile cycles that an untouched tile of an island has counted by time e (R11, R46). -/
def Island.cycles (m : Island) (e : Nat) : Nat := m.cyc0 + (e - m.at0) / periodOf m.f

/-- %time at a tile: Headland's count, or since a beacon loss the tile's own, interpolated by its clock (R237, R427). -/
def CTile.time (c : CTile) (now : Nat) : Nat :=
  match c.sys.tlost with
  | none => now
  | some x => x.1 + (c.elapsed - x.2) / 1000000000

/-- A C-tile as reset left it, its cycles counted and its clock at the frequency of its island (R10, R11, R46). -/
def freshTile (s : State) (t : Nat) : CTile :=
  let m := s.island (islandNo t)
  let n := m.cycles s.core.elapsed
  { CTile.reset with cyc := n, elapsed := m.at0 + (n - m.cyc0) * periodOf m.f, sys := { CTile.reset.sys with clock := m.f, fduty := BitVec.ofNat 5 m.duty } }

/-- The tile ID by which configuration knows what stands on tile t now. -/
def State.homeOf (s : State) (t : Nat) : Nat :=
  s.regions.foldl (fun t g => if g.2.resident then g.2.moved.foldr (fun a t => if a.2 = t then a.1 else t) t else t) t

/-- C-tile t out of focus; one that has never been touched stands as reset left it. -/
def State.stored (s : State) (t : Nat) : CTile := (mget s.tiles t).getD (freshTile s t)

/-- The C-tile t, in focus or not. -/
def State.tile? (s : State) (t : Nat) : Option CTile :=
  if t = s.cur then some s.core else if s.live t && isCTile t then some (s.stored t) else none

/-- Makes tile t the focus: the tile in focus is put back into the table. -/
def State.focus (s : State) (t : Nat) : State :=
  if t = s.cur then s
  else if isCTile t then { s with cur := t, core := s.stored t, tiles := mset (mdel s.tiles t) s.cur s.core } else s

/-- Changes C-tile t. -/
def State.modTile (s : State) (t : Nat) (f : CTile → CTile) : State :=
  if t = s.cur then { s with core := f s.core } else { s with tiles := mset s.tiles t (f (s.stored t)) }

/-- The M-tile t; one that has never been touched stands as reset left it. -/
def State.mt (s : State) (t : Nat) : MTile := mgetD s.mts t MTile.reset
def State.setMt (s : State) (t : Nat) (m : MTile) : State := { s with mts := mset s.mts t m }

/-- A translating interface. -/
def State.recv (s : State) (n : Nat) : Recv := mgetD s.recvs n Recv.reset
def State.setRecv (s : State) (n : Nat) (r : Recv) : State := { s with recvs := mset s.recvs n r }

-- Tiles that go on from a record (R173, R187, R219)

/-- A row array whose record was taken at cycle a and goes on at cycle b: elements on their way, status and LACC's spacing keep the cycles left to
them; no row has a holder until the next round begins (R330, R331). -/
def RowArray.placed (r : RowArray) (a b : Nat) : RowArray :=
  let slot (x : RowSlot) : RowSlot := { x with
    fly := x.fly.map (fun (f : Nat × Nat × RowElem) => (b + (f.1 - a), f.2))
    marks := x.marks.map (fun (m : Nat × BitVec 7) => (b + (m.1 - a), m.2))
    last := (x.last.filter (fun (l : Nat × Nat) => decide (a < l.2 + 4))).map (fun (l : Nat × Nat) => (l.1, b + l.2 - a)) }
  { r with slots := r.slots.map slot, holders := List.replicate 4 none, bubble := List.replicate 4 false }

/-- What a save or a rollback leaves of the matrix engine (R187): its queue is empty, RECOMP banks hold +0 with LOST set. -/
def Matrix.kept (m : Matrix) : Matrix :=
  { m with
    banks := m.banks.filter (fun e => m.keep.getLsbD (e.1 / 4096))
    lost := (~~~ m.keep) ||| m.lost
    bst := (List.range 16).foldl (fun b i => if m.keep.getLsbD (i / 4) && m.bst.getLsbD i then b ||| (1#16 <<< i) else b) 0
    queue := [], edgeFree := 0, stageFree := 0, staging := none, ballast := none, sigs := [] }

/-- A tile as a save or a rollback leaves it: no block runs, and what the engines had requested is requested again (R219). -/
def CTile.rested (c : CTile) : CTile :=
  { c with
    fired := 0, mems := 0, decided := false, run := none, mwin := none, staging := none
    mx := c.mx.kept
    ports := c.ports.map (fun q => { q with active := q.active.map (fun b => { b with wait := false }) })
    copies := c.copies.map (fun x => { x with wait := false }) }

-- Messages

/-- Sends a message: it enters its source interface and leaves in order (R312); one to the agent itself has arrived at once. -/
def State.send (s : State) (src dst : Nat) (org : Origin) (body : Payload) : State :=
  let m : Msg := ⟨s.nextId, src, dst, org, body⟩
  if src = dst then { s with inbox := mset s.inbox dst (mgetD s.inbox dst [] ++ [m]), nextId := s.nextId + 1 }
  else { s with net := s.net ++ [m], nextId := s.nextId + 1 }

-- Translation (R298 to R301)

/-- A leaf found by a walk. -/
structure Leaf where
  rcl : BitVec 2
  sub : Nat
  plc : BitVec 2
  key : Nat
  pa : Nat
  w : Bool
  r : Bool
  deriving DecidableEq, Repr

/-- The outcome of a walk: a leaf, or a page fault with its WHY field (R373). -/
inductive Walk where
  | leaf (l : Leaf)
  | fault (why : BitVec 2)
  deriving DecidableEq, Repr

/-- The kinds of interface that translate (R298). -/
inductive IfKind where
  | shore | host
  deriving DecidableEq, Repr

/-- The bytes of the undo region at the top of every stack (R304, R450): SIZE x 512 MiB, a SIZE of 0 taken as 4. -/
def State.stackUndo (s : State) : Nat := (if s.head.sundo = 0 then 4 else s.head.sundo.toNat) * 0x20000000

/-- The frame bits and page size of a leaf entry at a level that maps 2^sz bytes: bad leaves of R301 and R304 fault with WHY 10. -/
def leafOf (s : State) (p : PartMem) (kind : IfKind) (e v sz : Nat) : Walk :=
  let frame := e / 0x10000 % 0x4000000 * 0x10000
  let rcl := BitVec.ofNat 2 (e / 2 ^ 62)
  let key := e / 2 ^ 42 % 0x1000
  let inUndo := kind = .shore ∧ 0xC00000000 - s.stackUndo < frame % 2 ^ 36 + 2 ^ sz
  if frame % 2 ^ sz ≠ 0 ∨ e / 16 % 0x1000 ≠ 0 ∨ rcl = 3 ∨ p.kcnt ≤ key ∨ (kind = .host ∧ rcl ≠ 1) ∨ inUndo then .fault 2
  else .leaf { rcl := rcl, sub := e / 2 ^ 56 % 64, plc := BitVec.ofNat 2 (e / 2 ^ 54), key := p.kfirst + key, pa := frame + v % 2 ^ sz,
               w := e / 4 % 2 == 1, r := e / 2 % 2 == 1 }

/-- The levels of the walk: index shift, index bits, and the page bits of a leaf there (none where no leaf may stand; R300). -/
def walkLevels : List (Nat × Nat × Option Nat) := [(48, 9, none), (39, 9, none), (30, 9, some 30), (21, 9, some 21), (16, 5, some 16)]

/-- The walk from a table through the remaining levels (R300, R301). -/
def walkFrom (s : State) (p : PartMem) (kind : IfKind) (v table : Nat) (ls : List (Nat × Nat × Option Nat)) : Walk :=
  match ls with
  | [] => .fault 2
  | (sh, bits, sz) :: rest =>
    let e := leNat (s.bytes (shoreKey (table + v / 2 ^ sh % 2 ^ bits * 8)) 8)
    if e % 2 = 0 then .fault 0
    else if e / 8 % 2 = 1 then
      match sz with
      | none => .fault 2
      | some z => leafOf s p kind e v z
    else if rest.isEmpty ∨ e / 2 % 128 ≠ 0 ∨ e / 2 ^ 42 ≠ 0 then .fault 2
    else walkFrom s p kind v (e / 256 % 2 ^ 34 * 256) rest

/-- The translation of partition virtual address v (R300). -/
def walk (s : State) (p : PartMem) (kind : IfKind) (v : Nat) : Walk :=
  if p.root.getLsbD 0 then walkFrom s p kind v (p.root.toNat / 4096 % 2 ^ 30 * 4096) walkLevels else .fault 0

/-- The span a partition virtual address lies in (R298): none is answered PROTECTION by the sender. -/
inductive Span where
  | none
  | shore (actor : Nat)
  | host (h : Nat)
  | fj (p : Nat)
  deriving DecidableEq, Repr

/-- The n-th set bit of a 32-bit mask, counted from 0, from bit i upward. -/
def nthBit (m i n fuel : Nat) : Nat :=
  match fuel with
  | 0 => i
  | fuel + 1 => if m / 2 ^ i % 2 = 1 then (if n = 0 then i else nthBit m (i + 1) (n - 1) fuel) else nthBit m (i + 1) n fuel

/-- The number of set bits below bit k. -/
def popBelow (m k : Nat) : Nat :=
  match k with
  | 0 => 0
  | k + 1 => m / 2 ^ k % 2 + popBelow m k

/-- R298, R299: the interface that receives a request at partition virtual address v. -/
def spanOf (p : PartMem) (v : Nat) : Span :=
  let e := ((p.spans[v / 2 ^ 51 % 64]?).getD 0).toNat
  let mask := e % 2 ^ 32
  let port := e / 2 ^ 32 % 64
  let gran := e / 2 ^ 60 % 4
  match e / 2 ^ 62 with
  | 1 =>
    if mask = 0 ∨ gran = 3 then .none
    else .shore (nthBit mask 0 (v / 2 ^ (if gran = 0 then 16 else if gran = 1 then 21 else 30) % popBelow mask 32) 32)
  | 2 => if port ≤ 3 then .host port else .none
  | 3 => if port ≤ 47 then .fj port else .none
  | _ => .none

/-- Lays bytes bs over a copy of a line from offset o. -/
def patchLine (old bs : List Byte) (o : Nat) : List Byte := old.mapIdx (fun i b => if o ≤ i then (bs[i - o]?).getD b else b)

/-- A write cut into the parts that fall into each 64-byte line: (line, offset in it, bytes). -/
def lineParts (off : Nat) (bs : List Byte) (fuel : Nat) : List (Nat × Nat × List Byte) :=
  match fuel with
  | 0 => []
  | fuel + 1 =>
    if bs.isEmpty then []
    else (off / 64, off % 64, bs.take (64 - off % 64)) :: lineParts (off + (64 - off % 64)) (bs.drop (64 - off % 64)) fuel

def partsOf (off : Nat) (bs : List Byte) : List (Nat × Nat × List Byte) := lineParts off bs (bs.length / 64 + 2)

/-- The 64-byte lines of a byte range. -/
def linesOf (a n : Nat) : List Nat := (List.range (n / 64 + 2)).filterMap (fun k => if 64 * (a / 64 + k) < a + n then some (a / 64 + k) else none)

-- Encrypted lines (R303)

/-- Key index e with the key it now holds: e + 4,096 x the key's number. -/
def State.keyTag (s : State) (e : Nat) : Nat := e + 4096 * leNat (mgetD s.head.keys e [])

/-- The number of the data unit that a line of a stack or of host memory is: its address (R303). -/
def lineUnit (line : Nat) : Nat := line - (if 2 ^ 64 ≤ 64 * line then hostKey 0 else shoreKey 0) / 64

/-- A line read through key index e. The state keeps a written line in plain text with its key; under another key it reads as its cipher text
deciphered with that key. A line that nothing has written through a key is taken for cipher text (R303). -/
def encLine (s : State) (line e : Nat) : List Byte :=
  let bs := s.bytes (64 * line) 64
  let k := s.keyTag e / 4096
  let read (c : List Nat) : List Byte := (xtsLine true k (lineUnit line) c).map (BitVec.ofNat 8)
  match mget s.lineKey line with
  | some w => if w / 4096 = k then bs else read (xtsLine false (w / 4096) (lineUnit line) (bs.map BitVec.toNat))
  | none => read (bs.map BitVec.toNat)

/-- n bytes at a memory key read through key index e. -/
def encBytes (s : State) (k n e : Nat) : List Byte := (((linesOf k n).flatMap (fun l => encLine s l e)).drop (k % 64)).take n

/-- Writes bytes through key index e, line by line. -/
def encWrite (s : State) (k : Nat) (bs : List Byte) (e : Nat) : State :=
  (partsOf k bs).foldl (fun s l =>
    let s' := s.puts (64 * l.1) (patchLine (encLine s l.1 e) l.2.2 l.2.1)
    { s' with lineKey := mset s'.lineKey l.1 (s.keyTag e) }) s

/-- Key index k is usable (R449). -/
def State.keyUsable (s : State) (k : Nat) : Bool := (mget s.head.keys k).isSome

/-- The device's own write into a partition's context area, at an offset from %ctx (R303, R377, R449): no undo capture and no hold queue. Bytes
whose page maps no writable SHORE frame, or whose key is unusable, are not written. -/
def ctxWrite (s : State) (pm : PartMem) (off : Nat) (bs : List Byte) : State :=
  let v := pm.ctx.toNat + off
  match walk s pm .shore v with
  | .leaf l => if l.w && s.keyUsable l.key then encWrite s (shoreKey l.pa) bs l.key else s
  | .fault _ => s

/-- The header of a ring with CAP records, n of them written (R360, R377, R381). -/
def ringHeader (cap n : Nat) : List Byte := leBytes 8 n ++ leBytes 2 cap ++ leBytes 54 0

/-- Appends a 64-byte record to a ring of the context area (R360, R381): the record, then the header. -/
def ringWrite (s : State) (p ring off : Nat) (bs : List Byte) : State :=
  match mget s.parts p with
  | none => s
  | some q =>
    let n := mgetD q.rings ring 0
    let s := ctxWrite s q.mem (off + 64 * (1 + n % 1023)) bs
    let s := ctxWrite s q.mem off (ringHeader 1023 (n + 1))
    { s with parts := mset s.parts p { q with rings := mset q.rings ring (n + 1) } }

/-- The place of site t's save slot in the context area (R377). -/
def saveSlot (q : Partition) (t : Nat) : Nat :=
  let i := islandOf t
  let like := ((List.range 16).map (fun j => tileId (4 * i.1 + j % 4) (4 * i.2 + j / 4))).filter (fun u => isCTile u == isCTile t)
  0x00100000 + 0x02800000 * ((i.2 - q.iy0) * (q.ix1 + 1 - q.ix0) + (i.1 - q.ix0)) +
    (if isCTile t then 0x00100000 * like.idxOf t else 0x00800000 + 0x00400000 * like.idxOf t)

/-- The device writes n units of 64 KiB, in a layout of its own, from offset off of site t's save slot in partition p: free values (R377, R398). -/
def slotBlur (s : State) (p t off n : Nat) : State :=
  match mget s.parts p with
  | none => s
  | some q => (List.range n).foldl (fun s j =>
      { ctxWrite s q.mem (saveSlot q t + off + 0x10000 * j) ((List.range 0x10000).map (fun i => Config.freeByte (s.free + i))) with free := s.free + 0x10000 }) s

/-- The save of site t is written: 768 KiB of a C-tile (R398), a whole slot of an M-tile. A dead site's slot is never written (R377). -/
def writeSave (s : State) (p t : Nat) : State := if s.live t then slotBlur s p t 0 (if isCTile t then 12 else 64) else s

/-- The save slots of the sites of a saved context are written. -/
def writeSaves (s : State) (p : Nat) (v : Saved) : State :=
  (v.tiles.map (fun x => x.1) ++ v.mts.map (fun x => x.1)).foldl (fun s t => writeSave s p t) s

/-- The context that a region saved last: its phase and what it holds. -/
def Region.lastSaved (g : Region) : Option (Nat × Saved) :=
  g.saved.foldl (fun (b : Option (Nat × Saved)) v => match b with
    | some w => if w.2.time ≤ v.2.time then some v else some w
    | none => some v) none

/-- The state that a region's record shows (R378): 0 none, 1 suspended, 2 resident. -/
def Region.record (g : Region) : Nat := if g.resident then 2 else if g.saved.isEmpty then 0 else 1

/-- Writes region record k of the context area with state st (R378): the resident phase's fields, or those of the context saved last. -/
def writeRegRecord (s : State) (k st : Nat) : State :=
  match mget s.parts (k / 256), mget s.regions k with
  | some q, some g =>
    let x : Nat × List (Nat × Nat) × Nat := match g.lastSaved with
      | some v => if st = 1 then (v.1, v.2.moved, v.2.answers.length) else (g.phase, g.moved, g.answers.length)
      | none => (g.phase, g.moved, g.answers.length)
    let al := x.2.1.take 28
    ctxWrite s q.mem (256 * (k % 256))
      (leBytes 1 st ++ leBytes 1 x.1 ++ leBytes 1 g.ix0 ++ leBytes 1 g.iy0 ++ leBytes 1 g.ix1 ++ leBytes 1 g.iy1 ++ leBytes 1 g.rver.toNat ++
        leBytes 1 al.length ++ leBytes 8 g.savedAt ++ leBytes 8 x.2.2 ++ leBytes 8 0 ++
        al.flatMap (fun a => leBytes 2 a.1 ++ leBytes 2 a.2 ++ leBytes 4 0) ++ List.replicate (224 - 8 * al.length) 0)
  | _, _ => s

/-- Region record k is written as the region stands now. -/
def reRecord (s : State) (k : Nat) : State :=
  match mget s.regions k with
  | some g => writeRegRecord s k g.record
  | none => s

/-- The rings' headers stand in the context area with their counts (R360, R377, R381). -/
def layHeaders (s : State) (p : Nat) : State :=
  match mget s.parts p with
  | none => s
  | some q =>
    let s := ctxWrite s q.mem 0x10000 (ringHeader 2046 (mgetD q.rings 1 0))
    let s := ctxWrite s q.mem 0x20000 (ringHeader 1023 (mgetD q.rings 2 0))
    ctxWrite s q.mem 0x30000 (ringHeader 1023 (mgetD q.rings 0 0))

-- Traps

/-- The code of a cause (R366). -/
def Cause.code (c : Cause) : Nat :=
  match c with
  | .fetchRange => 0x01 | .privilege => 0x02 | .illegalHeader => 0x03 | .illegalOp => 0x04 | .illegalTarget => 0x05
  | .operandOverrun => 0x06 | .doubleResolve => 0x07 | .exitConflict => 0x08 | .poisonUse => 0x09 | .badBranch => 0x0A
  | .userTrap => 0x0B | .blockDead => 0x0C | .watchdog => 0x0D | .mwinOverrun => 0x0E | .misaligned => 0x0F | .addressRange => 0x10
  | .protection => 0x11 | .nodeDead => 0x12 | .segmentMode => 0x13 | .onceDoubleWrite => 0x14 | .irstOrder => 0x15
  | .irstClass => 0x16 | .badChannel => 0x17 | .badTag => 0x18 | .badBarrier => 0x19 | .badSpecial => 0x1A | .rowConfig => 0x1B
  | .rowEmpty => 0x1C | .matrixDesc => 0x1D | .apDesc => 0x1E | .engineDesc => 0x1F | .sysDesc => 0x20 | .streamMismatch => 0x21
  | .collMismatch => 0x22 | .rowStall => 0x23 | .pageFault => 0x24 | .uncorrectable => 0x25 | .tokenImbalance => 0x26

/-- The code of a use kind (R364). -/
def Use.code (u : Use) : Nat :=
  match u with
  | .branch => 0 | .special => 1 | .address => 2 | .store => 3

/-- Payload word 0 of a trap token, the trap handle of R209. -/
def trapHandle (tile : Nat) (lvl : Bool) (tag : BitVec 8) : Word :=
  BitVec.ofNat 64 (tag.toNat * 2 ^ 24 + (if lvl then 0x10000 else 0) + tile)

/-- Payload word 1 of a trap token (R364). -/
def trapWord1 (t : PTrap) (lsid : Nat) (note post : Bool) : Word :=
  BitVec.ofNat 64 (t.info.toNat * 2 ^ 32 + lsid * 2 ^ 20 + (match t.use with
    | some u => u.code
    | none => 0) * 2 ^ 17 + (if note then 2 ^ 16 else 0) + (if post then 2 ^ 15 else 0) + (if t.exitf then 2 ^ 13 else 0) +
    t.slot % 32 * 2 ^ 8 + t.cause.code)

/-- A trap token's payload (R364). -/
def trapWords (h : Word) (t : PTrap) (lsid : Nat) (note post : Bool) (blk : BitVec 32) : List Word :=
  [h, trapWord1 t lsid note post, blk.setWidth 64, t.detail]

/-- The fault-ring record of a trap token, notice or class B cause (R381). flags: bit 0 DROPPED, 1 ROLLBACK, 2 NOSUPV. -/
def faultRecord (s : State) (p : Nat) (words : List Word) (flags : Nat) (rin : BitVec 32) : State :=
  ringWrite s p 0 0x30000 ((words.map (fun w => leBytes 8 w.toNat)).flatten ++ leBytes 8 s.time ++ leBytes 8 flags ++ leBytes 4 rin.toNat ++
    leBytes 12 0)

/-- The oldest unsealed interval of a partition's domain (R364, R381). -/
def State.oldest (s : State) (p : Nat) : BitVec 32 :=
  match mget s.parts p with
  | none => 0
  | some q => q.sealed + 1

/-- Puts a trap token (lvl given) or notice of the focus tile into its trap queue, or records why it cannot be sent (R238). -/
def queueTrap (s : State) (n : Notice) : State :=
  let p := s.core.sys.part.getD 64
  let c := s.core
  if c.sys.supv.toNat % 0x10000 = 0xFFFF then
    let s := { s with core := { c with sys := { c.sys with trapcnt := c.sys.trapcnt + 1 } } }
    faultRecord s p n.words 4 n.rin
  else if n.lvl.isNone ∧ 6 ≤ (c.ch.traps.filter (fun q => q.lvl.isNone)).length then faultRecord s p n.words 1 n.rin
  else
    let s := { s with core := { c with ch := { c.ch with traps := c.ch.traps ++ [n] } } }
    faultRecord s p n.words 0 n.rin

/-- Returns to the tile the credits that an uncommitted block has taken (R139). -/
def returnCredits (s : State) (act : Nat) (ks : List (BitVec 3)) : State :=
  let outs := ks.foldl (fun m k => mmod m (act * 8 + k.toNat) (fun o => { o with credits := o.credits + 1 })) s.core.ch.outs
  { s with core := { s.core with ch := { s.core.ch with outs := outs } } }

/-- A cause of class B: the fault ring records it with ROLLBACK set and the domain is rolled back next (R14, R367, R370). The same cause at
the same place in the replay answers false. -/
def raiseClassB (s : State) (p : Nat) (cause : Cause) (place : Nat) (words : List Word) (rin : BitVec 32) : Option State :=
  if (p, cause, place) ∈ s.replays then none
  else
    let s := faultRecord s p words 2 rin
    some { s with replays := (p, cause, place) :: s.replays, agenda := ⟨headIf, Instr.rollback, { Input.none with p := BitVec.ofNat 6 p }⟩ :: s.agenda }

/-- Freezes the invocation that holds the window (R69): credits return, the masked window closes, and the window is freed as R69 and R235
say: it stays held when level 1 freezes over a parked level 0. -/
def freeze (s : State) (t : PTrap) : State :=
  match s.core.run, s.inv?, s.blk? with
  | some hi, some i, some b =>
    let s := returnCredits s i.act b.creds
    let s := s.setBlk { b with creds := [], trap := some t, pend := none, phase := .running }
    let s := s.setInv { i with frozen := some t }
    let parked := hi && s.core.l0.inv.isSome && s.core.l0.inv.any (fun j => j.frozen.isNone)
    { s with core := { s.core with run := if parked then some true else none, mwin := none } }
  | _, _, _ => s

/-- TAKING A TRAP, the one shared operation (R69, R364, R366, R367, R370): the invocation in the window freezes with its block uncommitted,
a trap token enters the tile's trap queue, and the fault ring gets a record. A poison trap at a store (class B) instead rolls the domain
back, the first time; the block then goes no further. -/
def takeTrap (s : State) (t : PTrap) : State :=
  match s.inv?, s.blk? with
  | some i, some b =>
    let p := s.core.sys.part.getD 64
    let words := trapWords (trapHandle s.cur s.lvl i.tag) t 0 false false b.addr
    let n : Notice := ⟨words, if t.detailP then 8 else 0, i.tag, i.rin, some s.lvl, false, false⟩
    if t.cause = .poisonUse ∧ t.use = some .store then
      match raiseClassB s p t.cause (tileKey s.cur b.addr.toNat) words i.rin with
      | some s' => s'.setBlk { b with trap := some t }
      | none => queueTrap (freeze s t) n
    else queueTrap (freeze s t) n
  | _, _ => s

/-- A notice of the focus tile: a trap token that names no frozen invocation (R238, R364). -/
def tileNotice (s : State) (cause : Cause) (info : BitVec 32) (detail : Word) : State :=
  let t : PTrap := ⟨0, cause, none, info, detail, false, false⟩
  let rin := s.oldest (s.core.sys.part.getD 64)
  queueTrap s ⟨trapWords (trapHandle s.cur false 0) t 0 true false 0, 0, 0, rin, none, false, false⟩

-- Delivery and firing

/-- The operands an instruction fires with. -/
structure Args where
  slot : Nat
  l : Word
  lp : Bool
  r : Word
  rp : Bool
  t : Word
  tp : Bool
  anc : BitVec 32
  thirdAnc : BitVec 32
  deriving DecidableEq, Repr

/-- What a fired instruction does: it traps; or it changes the state and delivers a value, a null token or nothing. -/
inductive Fired where
  | trap (cause : Cause) (use : Option Use) (info : BitVec 32) (detail : Word) (detailP : Bool)
  | done (s : State) (v : Option Tok)

def Opd.isNull (o : Opd) : Bool :=
  match o.tok with
  | .null => true
  | .val _ _ => false

def Opd.word (o : Opd) : Word :=
  match o.tok with
  | .null => 0
  | .val v _ => v

def Opd.poison (o : Opd) : Bool :=
  match o.tok with
  | .null => false
  | .val _ p => p

def opdWord (o : Option Opd) : Word := (o.map Opd.word).getD 0
def opdPoison (o : Option Opd) : Bool := (o.map Opd.poison).getD false
def opdAnc (o : Option Opd) : BitVec 32 := (o.map (·.anc)).getD 0
def opdNull (o : Option Opd) : Bool := (o.map Opd.isNull).getD false

/-- R60: every operand the instruction takes has arrived. -/
def ready (f : Info) (sl : Slot) : Bool :=
  (f.nIn == 0 || sl.l.isSome) && (decide (f.nIn < 2) || sl.r.isSome) && (!f.third || sl.t.isSome)

/-- R62: a null token on any operand taken, the predicate and the ordering token included. -/
def hasNull (f : Info) (sl : Slot) : Bool :=
  (f.nIn != 0 && opdNull sl.l) || (decide (2 ≤ f.nIn) && opdNull sl.r) || (f.third && opdNull sl.t)

def argsOf (f : Info) (k : Nat) (sl : Slot) : Args :=
  let l := if f.nIn = 0 then none else sl.l
  let r := if f.nIn < 2 then none else sl.r
  let t := if f.third then sl.t else none
  { slot := k, l := opdWord l, lp := opdPoison l, r := opdWord r, rp := opdPoison r, t := opdWord t, tp := opdPoison t,
    anc := opdAnc l ||| opdAnc r ||| opdAnc t, thirdAnc := opdAnc t }

/-- The output an instruction needs a credit for (R139): given with the word, or with SIG in an operand. -/
def creditOut (i : Instr) (sl : Slot) : Option (BitVec 3) :=
  let l := opdWord sl.l
  let r := opdWord sl.r
  match i with
  | .send _ _ _ _ _ k _ => some k
  | .sendr _ _ _ _ _ k _ => some k
  | .sendm _ _ _ _ k _ => some k
  | .eos _ _ _ k _ => some k
  | .coll _ k _ _ => some k
  | .strmIn _ _ _ _ => if l.getLsbD 11 then some (l.extractLsb' 8 3) else none
  | .strmOut _ _ _ _ => if l.getLsbD 11 then some (l.extractLsb' 8 3) else none
  | .aggo _ _ _ _ _ => if r.getLsbD 3 then some (r.extractLsb' 0 3) else none
  | .mdrain _ _ _ _ _ _ => if l.getLsbD 35 then some (l.extractLsb' 32 3) else none
  | _ => none

/-- The output k of an actor, when a channel binds it (R137). -/
def State.out? (s : State) (act : Nat) (k : BitVec 3) : Option OutPort := mget s.core.ch.outs (act * 8 + k.toNat)

/-- R139: the output named is undeclared (the instruction will trap) or a credit is free. -/
def creditFree (s : State) (i : Instr) (sl : Slot) : Bool :=
  match creditOut i sl with
  | none => true
  | some k =>
    match s.out? s.act k with
    | none => true
    | some o => decide (0 < o.credits)

/-- R97, R166: the instructions that need the staging buffer. -/
def needsStaging (i : Instr) : Bool :=
  match i with
  | .qblk _ _ _ _ _ _ => true
  | .dqblk _ _ _ _ => true
  | .lutld _ _ _ _ => true
  | .rld _ _ _ _ => true
  | _ => false

/-- The staging buffer is free (R97). -/
def stagingFree (s : State) : Bool := s.core.staging.isNone

/-- Takes the credit of an output when its instruction fires (R139). -/
def takeCredit (s : State) (k : BitVec 3) : State :=
  match s.out? s.act k with
  | none => s
  | some o =>
    let s := { s with core := { s.core with ch := { s.core.ch with outs := mset s.core.ch.outs (s.act * 8 + k.toNat) { o with credits := o.credits - 1 } } } }
    s.modBlk (fun b => { b with creds := k :: b.creds })

/-- Marks a slot and counts it toward the four firings and two memory firings of the cycle (R60). -/
def markSlot (s : State) (k : Nat) (st : SlotState) (f : Info) : State :=
  let s := s.modBlk (fun b => { b with took := true, slots := match b.slots[k]? with
    | some sl => b.slots.set k { sl with st := st }
    | none => b.slots })
  if st = .fired then { s with core := { s.core with fired := s.core.fired + 1, mems := if f.mem then s.core.mems + 1 else s.core.mems } } else s

/-- Puts a result on its way: due lat cycles after the firing (R61). -/
def deliver (s : State) (k : Nat) (f : Info) (lat : Nat) (tok : Tok) (anc : BitVec 32) (lsid : Option (BitVec 4)) : State :=
  let due := s.core.cyc + lat
  s.modBlk (fun b => { b with fly := b.fly ++ [⟨due, k, f.t0, f.t1, tok, anc, lsid, none⟩] })

/-- Puts a trap on its way, raised in the cycle in which the token would be delivered (R189, R161). -/
def deliverTrap (s : State) (k lat : Nat) (t : PTrap) : State :=
  let due := s.core.cyc + lat
  s.modBlk (fun b => { b with fly := b.fly ++ [⟨due, k, noT, noT, .null, 0, none, some t⟩] })

/-- Resolves a register of WM (R64): a second resolution is DOUBLE_RESOLVE at the slot. -/
def resolveReg (s : State) (k : Nat) (g : BitVec 6) (r : Option Reg) : State :=
  match s.blk? with
  | none => s
  | some b =>
    if b.wregs.any (fun w => w.1 == g) then takeTrap s ⟨k, .doubleResolve, none, 0, 0, false, false⟩
    else s.setBlk { b with wregs := b.wregs ++ [(g, r)] }

/-- An exit instruction fires (R64): a second one before commit is EXIT_CONFLICT at its slot. -/
def fireExit (s : State) (k : Nat) (e : ExitTo) : State :=
  match s.blk? with
  | none => s
  | some b =>
    if b.exit.isSome then takeTrap s ⟨k, .exitConflict, none, 0, 0, false, false⟩
    else s.setBlk { b with exit := some e, exitNo := ((b.slots[k]?).map (fun sl => sl.word.extractLsb' 19 3)).getD 0 }

/-- A nullified firing (R62): null tokens to the targets, except WRITE (resolves its register), store-class instructions (resolve their LSID
with an ordinary completion of value 0) and exits (nothing). Where R61 fixes no latency, the one taken here is the model's choice
(notes/assumptions). -/
def nullify (i : Instr) (f : Info) (k : Nat) (a : Args) (s : State) : State :=
  match i with
  | .write _ g => resolveReg s k g none
  | _ =>
    match f.lsid with
    | some l => deliver s k f 1 (.val 0 false) (a.anc) (some l)
    | none => if f.value then deliver s k f f.lat .null a.anc none else s

/-- The trap that R31 raises for a poisoned predicate. -/
def predTrap (k : Nat) : PTrap := ⟨k, .poisonUse, some .branch, 0, 0, false, false⟩

/-- R31: whether a predicate lets the instruction fire. -/
def predMatches (pr : BitVec 2) (v : Word) : Bool := if pr = 2 then v == 0 else if pr = 3 then v != 0 else true

/-- THE FIRING of an instruction that stands in the focus slot of the block in the window (R60, R62, R31, R69). A block goes on firing until
its commit, in commit-wait too (R60, R65; notes/assumptions). When the instruction is not enabled, nothing happens. Otherwise it fires
nullified, never fires, or fires normally: then body gives its trap, or its effect and the value it delivers. -/
def fire (i : Instr) (s : State) (body : Info → Args → State → Fired) : Out :=
  match infoOf i, s.blk? with
  | some f, some b =>
    let k := s.core.slot
    match b.slots[k]? with
    | none => .next s
    | some sl =>
      if b.phase = .committing ∨ b.trap.isSome ∨ sl.st ≠ .waiting ∨ ready f sl = false ∨ creditFree s i sl = false ∨
        (needsStaging i ∧ stagingFree s = false) then .next s
      else
        let a := argsOf f k sl
        if hasNull f sl then .next (nullify i f k a (markSlot s k .fired f))
        else if f.pr ≠ 0 ∧ a.tp then .next (takeTrap (markSlot s k .fired f) (predTrap k))
        else if predMatches f.pr a.t = false then .next (markSlot s k .unmatched f)
        else
          match body f a (markSlot s k .fired f) with
          | .trap c u info d dp => .next (takeTrap (markSlot s k .fired f) ⟨k, c, u, info, d, dp, false⟩)
          | .done s' none => .next s'
          | .done s' (some v) => .next (deliver s' k f f.lat v a.anc none)
  | _, _ => .next s

/-- A trap with no detail. -/
def trapNow (c : Cause) : Fired := .trap c none 0 0 false
/-- A poison trap of a use kind (R76, R124). -/
def trapPoison (u : Use) : Fired := .trap .poisonUse (some u) 0 0 false
/-- A trap that carries an address (R366). -/
def trapAddr (c : Cause) (a : Word) : Fired := .trap c none 0 a false

/-- A value instruction of one operand: its poison is the operand's (R76). -/
def fire1 (i : Instr) (s : State) (f : Word → Word) : Out := fire i s (fun _ a s => .done s (some (.val (f a.l) a.lp)))
/-- Of two operands. -/
def fire2 (i : Instr) (s : State) (f : Word → Word → Word) : Out := fire i s (fun _ a s => .done s (some (.val (f a.l a.r) (a.lp || a.rp))))
/-- Of three. -/
def fire3 (i : Instr) (s : State) (f : Word → Word → Word → Word) : Out :=
  fire i s (fun _ a s => .done s (some (.val (f a.l a.r a.t) (a.lp || a.rp || a.tp))))
/-- A constant, never poisoned (R76). -/
def fire0 (i : Instr) (s : State) (v : Word) : Out := fire i s (fun _ _ s => .done s (some (.val v false)))

/-- Adds a commit effect (R68). -/
def addAct (s : State) (k ready : Nat) (a : ActKind) : State := s.modBlk (fun b => { b with acts := b.acts ++ [⟨k, ready, a⟩] })

/-- Marks sticky status bits for the commit (R47, R68 step 4). -/
def orFpst (s : State) (bits : BitVec 6) : State := s.modBlk (fun b => { b with fpst := b.fpst ||| bits })

end Sys2Proof.Machine
end

