-- ==== Sys2Proof/Machine/Alu.lean ====
section
/-!
DEFINITION. Integer arithmetic, logic, immediates, tests and bit fields (R87 to R94). The value functions are written on an n-bit view,
n = 64 or 32; each instruction has its own one-line meaning over them.
-/

namespace Sys2Proof.Machine

open Sys2Proof

-- The value functions of R88, over width n

/-- The low n bits of a word as an n-bit view, for the .w forms. -/
def lo32 (x : Word) : BitVec 32 := x.setWidth 32
/-- R34: a 32-bit result is zero-extended. -/
def ext32 (x : BitVec 32) : Word := x.setWidth 64
/-- A 32-bit operation on words (R34, R87). -/
def w1 (f : BitVec 32 → BitVec 32) (x : Word) : Word := ext32 (f (lo32 x))
def w2 (f : BitVec 32 → BitVec 32 → BitVec 32) (x y : Word) : Word := ext32 (f (lo32 x) (lo32 y))

variable {n : Nat}

/-- MULHS: the high half of the signed product. -/
def opMulhs (a b : BitVec n) : BitVec n := BitVec.ofInt n ((a.toInt * b.toInt) / 2 ^ n)
/-- MULHU: the high half of the unsigned product. -/
def opMulhu (a b : BitVec n) : BitVec n := BitVec.ofNat n (a.toNat * b.toNat / 2 ^ n)
/-- DIVS: all ones by zero, else truncation; the one overflow returns the dividend's pattern. -/
def opDivs (a b : BitVec n) : BitVec n := if b.toInt = 0 then BitVec.ofInt n (-1) else BitVec.ofInt n (a.toInt.tdiv b.toInt)
def opDivu (a b : BitVec n) : BitVec n := if b.toNat = 0 then BitVec.ofInt n (-1) else BitVec.ofNat n (a.toNat / b.toNat)
def opRems (a b : BitVec n) : BitVec n := if b.toInt = 0 then a else BitVec.ofInt n (a.toInt.tmod b.toInt)
def opRemu (a b : BitVec n) : BitVec n := if b.toNat = 0 then a else BitVec.ofNat n (a.toNat % b.toNat)
def opMin (a b : BitVec n) : BitVec n := if a.toInt ≤ b.toInt then a else b
def opMax (a b : BitVec n) : BitVec n := if a.toInt ≤ b.toInt then b else a
def opMinu (a b : BitVec n) : BitVec n := if a.toNat ≤ b.toNat then a else b
def opMaxu (a b : BitVec n) : BitVec n := if a.toNat ≤ b.toNat then b else a
/-- SHL: the whole unsigned right operand is the amount. -/
def opShl (a b : BitVec n) : BitVec n := if n ≤ b.toNat then 0 else a <<< b.toNat
def opShr (a b : BitVec n) : BitVec n := if n ≤ b.toNat then 0 else a >>> b.toNat
def opSar (a b : BitVec n) : BitVec n :=
  if n ≤ b.toNat then (if a.toInt < 0 then BitVec.ofInt n (-1) else 0) else BitVec.ofInt n (a.toInt / 2 ^ b.toNat)
def opRol (a b : BitVec n) : BitVec n :=
  let k := b.toNat % n
  (a <<< k) ||| (a >>> (n - k))
def opRor (a b : BitVec n) : BitVec n :=
  let k := b.toNat % n
  (a >>> k) ||| (a <<< (n - k))
def opAbs (a : BitVec n) : BitVec n := if a.toInt < 0 then 0 - a else a

/-- Leading zeros among the low k bits, from bit k - 1 down. -/
def lzFrom (a : BitVec n) (k : Nat) : Nat :=
  match k with
  | 0 => 0
  | k + 1 => if a.getLsbD k then 0 else 1 + lzFrom a k
/-- Trailing zeros from bit i, with k bits left. -/
def tzFrom (a : BitVec n) (i k : Nat) : Nat :=
  match k with
  | 0 => 0
  | k + 1 => if a.getLsbD i then 0 else 1 + tzFrom a (i + 1) k
/-- One bits among the low k bits. -/
def onesBelow (a : BitVec n) (k : Nat) : Nat :=
  match k with
  | 0 => 0
  | k + 1 => (if a.getLsbD k then 1 else 0) + onesBelow a k
def opClz (a : BitVec n) : BitVec n := BitVec.ofNat n (lzFrom a n)
def opCtz (a : BitVec n) : BitVec n := BitVec.ofNat n (tzFrom a 0 n)
def opPopc (a : BitVec n) : BitVec n := BitVec.ofNat n (onesBelow a n)
def opBrev (a : BitVec n) : BitVec n := a.reverse
/-- BSWAP: byte j goes to byte n/8 - 1 - j. -/
def opBswap (a : BitVec n) : BitVec n := BitVec.ofNat n (leNat (leBytes (n / 8) a.toNat).reverse)

/-- sext(x, k): bits k - 1 to 0, sign-extended (R53). -/
def sextW (k : Nat) (x : Word) : Word := (x.setWidth k).signExtend 64
/-- zext(x, k): bits k - 1 to 0, zero-extended (R53). -/
def zextW (k : Nat) (x : Word) : Word := (x.setWidth k).setWidth 64
/-- A signed 15-bit immediate (R89). -/
def imm15 (i : BitVec 15) : Word := i.signExtend 64
/-- A test's result (R90). -/
def bit (b : Bool) : Word := if b then 1 else 0
/-- A test at the width its W bit selects (R36). -/
def testW (w : BitVec 1) (f64 : Word → Word → Bool) (f32 : BitVec 32 → BitVec 32 → Bool) (x y : Word) : Word :=
  if w = 1 then bit (f32 (lo32 x) (lo32 y)) else bit (f64 x y)
/-- A shift immediate at its width (R89). -/
def shiftI (w : BitVec 1) (s : BitVec 6) (f64 : Word → Word → Word) (f32 : BitVec 32 → BitVec 32 → BitVec 32) (x : Word) : Word :=
  if w = 1 then ext32 (f32 (lo32 x) (s.setWidth 32)) else f64 x (s.setWidth 64)

def opTeq (a b : BitVec n) : Bool := a == b
def opTne (a b : BitVec n) : Bool := a != b
def opTlt (a b : BitVec n) : Bool := decide (a.toInt < b.toInt)
def opTle (a b : BitVec n) : Bool := decide (a.toInt ≤ b.toInt)
def opTltu (a b : BitVec n) : Bool := decide (a.toNat < b.toNat)
def opTleu (a b : BitVec n) : Bool := decide (a.toNat ≤ b.toNat)

/-- R91: the truth table's bit at 4 left + 2 right + third. -/
def lop3Bit (t : BitVec 8) (x y z : Bool) : Bool := t.getLsbD ((if x then 4 else 0) + (if y then 2 else 0) + (if z then 1 else 0))
/-- R91: LOP3, the disjunction of the minterms its table selects. -/
def opLop3 (t : BitVec 8) (x y z : Word) : Word :=
  let pick (k : Nat) (m : Word) : Word := if t.getLsbD k then m else 0
  pick 7 (x &&& y &&& z) ||| pick 6 (x &&& y &&& ~~~z) ||| pick 5 (x &&& ~~~y &&& z) ||| pick 4 (x &&& ~~~y &&& ~~~z) |||
  pick 3 (~~~x &&& y &&& z) ||| pick 2 (~~~x &&& y &&& ~~~z) ||| pick 1 (~~~x &&& ~~~y &&& z) ||| pick 0 (~~~x &&& ~~~y &&& ~~~z)
/-- R92: funnel shift left of hi:lo by s, over width n. -/
def opFshl (hi lo : BitVec n) (s : Nat) : BitVec n := BitVec.ofNat n ((hi.toNat * 2 ^ n + lo.toNat) * 2 ^ s / 2 ^ n)
def opFshr (hi lo : BitVec n) (s : Nat) : BitVec n := BitVec.ofNat n ((hi.toNat * 2 ^ n + lo.toNat) / 2 ^ s)
/-- R92 at the width fn selects. -/
def funnel (w : BitVec 1) (f64 : Word → Word → Nat → Word) (f32 : BitVec 32 → BitVec 32 → Nat → BitVec 32) (x y z : Word) : Word :=
  if w = 1 then ext32 (f32 (lo32 x) (lo32 y) (z.toNat % 32)) else f64 x y (z.toNat % 64)
/-- R93: the field of width w at bit p. -/
def opExtb (sx : BitVec 1) (w p : Nat) (x : Word) : Word := if sx = 1 then sextW w (x >>> p) else zextW w (x >>> p)
/-- R94: INSB with its control word. -/
def opInsb (x y c : Word) : Word :=
  let p := c.toNat % 64
  let w := c.toNat / 256 % 64 + 1
  let mask : Word := BitVec.ofNat 64 ((2 ^ w - 1) * 2 ^ p)
  (x &&& ~~~mask) ||| ((y <<< p) &&& mask)

-- The meanings


/-- ADD (R88). -/
def execAdd (p : BitVec 2) (b : BitVec 7) (a : BitVec 7) (s : State) : Out :=
  fire2 (.add p b a) s (fun x y => x + y)

/-- SUB (R88). -/
def execSub (p : BitVec 2) (b : BitVec 7) (a : BitVec 7) (s : State) : Out :=
  fire2 (.sub p b a) s (fun x y => x - y)

/-- MUL (R88). -/
def execMul (p : BitVec 2) (b : BitVec 7) (a : BitVec 7) (s : State) : Out :=
  fire2 (.mul p b a) s (fun x y => x * y)

/-- MULHS (R88). -/
def execMulhs (p : BitVec 2) (b : BitVec 7) (a : BitVec 7) (s : State) : Out :=
  fire2 (.mulhs p b a) s opMulhs

/-- MULHU (R88). -/
def execMulhu (p : BitVec 2) (b : BitVec 7) (a : BitVec 7) (s : State) : Out :=
  fire2 (.mulhu p b a) s opMulhu

/-- DIVS (R88). -/
def execDivs (p : BitVec 2) (b : BitVec 7) (a : BitVec 7) (s : State) : Out :=
  fire2 (.divs p b a) s opDivs

/-- DIVU (R88). -/
def execDivu (p : BitVec 2) (b : BitVec 7) (a : BitVec 7) (s : State) : Out :=
  fire2 (.divu p b a) s opDivu

/-- REMS (R88). -/
def execRems (p : BitVec 2) (b : BitVec 7) (a : BitVec 7) (s : State) : Out :=
  fire2 (.rems p b a) s opRems

/-- REMU (R88). -/
def execRemu (p : BitVec 2) (b : BitVec 7) (a : BitVec 7) (s : State) : Out :=
  fire2 (.remu p b a) s opRemu

/-- MIN (R88). -/
def execMin (p : BitVec 2) (b : BitVec 7) (a : BitVec 7) (s : State) : Out :=
  fire2 (.min p b a) s opMin

/-- MAX (R88). -/
def execMax (p : BitVec 2) (b : BitVec 7) (a : BitVec 7) (s : State) : Out :=
  fire2 (.max p b a) s opMax

/-- MINU (R88). -/
def execMinu (p : BitVec 2) (b : BitVec 7) (a : BitVec 7) (s : State) : Out :=
  fire2 (.minu p b a) s opMinu

/-- MAXU (R88). -/
def execMaxu (p : BitVec 2) (b : BitVec 7) (a : BitVec 7) (s : State) : Out :=
  fire2 (.maxu p b a) s opMaxu

/-- AND (R88). -/
def execAnd (p : BitVec 2) (b : BitVec 7) (a : BitVec 7) (s : State) : Out :=
  fire2 (.and p b a) s (fun x y => x &&& y)

/-- OR (R88). -/
def execOr (p : BitVec 2) (b : BitVec 7) (a : BitVec 7) (s : State) : Out :=
  fire2 (.or p b a) s (fun x y => x ||| y)

/-- XOR (R88). -/
def execXor (p : BitVec 2) (b : BitVec 7) (a : BitVec 7) (s : State) : Out :=
  fire2 (.xor p b a) s (fun x y => x ^^^ y)

/-- ANDN (R88). -/
def execAndn (p : BitVec 2) (b : BitVec 7) (a : BitVec 7) (s : State) : Out :=
  fire2 (.andn p b a) s (fun x y => x &&& ~~~y)

/-- ORN (R88). -/
def execOrn (p : BitVec 2) (b : BitVec 7) (a : BitVec 7) (s : State) : Out :=
  fire2 (.orn p b a) s (fun x y => x ||| ~~~y)

/-- XNOR (R88). -/
def execXnor (p : BitVec 2) (b : BitVec 7) (a : BitVec 7) (s : State) : Out :=
  fire2 (.xnor p b a) s (fun x y => ~~~(x ^^^ y))

/-- SHL (R88). -/
def execShl (p : BitVec 2) (b : BitVec 7) (a : BitVec 7) (s : State) : Out :=
  fire2 (.shl p b a) s opShl

/-- SHR (R88). -/
def execShr (p : BitVec 2) (b : BitVec 7) (a : BitVec 7) (s : State) : Out :=
  fire2 (.shr p b a) s opShr

/-- SAR (R88). -/
def execSar (p : BitVec 2) (b : BitVec 7) (a : BitVec 7) (s : State) : Out :=
  fire2 (.sar p b a) s opSar

/-- ROL (R88). -/
def execRol (p : BitVec 2) (b : BitVec 7) (a : BitVec 7) (s : State) : Out :=
  fire2 (.rol p b a) s opRol

/-- ROR (R88). -/
def execRor (p : BitVec 2) (b : BitVec 7) (a : BitVec 7) (s : State) : Out :=
  fire2 (.ror p b a) s opRor

/-- ABS (R88). -/
def execAbs (p : BitVec 2) (b : BitVec 7) (a : BitVec 7) (s : State) : Out :=
  fire1 (.abs p b a) s opAbs

/-- CLZ (R88). -/
def execClz (p : BitVec 2) (b : BitVec 7) (a : BitVec 7) (s : State) : Out :=
  fire1 (.clz p b a) s opClz

/-- CTZ (R88). -/
def execCtz (p : BitVec 2) (b : BitVec 7) (a : BitVec 7) (s : State) : Out :=
  fire1 (.ctz p b a) s opCtz

/-- POPC (R88). -/
def execPopc (p : BitVec 2) (b : BitVec 7) (a : BitVec 7) (s : State) : Out :=
  fire1 (.popc p b a) s opPopc

/-- BREV (R88). -/
def execBrev (p : BitVec 2) (b : BitVec 7) (a : BitVec 7) (s : State) : Out :=
  fire1 (.brev p b a) s opBrev

/-- BSWAP (R88). -/
def execBswap (p : BitVec 2) (b : BitVec 7) (a : BitVec 7) (s : State) : Out :=
  fire1 (.bswap p b a) s opBswap

/-- SEXT_B (R88). -/
def execSextB (p : BitVec 2) (b : BitVec 7) (a : BitVec 7) (s : State) : Out :=
  fire1 (.sextB p b a) s (sextW 8)

/-- SEXT_H (R88). -/
def execSextH (p : BitVec 2) (b : BitVec 7) (a : BitVec 7) (s : State) : Out :=
  fire1 (.sextH p b a) s (sextW 16)

/-- SEXT_W (R88). -/
def execSextW (p : BitVec 2) (b : BitVec 7) (a : BitVec 7) (s : State) : Out :=
  fire1 (.sextW p b a) s (sextW 32)

/-- ZEXT_B (R88). -/
def execZextB (p : BitVec 2) (b : BitVec 7) (a : BitVec 7) (s : State) : Out :=
  fire1 (.zextB p b a) s (zextW 8)

/-- ZEXT_H (R88). -/
def execZextH (p : BitVec 2) (b : BitVec 7) (a : BitVec 7) (s : State) : Out :=
  fire1 (.zextH p b a) s (zextW 16)

/-- ZEXT_W (R88). -/
def execZextW (p : BitVec 2) (b : BitVec 7) (a : BitVec 7) (s : State) : Out :=
  fire1 (.zextW p b a) s (zextW 32)

/-- ADD_W (R34, R88). -/
def execAddW (p : BitVec 2) (b : BitVec 7) (a : BitVec 7) (s : State) : Out :=
  fire2 (.addW p b a) s (w2 (fun x y => x + y))

/-- SUB_W (R34, R88). -/
def execSubW (p : BitVec 2) (b : BitVec 7) (a : BitVec 7) (s : State) : Out :=
  fire2 (.subW p b a) s (w2 (fun x y => x - y))

/-- MUL_W (R34, R88). -/
def execMulW (p : BitVec 2) (b : BitVec 7) (a : BitVec 7) (s : State) : Out :=
  fire2 (.mulW p b a) s (w2 (fun x y => x * y))

/-- MULHS_W (R34, R88). -/
def execMulhsW (p : BitVec 2) (b : BitVec 7) (a : BitVec 7) (s : State) : Out :=
  fire2 (.mulhsW p b a) s (w2 opMulhs)

/-- MULHU_W (R34, R88). -/
def execMulhuW (p : BitVec 2) (b : BitVec 7) (a : BitVec 7) (s : State) : Out :=
  fire2 (.mulhuW p b a) s (w2 opMulhu)

/-- DIVS_W (R34, R88). -/
def execDivsW (p : BitVec 2) (b : BitVec 7) (a : BitVec 7) (s : State) : Out :=
  fire2 (.divsW p b a) s (w2 opDivs)

/-- DIVU_W (R34, R88). -/
def execDivuW (p : BitVec 2) (b : BitVec 7) (a : BitVec 7) (s : State) : Out :=
  fire2 (.divuW p b a) s (w2 opDivu)

/-- REMS_W (R34, R88). -/
def execRemsW (p : BitVec 2) (b : BitVec 7) (a : BitVec 7) (s : State) : Out :=
  fire2 (.remsW p b a) s (w2 opRems)

/-- REMU_W (R34, R88). -/
def execRemuW (p : BitVec 2) (b : BitVec 7) (a : BitVec 7) (s : State) : Out :=
  fire2 (.remuW p b a) s (w2 opRemu)

/-- MIN_W (R34, R88). -/
def execMinW (p : BitVec 2) (b : BitVec 7) (a : BitVec 7) (s : State) : Out :=
  fire2 (.minW p b a) s (w2 opMin)

/-- MAX_W (R34, R88). -/
def execMaxW (p : BitVec 2) (b : BitVec 7) (a : BitVec 7) (s : State) : Out :=
  fire2 (.maxW p b a) s (w2 opMax)

/-- MINU_W (R34, R88). -/
def execMinuW (p : BitVec 2) (b : BitVec 7) (a : BitVec 7) (s : State) : Out :=
  fire2 (.minuW p b a) s (w2 opMinu)

/-- MAXU_W (R34, R88). -/
def execMaxuW (p : BitVec 2) (b : BitVec 7) (a : BitVec 7) (s : State) : Out :=
  fire2 (.maxuW p b a) s (w2 opMaxu)

/-- AND_W (R34, R88). -/
def execAndW (p : BitVec 2) (b : BitVec 7) (a : BitVec 7) (s : State) : Out :=
  fire2 (.andW p b a) s (w2 (fun x y => x &&& y))

/-- OR_W (R34, R88). -/
def execOrW (p : BitVec 2) (b : BitVec 7) (a : BitVec 7) (s : State) : Out :=
  fire2 (.orW p b a) s (w2 (fun x y => x ||| y))

/-- XOR_W (R34, R88). -/
def execXorW (p : BitVec 2) (b : BitVec 7) (a : BitVec 7) (s : State) : Out :=
  fire2 (.xorW p b a) s (w2 (fun x y => x ^^^ y))

/-- ANDN_W (R34, R88). -/
def execAndnW (p : BitVec 2) (b : BitVec 7) (a : BitVec 7) (s : State) : Out :=
  fire2 (.andnW p b a) s (w2 (fun x y => x &&& ~~~y))

/-- ORN_W (R34, R88). -/
def execOrnW (p : BitVec 2) (b : BitVec 7) (a : BitVec 7) (s : State) : Out :=
  fire2 (.ornW p b a) s (w2 (fun x y => x ||| ~~~y))

/-- XNOR_W (R34, R88). -/
def execXnorW (p : BitVec 2) (b : BitVec 7) (a : BitVec 7) (s : State) : Out :=
  fire2 (.xnorW p b a) s (w2 (fun x y => ~~~(x ^^^ y)))

/-- SHL_W (R34, R88). -/
def execShlW (p : BitVec 2) (b : BitVec 7) (a : BitVec 7) (s : State) : Out :=
  fire2 (.shlW p b a) s (w2 opShl)

/-- SHR_W (R34, R88). -/
def execShrW (p : BitVec 2) (b : BitVec 7) (a : BitVec 7) (s : State) : Out :=
  fire2 (.shrW p b a) s (w2 opShr)

/-- SAR_W (R34, R88). -/
def execSarW (p : BitVec 2) (b : BitVec 7) (a : BitVec 7) (s : State) : Out :=
  fire2 (.sarW p b a) s (w2 opSar)

/-- ROL_W (R34, R88). -/
def execRolW (p : BitVec 2) (b : BitVec 7) (a : BitVec 7) (s : State) : Out :=
  fire2 (.rolW p b a) s (w2 opRol)

/-- ROR_W (R34, R88). -/
def execRorW (p : BitVec 2) (b : BitVec 7) (a : BitVec 7) (s : State) : Out :=
  fire2 (.rorW p b a) s (w2 opRor)

/-- ABS_W (R34, R88). -/
def execAbsW (p : BitVec 2) (b : BitVec 7) (a : BitVec 7) (s : State) : Out :=
  fire1 (.absW p b a) s (w1 opAbs)

/-- CLZ_W (R34, R88). -/
def execClzW (p : BitVec 2) (b : BitVec 7) (a : BitVec 7) (s : State) : Out :=
  fire1 (.clzW p b a) s (w1 opClz)

/-- CTZ_W (R34, R88). -/
def execCtzW (p : BitVec 2) (b : BitVec 7) (a : BitVec 7) (s : State) : Out :=
  fire1 (.ctzW p b a) s (w1 opCtz)

/-- POPC_W (R34, R88). -/
def execPopcW (p : BitVec 2) (b : BitVec 7) (a : BitVec 7) (s : State) : Out :=
  fire1 (.popcW p b a) s (w1 opPopc)

/-- BREV_W (R34, R88). -/
def execBrevW (p : BitVec 2) (b : BitVec 7) (a : BitVec 7) (s : State) : Out :=
  fire1 (.brevW p b a) s (w1 opBrev)

/-- BSWAP_W (R34, R88). -/
def execBswapW (p : BitVec 2) (b : BitVec 7) (a : BitVec 7) (s : State) : Out :=
  fire1 (.bswapW p b a) s (w1 opBswap)

/-- ADDI (R89). -/
def execAddi (p : BitVec 2) (i : BitVec 15) (a : BitVec 7) (s : State) : Out :=
  fire1 (.addi p i a) s (fun x => x + imm15 i)

/-- ADDI_W (R89). -/
def execAddiW (p : BitVec 2) (i : BitVec 15) (a : BitVec 7) (s : State) : Out :=
  fire1 (.addiW p i a) s (fun x => ext32 (lo32 x + lo32 (imm15 i)))

/-- ANDI (R89). -/
def execAndi (p : BitVec 2) (i : BitVec 15) (a : BitVec 7) (s : State) : Out :=
  fire1 (.andi p i a) s (fun x => x &&& imm15 i)

/-- ORI (R89). -/
def execOri (p : BitVec 2) (i : BitVec 15) (a : BitVec 7) (s : State) : Out :=
  fire1 (.ori p i a) s (fun x => x ||| imm15 i)

/-- XORI (R89). -/
def execXori (p : BitVec 2) (i : BitVec 15) (a : BitVec 7) (s : State) : Out :=
  fire1 (.xori p i a) s (fun x => x ^^^ imm15 i)

/-- SHLI (R89). -/
def execShli (p : BitVec 2) (w : BitVec 1) (n : BitVec 6) (a : BitVec 7) (s : State) : Out :=
  fire1 (.shli p w n a) s (shiftI w n opShl opShl)

/-- SHRI (R89). -/
def execShri (p : BitVec 2) (w : BitVec 1) (n : BitVec 6) (a : BitVec 7) (s : State) : Out :=
  fire1 (.shri p w n a) s (shiftI w n opShr opShr)

/-- SARI (R89). -/
def execSari (p : BitVec 2) (w : BitVec 1) (n : BitVec 6) (a : BitVec 7) (s : State) : Out :=
  fire1 (.sari p w n a) s (shiftI w n opSar opSar)

/-- ROLI (R89). -/
def execRoli (p : BitVec 2) (w : BitVec 1) (n : BitVec 6) (a : BitVec 7) (s : State) : Out :=
  fire1 (.roli p w n a) s (shiftI w n opRol opRol)

/-- RORI (R89). -/
def execRori (p : BitVec 2) (w : BitVec 1) (n : BitVec 6) (a : BitVec 7) (s : State) : Out :=
  fire1 (.rori p w n a) s (shiftI w n opRor opRor)

/-- TEQ (R36, R90). -/
def execTeq (p : BitVec 2) (w : BitVec 1) (b : BitVec 7) (a : BitVec 7) (s : State) : Out :=
  fire2 (.teq p w b a) s (testW w opTeq opTeq)

/-- TNE (R36, R90). -/
def execTne (p : BitVec 2) (w : BitVec 1) (b : BitVec 7) (a : BitVec 7) (s : State) : Out :=
  fire2 (.tne p w b a) s (testW w opTne opTne)

/-- TLT (R36, R90). -/
def execTlt (p : BitVec 2) (w : BitVec 1) (b : BitVec 7) (a : BitVec 7) (s : State) : Out :=
  fire2 (.tlt p w b a) s (testW w opTlt opTlt)

/-- TLE (R36, R90). -/
def execTle (p : BitVec 2) (w : BitVec 1) (b : BitVec 7) (a : BitVec 7) (s : State) : Out :=
  fire2 (.tle p w b a) s (testW w opTle opTle)

/-- TLTU (R36, R90). -/
def execTltu (p : BitVec 2) (w : BitVec 1) (b : BitVec 7) (a : BitVec 7) (s : State) : Out :=
  fire2 (.tltu p w b a) s (testW w opTltu opTltu)

/-- TLEU (R36, R90). -/
def execTleu (p : BitVec 2) (w : BitVec 1) (b : BitVec 7) (a : BitVec 7) (s : State) : Out :=
  fire2 (.tleu p w b a) s (testW w opTleu opTleu)

/-- TEQI (R90). -/
def execTeqi (p : BitVec 2) (i : BitVec 15) (a : BitVec 7) (s : State) : Out :=
  fire1 (.teqi p i a) s (fun x => bit (opTeq x (imm15 i)))

/-- TNEI (R90). -/
def execTnei (p : BitVec 2) (i : BitVec 15) (a : BitVec 7) (s : State) : Out :=
  fire1 (.tnei p i a) s (fun x => bit (opTne x (imm15 i)))

/-- TLTI (R90). -/
def execTlti (p : BitVec 2) (i : BitVec 15) (a : BitVec 7) (s : State) : Out :=
  fire1 (.tlti p i a) s (fun x => bit (opTlt x (imm15 i)))

/-- TLEI (R90). -/
def execTlei (p : BitVec 2) (i : BitVec 15) (a : BitVec 7) (s : State) : Out :=
  fire1 (.tlei p i a) s (fun x => bit (opTle x (imm15 i)))

/-- TLTUI (R90). -/
def execTltui (p : BitVec 2) (i : BitVec 15) (a : BitVec 7) (s : State) : Out :=
  fire1 (.tltui p i a) s (fun x => bit (opTltu x (imm15 i)))

/-- TLEUI (R90). -/
def execTleui (p : BitVec 2) (i : BitVec 15) (a : BitVec 7) (s : State) : Out :=
  fire1 (.tleui p i a) s (fun x => bit (opTleu x (imm15 i)))

/-- LOP3 (R91). -/
def execLop3 (t : BitVec 8) (b : BitVec 7) (a : BitVec 7) (s : State) : Out :=
  fire3 (.lop3 t b a) s (opLop3 t)

/-- FSHL (R92). -/
def execFshl (w : BitVec 1) (b : BitVec 7) (a : BitVec 7) (s : State) : Out :=
  fire3 (.fshl w b a) s (funnel w opFshl opFshl)

/-- FSHR (R92). -/
def execFshr (w : BitVec 1) (b : BitVec 7) (a : BitVec 7) (s : State) : Out :=
  fire3 (.fshr w b a) s (funnel w opFshr opFshr)

/-- EXTB (R93). -/
def execExtb (p : BitVec 2) (x : BitVec 1) (w : BitVec 6) (o : BitVec 6) (a : BitVec 7) (s : State) : Out :=
  fire1 (.extb p x w o a) s (opExtb x (w.toNat + 1) o.toNat)

/-- INSB (R94). -/
def execInsb (b : BitVec 7) (a : BitVec 7) (s : State) : Out :=
  fire3 (.insb b a) s opInsb


end Sys2Proof.Machine
end

