-- ==== Sys2Proof/Machine/Control.lean ====
section
/-!
DEFINITION. Exits, control and data movement (R76 to R86), and the special registers (R46).
-/

namespace Sys2Proof.Machine

open Sys2Proof

/-- The address of the block in the window. -/
def State.blkAddr (s : State) : BitVec 32 := (s.blk?.map (·.addr)).getD 0

/-- R78: a block-relative target, off19 in units of 16 bytes, modulo 2^32. -/
def blkTarget (s : State) (off : BitVec 19) : BitVec 32 := s.blkAddr + (off.signExtend 32 <<< 4)

/-- R78: the checks of a BRR or CALLR target, then the exit. -/
def exitTo (mk : BitVec 32 → ExitTo) (a : Args) (s : State) : Fired :=
  if a.lp then trapPoison .branch
  else if a.l.toNat / 2 ^ 32 ≠ 0 ∨ a.l.toNat % 16 ≠ 0 then trapAddr .badBranch a.l
  else .done (fireExit s a.slot (mk (a.l.setWidth 32))) none

/-- BRO (R78). -/
def execBro (p : BitVec 2) (e : BitVec 3) (o : BitVec 19) (s : State) : Out :=
  fire (.bro p e o) s (fun _ a s => .done (fireExit s a.slot (.jump (blkTarget s o))) none)

/-- BRR (R78). -/
def execBrr (p : BitVec 2) (e : BitVec 3) (s : State) : Out := fire (.brr p e) s (fun _ a s => exitTo .jump a s)

/-- CALLO (R78). -/
def execCallo (p : BitVec 2) (e : BitVec 3) (o : BitVec 19) (s : State) : Out :=
  fire (.callo p e o) s (fun _ a s => .done (fireExit s a.slot (.call (blkTarget s o))) none)

/-- CALLR (R78). -/
def execCallr (p : BitVec 2) (e : BitVec 3) (s : State) : Out := fire (.callr p e) s (fun _ a s => exitTo .call a s)

/-- RET (R78): to %link as committed before this block. -/
def execRet (p : BitVec 2) (e : BitVec 3) (s : State) : Out :=
  fire (.ret p e) s (fun _ a s =>
    let link := s.level.link
    if link.toNat % 16 ≠ 0 then trapAddr .badBranch (link.setWidth 64) else .done (fireExit s a.slot (.jump link)) none)

/-- HEND (R78). -/
def execHend (p : BitVec 2) (e : BitVec 3) (s : State) : Out := fire (.hend p e) s (fun _ a s => .done (fireExit s a.slot .hend) none)

/-- TRAPI (R81): USER_TRAP with its code. -/
def execTrapi (p : BitVec 2) (c : BitVec 12) (s : State) : Out :=
  fire (.trapi p c) s (fun _ _ _ => .trap .userTrap none 0 (c.setWidth 64) false)

/-- BRK (R81): with %dbgen set the window stops at the end of the cycle. -/
def execBrk (p : BitVec 2) (c : BitVec 8) (s : State) : Out :=
  fire (.brk p c) s (fun _ _ s =>
    if s.core.sys.dbgen then .done { s with core := { s.core with sys := { s.core.sys with brk := true } } } none else .done s none)

/-- NOP (R81). -/
def execNop (p : BitVec 2) (s : State) : Out := fire (.nop p) s (fun _ _ s => .done s none)

/-- RSTL (R80): records a restart label for the commit. -/
def execRstl (p : BitVec 2) (o : BitVec 19) (s : State) : Out :=
  fire (.rstl p o) s (fun _ a s => .done (addAct s a.slot 0 (.rstl (blkTarget s o))) none)

/-- MOV (R82). -/
def execMov (p : BitVec 2) (b : BitVec 7) (a : BitVec 7) (s : State) : Out := fire1 (.mov p b a) s (fun x => x)

/-- MOVI (R82). -/
def execMovi (i : BitVec 17) (a : BitVec 7) (s : State) : Out := fire0 (.movi i a) s (i.signExtend 64)

/-- GENC (R82). -/
def execGenc (p : BitVec 2) (i : BitVec 15) (a : BitVec 7) (s : State) : Out := fire0 (.genc p i a) s (i.signExtend 64)

/-- APPC (R82). -/
def execAppc (p : BitVec 2) (i : BitVec 14) (a : BitVec 7) (s : State) : Out :=
  fire1 (.appc p i a) s (fun x => (x <<< 14) ||| i.setWidth 64)

/-- NULL (R82). -/
def execNull (p : BitVec 2) (b : BitVec 7) (a : BitVec 7) (s : State) : Out := fire (.null p b a) s (fun _ _ s => .done s (some .null))

/-- SEL (R83). -/
def execSel (b : BitVec 7) (a : BitVec 7) (s : State) : Out :=
  fire (.sel b a) s (fun _ x s => .done s (some (if x.t ≠ 0 then .val x.l (x.lp || x.tp) else .val x.r (x.rp || x.tp))))

/-- READ (R84, R59): the register as it stood at the block's entry. -/
def execRead (p : BitVec 2) (r : BitVec 6) (b : BitVec 7) (a : BitVec 7) (s : State) : Out :=
  fire (.read p r b a) s (fun _ _ s =>
    let g := regGet s.level.regs r.toNat
    .done s (some (.val g.v g.p)))

/-- WRITE (R84): resolves its register; the register changes at commit. -/
def execWrite (p : BitVec 2) (r : BitVec 6) (s : State) : Out :=
  fire (.write p r) s (fun _ a s => .done (resolveReg s a.slot r (some ⟨a.l, a.lp⟩)) none)

/-- The task-table entry of the running invocation (R225). -/
def State.task (s : State) : BitVec 128 :=
  match s.inv? with
  | none => 0
  | some i => mgetD s.core.ch.tasks i.chan.toNat 0

/-- %wdog in ns (R46, R237). -/
def Level.wdogNs (l : Level) : Nat := l.wdog / 1000000

/-- The value of a special register (R46); numbers above 0x12 are refused at fetch. -/
def specialRead (s : State) (n : BitVec 8) : Word :=
  let l := s.level
  let y := s.core.sys
  match n.toNat with
  | 0x00 => BitVec.ofNat 64 s.core.cyc
  | 0x01 => BitVec.ofNat 64 s.cur
  | 0x02 => ((s.inv?.map Inv.chan).getD 0).setWidth 64
  | 0x03 => ((s.inv?.map Inv.tag).getD 0).setWidth 64
  | 0x04 => if s.lvl then 1 else 0
  | 0x05 => ((s.inv?.map Inv.rin).getD s.core.recov.rin).setWidth 64
  | 0x06 => y.rver.setWidth 64
  | 0x07 => y.fduty.setWidth 64
  | 0x08 => y.disc
  | 0x09 => l.seed.setWidth 64
  | 0x0A => l.fpst.setWidth 64
  | 0x0B => l.link.setWidth 64
  | 0x0C => l.rstl.setWidth 64
  | 0x0D => BitVec.ofNat 64 (y.part.getD 0)
  | 0x0E => y.region.setWidth 64
  | 0x0F => BitVec.ofNat 64 (s.core.time s.time)
  | 0x10 => BitVec.ofNat 64 l.wdogNs
  | 0x11 => (s.task.extractLsb' 113 15).setWidth 64 <<< 4
  | _ => (s.task.extractLsb' 83 15).setWidth 64 <<< 4

/-- MFS (R85): the special's value at this moment, never poisoned. -/
def execMfs (p : BitVec 2) (n : BitVec 8) (a : BitVec 7) (s : State) : Out :=
  fire (.mfs p n a) s (fun _ _ s => .done s (some (.val (specialRead s n) false)))

/-- MTS (R85): writes its special at commit. -/
def execMts (p : BitVec 2) (n : BitVec 8) (s : State) : Out :=
  fire (.mts p n) s (fun _ a s => if a.lp then trapPoison .special else .done (addAct s a.slot 0 (.mts n a.l)) none)

end Sys2Proof.Machine
end

