-- ==== Sys2Proof/Machine/MemOps.lean ====
section
/-!
DEFINITION. Memory, atomic, token and synchronisation instructions (R120 to R145) and the reading and address rules they share.
-/

namespace Sys2Proof.Machine

open Sys2Proof

-- Address classes (R120)

/-- The class of a 64-bit address. -/
inductive AClass where
  | store (off : Nat)
  | window (w off : Nat)
  | remote (t off : Nat)
  | virt (v : Nat)
  | bad
  deriving DecidableEq, Repr

def addrClass (a : Word) : AClass :=
  let n := a.toNat
  if n < 0x80000 then .store n
  else if 0x400000 ≤ n ∧ n < 0x1400000 then
    (if n % 0x400000 < 0x300000 then .window (n / 0x400000 - 1) (n % 0x400000) else .bad)
  else if n / 2 ^ 48 = 1 then .remote (n / 2 ^ 32 % 2 ^ 16) (n % 2 ^ 32)
  else if 0x0100000000000000 ≤ n then .virt (n - 0x0100000000000000)
  else .bad

-- Access patterns (R193, R194)

/-- The count and stride of dimension d of a pattern. -/
def apDim (ws : List Word) (d : Nat) : Nat × Word :=
  if d ≤ ((ws[1]?).getD 0).toNat % 4 then
    let w := (ws[2 + d]?).getD 0
    (w.toNat / 2 ^ 32 % 2 ^ 24 + 1, (w.setWidth 32).signExtend 64)
  else (1, 0)

/-- The address of byte n of a pattern. -/
def apAddr (ws : List Word) (n : Nat) : Word :=
  let d0 := apDim ws 0
  let d1 := apDim ws 1
  let d2 := apDim ws 2
  let d3 := apDim ws 3
  let i0 := n % d0.1
  let i1 := n / d0.1 % d1.1
  let i2 := n / d0.1 / d1.1 % d2.1
  let i3 := n / d0.1 / d1.1 / d2.1 % d3.1
  (ws[0]?).getD 0 + BitVec.ofNat 64 i0 * d0.2 + BitVec.ofNat 64 i1 * d1.2 + BitVec.ofNat 64 i2 * d2.2 + BitVec.ofNat 64 i3 * d3.2

/-- The number of bytes a pattern names: the product of its counts (R194). -/
def apBytes (ws : List Word) : Nat :=
  (List.range (((ws[1]?).getD 0).toNat % 4 + 1)).foldl (fun v d => v * (((ws[2 + d]?).getD 0).toNat / 2 ^ 32 % 2 ^ 24 + 1)) 1

/-- The address that an AGCFG command acts on: where its segment begins, through window w (R203). -/
def segAddr (w : BitVec 2) (d : BitVec 128) : Word := BitVec.ofNat 64 (0x400000 * (w.toNat + 1) + 0x10000 * (d.toNat % 64))

/-- Bytes n up from off touch the tile's undo region (R289). -/
def touchesUndo (off n : Nat) : Bool := decide (off < 0x70000 ∧ 0x60000 < off + n)

/-- The trap of an access of size bytes that may reach the classes ok accepts (R120, R289), if it raises one. A class not reached goes before a
misaligned address (DESIGN CHOICE, log entry 162). -/
def accessTrap (a : Word) (size : Nat) (ok : AClass → Bool) : Option Fired :=
  if ok (addrClass a) = false then some (trapAddr .addressRange a)
  else if a.toNat % size ≠ 0 then some (trapAddr .misaligned a)
  else match addrClass a with
    | .store off => if touchesUndo off size then some (trapAddr .protection a) else none
    | _ => none

def okLocal (c : AClass) : Bool := match c with | .store _ => true | .window _ _ => true | _ => false
def okWindow (c : AClass) : Bool := match c with | .window _ _ => true | _ => false
def okAtomic (c : AClass) : Bool := match c with | .window _ _ => true | .remote _ _ => true | .virt _ => true | _ => false
def okVirt (c : AClass) : Bool := match c with | .virt _ => true | _ => false

-- Forwarding from the store buffer (R66, R116, R125)

/-- The bytes a buffered operation will write, from its first address; none for those that no load can overlap, and for a buffered atomic, whose
result no load of the block sees (DESIGN CHOICE: R66 names no forwarding from it, log entry 158). -/
def opRange (o : SOp) : Option (Nat × List Byte) :=
  match o with
  | .store a n d => some (a.toNat, leBytes n d.toNat)
  | .sto a d => some (a.toNat, leBytes 8 d.toNat)
  | .clro a n => some (a.toNat, List.replicate (8 * n) 0)
  | .scst a d => some (a.toNat, leBytes 8 d.toNat)
  | .record a bs => some (a.toNat, bs)
  | _ => none

/-- The place of a buffered operation in commit order: LSID first, the records of R116 after them, then the slot. -/
def opRank (o : BufOp) : Nat := (match o.lsid with
  | some l => l.toNat
  | none => 16) * 32 + o.slot

/-- Inserts an operation into a list in commit order. -/
def insOp (o : BufOp) (l : List BufOp) : List BufOp :=
  match l with
  | [] => [o]
  | x :: r => if opRank o < opRank x then o :: x :: r else x :: insOp o r

def commitOrder (l : List BufOp) : List BufOp := l.foldr insOp []

/-- Byte i of a read at address a, as a write at w gives it. -/
def overByte (w : Nat × List Byte) (i : Nat) (b : Option Byte) : Option Byte :=
  if w.1 ≤ i then (match w.2[i - w.1]? with
    | some x => some x
    | none => b) else b

/-- Lays a write over the bytes of a read from address a. -/
def overlay (a : Nat) (w : Nat × List Byte) (bs : List (Option Byte)) : List (Option Byte) := bs.mapIdx (fun i b => overByte w (a + i) b)

/-- The two byte ranges share a byte. -/
def overlaps (a n b m : Nat) : Bool := decide (a < b + m ∧ b < a + n)

/-- What the store buffer gives a read of n bytes at a: every overlapping store whose completion reaches it, and each other one or not, as the
device chooses (R66). Of an SCST and an ST to one byte the higher LSID gives it (DESIGN CHOICE, log entry 159). -/
def fwdFrom (anc : BitVec 32) (a n : Nat) (ops : List BufOp) (free : Nat) (bs : List (Option Byte)) : List (Option Byte) × Nat :=
  match ops with
  | [] => (bs, free)
  | o :: r =>
    match opRange o.op with
    | none => fwdFrom anc a n r free bs
    | some w =>
      if overlaps a n w.1 w.2.length = false then fwdFrom anc a n r free bs
      else if anc.getLsbD o.slot then fwdFrom anc a n r free (overlay a w bs)
      else fwdFrom anc a n r (free + 1) (if Config.freeBool free then overlay a w bs else bs)

/-- The forwarded bytes of a read, and the state with its free choices counted. -/
def fwdBytes (s : State) (anc : BitVec 32) (a n : Nat) : List (Option Byte) × State :=
  match s.blk? with
  | none => (List.replicate n none, s)
  | some b =>
    let r := fwdFrom anc a n (commitOrder b.stores) s.free (List.replicate n none)
    (r.1, { s with free := r.2 })

/-- Every byte of a read is forwarded (R66): the bytes. -/
def wholeFwd (fwd : List (Option Byte)) : Option (List Byte) := if fwd.all Option.isSome then some (fwd.map (fun b => b.getD 0)) else none

/-- Fills the bytes that were not forwarded. -/
def fillBytes (fwd : List (Option Byte)) (bs : List Byte) : List Byte := fwd.mapIdx (fun i b => b.getD ((bs[i]?).getD 0))

/-- Some byte of the range has an uncorrectable error (R124). -/
def State.isBad (s : State) (k n : Nat) : Option Nat := s.bad.find? (fun b => decide (k ≤ b ∧ b < k + n))

/-- A read by the focus tile that meets an uncorrectable error makes UNCORRECTABLE the next step (R14, R124). -/
def State.raiseBad (s : State) (k n : Nat) : State :=
  match s.isBad k n with
  | none => s
  | some b => { s with agenda := ⟨s.cur, .uncorrectable, { Input.none with addr := b, tile := s.cur, flag := true }⟩ :: s.agenda }

/-- Each element of a read in turn, with its own choices (R116). -/
def readEach (s : State) (anc : BitVec 32) (a n count : Nat) : List Byte × State :=
  match count with
  | 0 => ([], s)
  | c + 1 =>
    let r := fwdBytes s anc a n
    let x := fillBytes r.1 (r.2.bytes (tileKey r.2.cur a) n)
    let t := readEach r.2 anc (a + n) n c
    (x ++ t.1, t.2)

/-- A read of count elements of n bytes each from the tile store, under the reading rules of R116. All are read in this one step (the manual
leaves their times open), and an uncorrectable word among them raises UNCORRECTABLE as a load's does (notes/assumptions). -/
def readEls (s : State) (anc : BitVec 32) (a n count : Nat) : List Byte × State :=
  readEach (s.raiseBad (tileKey s.cur a) (n * count)) anc a n count

-- Requests to other homes

/-- Answers a request of agent src at its own interface (R6, R298): the answer comes to src's inbox. -/
def State.bounceAt (s : State) (src : Nat) (org : Origin) (body : Payload) : State :=
  { s with inbox := mset s.inbox src (mgetD s.inbox src [] ++ [⟨s.nextId, src, src, org, body⟩]), nextId := s.nextId + 1 }

/-- At the focus tile. -/
def State.bounce (s : State) (org : Origin) (body : Payload) : State := s.bounceAt s.cur org body

/-- Routes a request of agent src by its address class in the frame of tile t (R120, R205, R290, R298); a tile ID whose actor stands on another site is reached there
(R363, R419, R422). mk builds the request from the address at its home, err the answer of the sender's own interface. The request's message is number s.nextId. -/
def State.requestFrom (s : State) (src t : Nat) (org : Origin) (a : Word) (mk : Word → Payload) (err : Cause → Payload) : State :=
  let site (t off : Nat) :=
    if s.live (s.aliasOf t) then s.send src (if s.aliasOf t = src then src else t) org (mk (BitVec.ofNat 64 off)) else s.bounceAt src org (err .nodeDead)
  match addrClass a with
  | .store off => site t off
  | .window w off =>
    (match neighbour t w with
    | some t => site t off
    | none => s.bounceAt src org (err .nodeDead))
  | .remote t off => if inField t then site t off else s.bounceAt src org (err .nodeDead)
  | .virt v =>
    if 2 ^ 57 ≤ v then s.bounceAt src org (err .protection)
    else match mget s.parts org.part with
      | none => s.bounceAt src org (err .protection)
      | some p =>
        (match spanOf p.mem v with
        | .none => s.bounceAt src org (err .protection)
        | .shore n => s.send src (shoreIf n) org (mk a)
        | .host h => s.send src (hostIf h) org (mk a)
        | .fj n => s.send src (fjIf n) org (mk a))
  | .bad => s.bounceAt src org (err .addressRange)

/-- Of the focus tile, in its own frame. -/
def State.request (s : State) (org : Origin) (a : Word) (mk : Word → Payload) (err : Cause → Payload) : State :=
  s.requestFrom s.cur s.cur org a mk err

/-- Records a reply that slot k is owed (R70). -/
def addOwed (s : State) (o : Owed) : State := s.modBlk (fun b => { b with owed := b.owed ++ [o] })

/-- Enters an operation into the store buffer and sends its completion on its way (R66, R122). -/
def bufferOp (s : State) (f : Info) (a : Args) (lsid : BitVec 4) (op : SOp) : State :=
  let s := s.modBlk (fun b => { b with stores := b.stores ++ [⟨a.slot, some lsid, op, a.thirdAnc, 0⟩] })
  deliver s a.slot f 1 (.val 0 false) (a.anc ||| (1#32 <<< a.slot)) (some lsid)

/-- The effective address of an access (R120). -/
def effAddr (x : Word) (o : BitVec 10) (size : Nat) : Word := x + o.signExtend 64 * BitVec.ofNat 64 size

-- Loads

/-- Sends a request under a given identity. -/
def State.requestAs (s : State) (id : Nat) (org : Origin) (a : Word) (mk : Word → Payload) (err : Cause → Payload) : State :=
  { ({ s with nextId := id }.request org a mk err) with nextId := s.nextId }

/-- The value a load delivers from its bytes (R125). -/
def loadVal (sx : Bool) (size : Nat) (n : Nat) : Word :=
  if sx then sextW' (8 * size) (BitVec.ofNat 64 n) else BitVec.ofNat 64 n
where sextW' (k : Nat) (x : Word) : Word := (x.setWidth k).signExtend 64

/-- A read of size bytes through a window (R125, R126): the M-tile replies, and at least 10 tile cycles pass. A read whose every byte is the data of
stores of its own block needs no reply (R66): it takes them, and sends none. -/
def windowRead (s : State) (f : Info) (x : Args) (a : Word) (size : Nat) (sx : Bool) (mk : Word → Payload) : State :=
  let w := fwdBytes s x.anc a.toNat size
  match wholeFwd w.1 with
  | some bs => deliver w.2 x.slot f 10 (.val (loadVal sx size (leNat bs)) false) x.anc none
  | none =>
    (addOwed w.2 ⟨w.2.nextId, x.slot, sx, size, none, x.anc, w.1, a, s.core.cyc + 10⟩).request (s.origin x.slot 0) a mk (fun c => .reply 0 false (some c))

/-- A load of size bytes (R125): from the tile store it delivers at L = 4; from a window as windowRead says. -/
def loadOp (i : Instr) (s : State) (o : BitVec 10) (size : Nat) (sx : Bool) : Out :=
  fire i s (fun f x s =>
    let a := effAddr x.l o size
    if x.lp then trapPoison .address
    else match accessTrap a size okLocal with
      | some t => t
      | none =>
        match addrClass a with
        | .store off =>
          let w := fwdBytes s x.anc a.toNat size
          let s := w.2
          let v := loadVal sx size (leNat (fillBytes w.1 (s.bytes (tileKey s.cur off) size)))
          .done (deliver (s.raiseBad (tileKey s.cur off) size) x.slot f 4 (.val v (s.isBad (tileKey s.cur off) size).isSome) x.anc none) none
        | _ => .done (windowRead s f x a size sx (fun b => .load b size)) none)

def execLdB (p : BitVec 2) (w : BitVec 1) (o : BitVec 10) (a : BitVec 7) (s : State) : Out := loadOp (.ldB p w o a) s o 1 false
def execLdH (p : BitVec 2) (w : BitVec 1) (o : BitVec 10) (a : BitVec 7) (s : State) : Out := loadOp (.ldH p w o a) s o 2 false
def execLdW (p : BitVec 2) (w : BitVec 1) (o : BitVec 10) (a : BitVec 7) (s : State) : Out := loadOp (.ldW p w o a) s o 4 false
def execLdD (p : BitVec 2) (w : BitVec 1) (o : BitVec 10) (a : BitVec 7) (s : State) : Out := loadOp (.ldD p w o a) s o 8 false
def execLdBSx (p : BitVec 2) (w : BitVec 1) (o : BitVec 10) (a : BitVec 7) (s : State) : Out := loadOp (.ldBSx p w o a) s o 1 true
def execLdHSx (p : BitVec 2) (w : BitVec 1) (o : BitVec 10) (a : BitVec 7) (s : State) : Out := loadOp (.ldHSx p w o a) s o 2 true
def execLdWSx (p : BitVec 2) (w : BitVec 1) (o : BitVec 10) (a : BitVec 7) (s : State) : Out := loadOp (.ldWSx p w o a) s o 4 true

/-- LDO (R126): 8 bytes from a ONCE word; the M-tile replies once the word is present, unless the block's own stores give all eight (R66). -/
def execLdo (p : BitVec 2) (w : BitVec 1) (o : BitVec 10) (t : BitVec 7) (s : State) : Out :=
  fire (.ldo p w o t) s (fun f x s =>
    let a := effAddr x.l o 8
    if x.lp then trapPoison .address
    else match accessTrap a 8 okWindow with
      | some t => t
      | none => .done (windowRead s f x a 8 false (fun b => .ldo b)) none)

-- Stores

/-- A buffered store of size bytes (R127): poison, class, alignment and protection checks, then the store buffer. A poisoned address goes before
poisoned data (DESIGN CHOICE, log entry 164). -/
def storeOp (i : Instr) (s : State) (lsid : BitVec 4) (o : BitVec 10) (size : Nat) (ok : AClass → Bool) (mk : Word → Word → SOp) : Out :=
  fire i s (fun f x s =>
    let a := effAddr x.l o size
    if x.lp then trapPoison .address
    else if x.rp then trapPoison .store
    else match accessTrap a size ok with
      | some t => t
      | none => .done (bufferOp s f x lsid (mk a x.r)) none)

def execStB (p : BitVec 2) (w : BitVec 1) (l : BitVec 4) (o : BitVec 10) (a : BitVec 7) (s : State) : Out :=
  storeOp (.stB p w l o a) s l o 1 okLocal (fun a d => .store a 1 d)
def execStH (p : BitVec 2) (w : BitVec 1) (l : BitVec 4) (o : BitVec 10) (a : BitVec 7) (s : State) : Out :=
  storeOp (.stH p w l o a) s l o 2 okLocal (fun a d => .store a 2 d)
def execStW (p : BitVec 2) (w : BitVec 1) (l : BitVec 4) (o : BitVec 10) (a : BitVec 7) (s : State) : Out :=
  storeOp (.stW p w l o a) s l o 4 okLocal (fun a d => .store a 4 d)
def execStD (p : BitVec 2) (w : BitVec 1) (l : BitVec 4) (o : BitVec 10) (a : BitVec 7) (s : State) : Out :=
  storeOp (.stD p w l o a) s l o 8 okLocal (fun a d => .store a 8 d)
/-- STO (R127): windows only. -/
def execSto (p : BitVec 2) (w : BitVec 1) (l : BitVec 4) (o : BitVec 10) (a : BitVec 7) (s : State) : Out :=
  storeOp (.sto p w l o a) s l o 8 okWindow (fun a d => .sto a d)

/-- CLRO (R128): clears n words and their presence bits at the M-tile. -/
def execClro (p : BitVec 2) (w : BitVec 1) (l : BitVec 4) (n : BitVec 10) (a : BitVec 7) (s : State) : Out :=
  fire (.clro p w l n a) s (fun f x s =>
    if x.lp then trapPoison .address
    else match accessTrap x.l 8 okWindow with
      | some t => t
      | none => .done (bufferOp s f x l (.clro x.l (n.toNat + 1))) none)

-- The SC ring (R135)

/-- SCLD: waits for the ring token in the tile's SC queue. -/
def execScld (p : BitVec 2) (w : BitVec 1) (o : BitVec 10) (t : BitVec 7) (s : State) : Out :=
  fire (.scld p w o t) s (fun _ x s =>
    let a := effAddr x.l o 8
    if x.lp then trapPoison .address
    else match accessTrap a 8 okLocal with
      | some t => t
      | none =>
        let w := fwdBytes s x.anc a.toNat 8
        let s := addOwed w.2 ⟨s.nextId, x.slot, false, 8, none, x.anc, w.1, a, s.core.cyc + (if okWindow (addrClass a) then 10 else 4)⟩
        let q := s.core.ch.sc ++ [⟨s.nextId, s.origin x.slot 0, a, none, false⟩]
        .done { s with core := { s.core with ch := { s.core.ch with sc := q } }, nextId := s.nextId + 1 } none)

def execScst (p : BitVec 2) (w : BitVec 1) (l : BitVec 4) (o : BitVec 10) (a : BitVec 7) (s : State) : Out :=
  storeOp (.scst p w l o a) s l o 8 okLocal (fun a d => .scst a d)

-- Atomics (R129 to R132)

/-- The checks of an atomic at address x.l: poison of address, then of the data operands, then alignment and class. -/
def atomTrap (x : Args) (dataP : Bool) (dbl : Bool) : Option Fired :=
  if x.lp then some (trapPoison .address)
  else if dataP then some (trapPoison .store)
  else accessTrap x.l (if dbl then 8 else 4) okAtomic

/-- A returning atomic is sent when it fires (R66, R130); from a window its result comes after at least 12 tile cycles (R130). -/
def sendAtomic (s : State) (x : Args) (lsid : BitVec 4) (op : BitVec 4) (dbl : Bool) (v : Word) (cas : Option Word) : State :=
  let s := addOwed s ⟨s.nextId, x.slot, false, if dbl then 8 else 4, some lsid, x.anc, [], x.l, s.core.cyc + (if okWindow (addrClass x.l) then 12 else 0)⟩
  s.request (s.origin x.slot lsid.toNat) x.l (fun b => .atomic b op dbl v cas true) (fun c => .atomReply 0 (some c))

def execAtom (p : BitVec 2) (w : BitVec 1) (l : BitVec 4) (o : BitVec 4) (d : BitVec 1) (a : BitVec 7) (s : State) : Out :=
  fire (.atom p w l o d a) s (fun f x s =>
    match atomTrap x x.rp (d == 1) with
    | some t => t
    | none =>
      if a = noT then .done (bufferOp s f x l (.atom x.l o (d == 1) x.r)) none
      else .done (sendAtomic s x l o (d == 1) x.r none) none)

def execAtomn (p : BitVec 2) (w : BitVec 1) (l : BitVec 4) (o : BitVec 4) (d : BitVec 1) (a : BitVec 7) (s : State) : Out :=
  fire (.atomn p w l o d a) s (fun f x s =>
    match atomTrap x x.rp (d == 1) with
    | some t => t
    | none => .done (bufferOp s f x l (.atom x.l o (d == 1) x.r)) none)

def execCas (l : BitVec 4) (d : BitVec 1) (a : BitVec 7) (s : State) : Out :=
  fire (.cas l d a) s (fun _ x s =>
    match atomTrap x (x.rp || x.tp) (d == 1) with
    | some t => t
    | none => .done (sendAtomic s x l 8 (d == 1) x.t (some x.r)) none)

-- Joins and fences (R133, R134)

def execJoin2 (p : BitVec 2) (b : BitVec 7) (a : BitVec 7) (s : State) : Out :=
  fire (.join2 p b a) s (fun _ x s => .done s (some (.val x.l x.lp)))

def execJoin3 (b : BitVec 7) (a : BitVec 7) (s : State) : Out :=
  fire (.join3 b a) s (fun _ x s => .done s (some (.val x.l x.lp)))

/-- R134: what the invocation committed earlier has been performed at the scope. Scope .tile is met by the interface's acceptance, SCSTs and
atomics apart (R311). -/
def fenceClear (s : State) (scope : BitVec 3) : Bool :=
  let inv := (s.inv?.map Inv.id).getD 0
  if scope = 0 then true
  else if scope = 1 then !(s.core.ch.perf.any (fun q => q.inv == inv && q.late))
  else !(s.core.ch.perf.any (fun q => q.inv == inv))

/-- Adds a waiting instruction: it delivers from the tile cycle in which its condition holds (R70). -/
def addWait (s : State) (x : Args) (w : WaitFor) : State := s.modBlk (fun b => { b with waits := b.waits ++ [⟨x.slot, x.anc, w⟩] })

def execFence (p : BitVec 2) (sc : BitVec 3) (a : BitVec 7) (s : State) : Out :=
  fire (.fence p sc a) s (fun _ x s => if fenceClear s sc then .done s (some (.val 0 false)) else .done (addWait s x (.fence sc)) none)

-- Sending tokens (R137, R138)

/-- BAD_CHANNEL with the channel or output number (R366). -/
def badChannel (n : Nat) : Fired := .trap .badChannel none (BitVec.ofNat 32 n) 0 false

/-- A token of the running invocation (R274). -/
def mkToken (s : State) (kind : BitVec 4) (len : Nat) (ws : List Word) (psn : BitVec 4) : Token :=
  { kind := kind, len := len, words := ws ++ List.replicate (4 - ws.length) 0, psn := psn, stag := (s.inv?.map Inv.tag).getD 0,
    rin := (s.inv?.map Inv.rin).getD 0, ch := 0 }

/-- Sends a token on output k at the commit, if the output is declared; the credit is taken now (R137, R139). -/
def sendOp (s : State) (f : Info) (x : Args) (lsid : BitVec 4) (k : BitVec 3) (t : Token) (rel : Option Release) : Fired :=
  match s.out? s.act k with
  | none => badChannel k.toNat
  | some _ => .done (bufferOp (takeCredit s k) f x lsid (.token k t rel)) none

/-- The data token of SEND and SENDR: one or two words with their poison. -/
def dataToken (s : State) (two : BitVec 1) (x : Args) : Token :=
  if two = 1 then mkToken s 0 2 [x.l, x.r] (BitVec.ofNat 4 ((if x.lp then 1 else 0) + (if x.rp then 2 else 0)))
  else mkToken s 0 1 [x.l] (if x.lp then 1 else 0)

def execSend (p : BitVec 2) (w : BitVec 1) (l : BitVec 4) (sc : BitVec 3) (t : BitVec 1) (k : BitVec 3) (a : BitVec 7) (s : State) : Out :=
  fire (.send p w l sc t k a) s (fun f x s =>
    sendOp s f x l k (dataToken s t x) (if w = 1 then some ⟨sc, x.thirdAnc, false⟩ else none))

def execSendr (p : BitVec 2) (w : BitVec 1) (l : BitVec 4) (sc : BitVec 3) (t : BitVec 1) (k : BitVec 3) (a : BitVec 7) (s : State) : Out :=
  fire (.sendr p w l sc t k a) s (fun f x s => sendOp s f x l k (dataToken s t x) (some ⟨sc, 0, true⟩))

/-- The checks on n bytes of the tile store at a that an instruction names (R113, R138, R189, R289). top is the last byte allowed. -/
def localTrap (a : Word) (p : Bool) (align n top : Nat) : Option Fired :=
  if p then some (trapPoison .address)
  else if a.toNat % align ≠ 0 then some (trapAddr .misaligned a)
  else if top + 1 < a.toNat + n then some (trapAddr .addressRange a)
  else if touchesUndo a.toNat n then some (trapAddr .protection a)
  else none

/-- The 64-bit words of little-endian bytes. -/
def wordsOf (bs : List Byte) (n : Nat) : List Word :=
  match n with
  | 0 => []
  | n + 1 => BitVec.ofNat 64 (leNat (bs.take 8)) :: wordsOf (bs.drop 8) n

def execSendm (p : BitVec 2) (w : BitVec 1) (l : BitVec 4) (n : BitVec 2) (k : BitVec 3) (a : BitVec 7) (s : State) : Out :=
  fire (.sendm p w l n k a) s (fun f x s =>
    match localTrap x.l x.lp 8 (8 * (n.toNat + 1)) 0x7FFFF with
    | some t => t
    | none =>
      let r := readEls s x.anc x.l.toNat 8 (n.toNat + 1)
      sendOp r.2 f x l k (mkToken s 0 (n.toNat + 1) (wordsOf r.1 (n.toNat + 1)) 0) none)

def execEos (p : BitVec 2) (w : BitVec 1) (l : BitVec 4) (k : BitVec 3) (a : BitVec 7) (s : State) : Out :=
  fire (.eos p w l k a) s (fun f x s => sendOp s f x l k (mkToken s 8 0 [] 0) none)

/-- Takes the staging buffer for lat cycles (R97), whether or not the token is then delivered (DESIGN CHOICE, log entry 161). -/
def takeStaging (s : State) (lat : Nat) : State := { s with core := { s.core with staging := some (s.lvl, s.core.cyc + lat) } }

-- Tags and channels (R140)

/-- The tag pool of a task-table entry: TBASE and TSZ + 1 tags (R225). -/
def poolOf (e : BitVec 128) : Nat × Nat := ((e.extractLsb' 75 8).toNat, (e.extractLsb' 71 4).toNat + 1)

/-- The lowest free tag of an actor's pool, if one is free (R231, R234). -/
def lowestTag (c : CTile) (act base n : Nat) : Option (BitVec 8) :=
  match n with
  | 0 => none
  | n + 1 =>
    if (act, BitVec.ofNat 8 base) ∈ c.ch.held ∨ (act, BitVec.ofNat 8 base) ∈ c.ch.taga then lowestTag c act (base + 1) n
    else some (BitVec.ofNat 8 base)

def execTagr (p : BitVec 2) (s : State) : Out :=
  fire (.tagr p) s (fun _ x s =>
    let t : BitVec 8 := x.l.setWidth 8
    if x.lp then trapPoison .special
    else if (s.act, t) ∈ s.core.ch.taga then .done (addAct s x.slot 0 (.tagr t)) none
    else .trap .badTag none (t.setWidth 32) 0 false)

/-- Channel c is an input channel of the running actor (R140, R225). -/
def isInput (s : State) (c : BitVec 6) : Bool :=
  match mget s.core.ch.tasks c.toNat with
  | none => false
  | some e => e.getLsbD 7 && (e.extractLsb' 58 6).toNat == s.act

def blockChan (i : Instr) (s : State) (c : BitVec 6) (v : Bool) : Out :=
  fire i s (fun _ x s => if isInput s c then .done (addAct s x.slot 0 (.blocked c v)) none else badChannel c.toNat)

def execTblk (p : BitVec 2) (c : BitVec 6) (s : State) : Out := blockChan (.tblk p c) s c true
def execTunb (p : BitVec 2) (c : BitVec 6) (s : State) : Out := blockChan (.tunb p c) s c false

-- Named barriers (R141)

/-- Barrier n of the tile. -/
def State.barrier (s : State) (n : Nat) : Barrier := mgetD s.core.ch.barriers n ⟨0, 0, 0, none, false⟩

def execBari (p : BitVec 2) (n : BitVec 6) (b : BitVec 7) (a : BitVec 7) (s : State) : Out :=
  fire (.bari p n b a) s (fun _ x s =>
    if x.lp then trapPoison .special
    else if x.l.getLsbD 16 = false ∧ x.l.setWidth 16 = (0 : BitVec 16) then trapNow .badBarrier
    else .done (addAct s x.slot 0 (.barInit n (x.l.setWidth 16) (if x.l.getLsbD 16 then some (x.l.extractLsb' 17 3) else none)))
      (some (.val 0 false)))

def execBara (p : BitVec 2) (n : BitVec 6) (b : BitVec 7) (a : BitVec 7) (s : State) : Out :=
  fire (.bara p n b a) s (fun _ x s =>
    .done (addAct s x.slot 0 (.barArrive n)) (some (.val ((s.barrier n.toNat).g.setWidth 64) false)))

def execBarx (p : BitVec 2) (n : BitVec 6) (b : BitVec 7) (a : BitVec 7) (s : State) : Out :=
  fire (.barx p n b a) s (fun _ x s =>
    let g := (s.barrier n.toNat).g
    if x.lp then trapPoison .special
    else if g ≠ x.l.setWidth 16 then .done s (some (.val (g.setWidth 64) false))
    else .done (addWait s x (.barrier n (x.l.setWidth 16))) none)

-- Masked window, seals and the irrevocable store (R142 to R145)

def execMwin (p : BitVec 2) (l : BitVec 11) (s : State) : Out :=
  fire (.mwin p l) s (fun _ _ s =>
    if s.lvl ∨ s.core.mwin.isSome then .done s none
    else .done { s with core := { s.core with mwin := some (s.core.cyc + l.toNat + 1) } } none)

def execMwend (p : BitVec 2) (s : State) : Out := fire (.mwend p) s (fun _ x s => .done (addAct s x.slot 0 .mwend) none)

def execSeal (p : BitVec 2) (s : State) : Out := fire (.seal p) s (fun _ x s => .done (addAct s x.slot 0 .seal) none)

/-- Every interval up to x of the focus tile's domain has sealed or become void, modulo 2^32 (R144, R386). -/
def State.isSealed (s : State) (x : BitVec 32) : Bool :=
  match mget s.parts (s.core.sys.part.getD 64) with
  | none => false
  | some q => decide (0 ≤ (q.sealed - x).toInt) || decide (0 ≤ (q.voidTo - x).toInt)

def execSealw (p : BitVec 2) (a : BitVec 7) (s : State) : Out :=
  fire (.sealw p a) s (fun _ x s =>
    let r := (s.inv?.map Inv.rin).getD 0
    if r = 0 ∨ s.isSealed (r - 1) then .done s (some (.val ((r - 1).setWidth 64) false))
    else .done (addWait s x (.sealed (r - 1))) none)

/-- IRST (R145): poison, then the SEALW before it, then the class and alignment of its address (DESIGN CHOICE, log entry 163). -/
def execIrst (p : BitVec 2) (w : BitVec 1) (l : BitVec 4) (o : BitVec 10) (a : BitVec 7) (s : State) : Out :=
  fire (.irst p w l o a) s (fun f x s =>
    let ad := effAddr x.l o 8
    if x.lp then trapPoison .address
    else if x.rp then trapPoison .store
    else if (s.inv?.map Inv.sealw).getD false = false then trapNow .irstOrder
    else match accessTrap ad 8 okVirt with
      | some t => t
      | none => .done (bufferOp s f x l (.irst ad x.r)) none)

end Sys2Proof.Machine
end

