-- ==== Sys2Proof/Machine/RowOps.lean ====
section
/-!
DEFINITION. The row instructions (R164 to R171) and the checks on a configuration image (R148, R149, R152 to R161).
-/

namespace Sys2Proof.Machine

open Sys2Proof

-- Lane words (R148)

def laneOp (x : Word) : Nat := x.toNat / 2 ^ 58
/-- The select field of queue 0 (A) to 3 (D). -/
def laneSel (x : Word) (q : Nat) : Nat := x.toNat / 2 ^ (52 - 6 * q) % 64
def laneRm (x : Word) : BitVec 3 := x.extractLsb' 31 3
def laneMod (x : Word) : Nat := x.toNat / 2 ^ 28 % 8
def laneDly (x : Word) : Nat := x.toNat / 2 ^ 24 % 16
def lanePre (x : Word) : Nat := x.toNat / 2 ^ 20 % 16
def laneImk (x : Word) : Nat := x.toNat / 2 ^ 16 % 4
def laneImm (x : Word) : Nat := x.toNat % 2 ^ 16

/-- The immediate a lane's queues see (R148). -/
def laneImm32 (x : Word) : BitVec 32 :=
  match laneImk x with
  | 0 => (x.setWidth 16).signExtend 32
  | 1 => (x.setWidth 16).setWidth 32
  | _ => (x.setWidth 16).setWidth 32 <<< 16

/-- The queues an operation reads, as a mask of A 1, B 2, C 4, D 8 (R152). -/
def laneReads (op : Nat) : Nat :=
  if op = 0 then 0
  else if op ≤ 0x03 then 3
  else if op = 0x04 ∨ op = 0x22 then 7
  else if op = 0x05 ∨ op = 0x08 ∨ op = 0x09 ∨ (0x0B ≤ op ∧ op ≤ 0x0F) ∨ op = 0x20 ∨ op = 0x21 ∨ op = 0x26 ∨ op = 0x28 then 1
  else if op = 0x23 then 9
  else if op = 0x24 then 11
  else 3

/-- LACC, LQ8 and LDQ8 hold parameters in IMM (R157). -/
def laneParam (op : Nat) : Bool := decide (op = 0x05 ∨ op = 0x29 ∨ op = 0x2A)

/-- The lane's operation rounds by its RM field (R152, R157). -/
def laneRounds (x : Word) : Bool :=
  let op := laneOp x
  decide ((1 ≤ op ∧ op ≤ 5) ∨ (0x0B ≤ op ∧ op ≤ 0x0F) ∨ (op = 0x28 ∧ laneMod x ≠ 3 ∧ laneMod x ≠ 5) ∨ (op = 0x29 ∧ laneImm x / 4 % 4 ≠ 2))

/-- A lane of the image, LNOP beyond its end. -/
def laneAt (ls : List Word) (n : Nat) : Word := (ls[n]?).getD 0

/-- R149, R161: the select of a queue of lane n is legal. -/
def selOk (ls : List Word) (n sel : Nat) : Bool :=
  if sel ≤ 4 then true
  else if sel < 0x10 then false
  else if sel < 0x20 then laneOp (laneAt ls (n / 16 * 16 + (sel - 0x10))) != 0
  else if sel < 0x30 then decide (16 ≤ n) && laneOp (laneAt ls (n / 16 * 16 - 16 + (sel - 0x20))) != 0
  else laneOp (laneAt ls (n / 16 * 16 + (sel - 0x30))) == 0x23

/-- R161: the parameters that LACC, LQ8 and LDQ8 keep in IMM are legal. -/
def paramOk (x : Word) : Bool :=
  let op := laneOp x
  let im := laneImm x
  if op = 0x29 then decide (im < 16 ∧ im / 4 ≠ 3 ∧ (im / 4 = 1 → im % 4 ≤ 1) ∧ (im / 4 = 2 → laneRm x = 0))
  else if op = 0x2A then
    decide (im < 64 ∧ (im % 16 = 3 ∨ im % 16 = 4 ∨ im % 16 = 8 ∨ im % 16 = 9 ∨ im % 16 = 0xB) ∧ (im % 16 ≠ 0xB → im / 16 = 0))
  else true

/-- R161: lane n breaks no rule. -/
def laneOk (ls : List Word) (n : Nat) : Bool :=
  let x := laneAt ls n
  let op := laneOp x
  let sels := [laneSel x 0, laneSel x 1, laneSel x 2, laneSel x 3]
  let read (q : Nat) : Bool := laneReads op / 2 ^ q % 2 == 1
  let usesImm := sels.any (· == 1)
  decide (op ≤ 0x2A) &&
  (List.range 4).all (fun q => selOk ls n (laneSel x q) && (if read q then laneSel x q != 0 else laneSel x q == 0)) &&
  (op == 0 || (List.range 4).any (fun q => read q && laneSel x q != 1)) &&
  (if laneRounds x then decide ((laneRm x).toNat ≤ 4) else laneRm x == 0) &&
  (if op = 0x0A then decide (laneMod x ≤ 3) else if op = 0x17 ∨ op = 0x28 then decide (laneMod x ≤ 5) else laneMod x == 0) &&
  (op == 0x21 || laneDly x == 0) &&
  decide (lanePre x ≤ 8) && (lanePre x == 0 || decide (2 ≤ laneSel x 0)) &&
  laneImk x != 3 &&
  (if laneParam op then laneImk x == 0 && lanePre x == 0 && !usesImm && paramOk x
   else (usesImm || lanePre x != 0 || (laneImm x == 0 && laneImk x == 0))) &&
  x.toNat / 2 ^ 18 % 4 == 0

/-- The exit select of word w of a descriptor (R158): enabled, and its lane. -/
def exitSel (d : BitVec 128) (w : Nat) : Option Nat :=
  let x := d.toNat / 2 ^ (8 + 8 * w) % 256
  if x / 128 = 1 then some (x % 64) else none

/-- The descriptor breaks no rule (R158, R161). -/
def descOk (d : BitVec 128) (ls : List Word) : Bool :=
  let n := d.toNat
  decide (n / 2 ^ 32 = 0 ∧ n / 2 ^ 7 % 2 = 0 ∧ n / 2 ^ 3 % 2 = 0) &&
  (List.range 3).all (fun w => n / 2 ^ (14 + 8 * w) % 2 == 0 && (match exitSel d w with
    | some l => laneOp (laneAt ls l) != 0
    | none => true)) &&
  (List.range 3).any (fun w => (exitSel d w).isSome)

/-- The lowest failing lane of an image, or 64 for the descriptor; none when it passes (R161). -/
def imageFault (d : BitVec 128) (ls : List Word) : Option Nat :=
  match (List.range 64).find? (fun n => !laneOk ls n) with
  | some n => some n
  | none => if descOk d ls then none else some 64

/-- Row slot q of the focus tile. -/
def State.rowSlot (s : State) (q : Nat) : RowSlot := (s.core.row.slots[q]?).getD RowSlot.reset

/-- The status word of a slot (R170). -/
def rowStatus (r : RowSlot) : Word :=
  BitVec.ofNat 64 (r.entries % 2 ^ 24 * 2 ^ 40 + r.exits % 2 ^ 24 * 2 ^ 16 + r.sticky.toNat * 32 + (match r.st with
    | .empty => 0
    | .loaded => 1
    | .running => 2))

/-- RLD (R166): reads and checks the image; a bad image traps in place of the completion. -/
def execRld (p : BitVec 2) (q : BitVec 2) (b : BitVec 7) (a : BitVec 7) (s : State) : Out :=
  fire (.rld p q b a) s (fun _ x s =>
    match localTrap x.l x.lp 16 528 0x7FBFF with
    | some t => t
    | none =>
      let r := readEls s x.anc x.l.toNat 8 66
      let ws := wordsOf r.1 66
      let desc := BitVec.ofNat 128 (leNat (r.1.take 16))
      let lanes := ws.drop 2
      let s := takeStaging r.2 10
      match imageFault desc lanes with
      | some n => .done (deliverTrap s x.slot 10 ⟨x.slot, .rowConfig, none, BitVec.ofNat 32 n, 0, false, false⟩) none
      | none => .done (addAct s x.slot (s.core.cyc + 10) (.rowLoad q desc lanes)) (some (.val 0 false)))

/-- The block in the window holds an RLD of slot q (R167). -/
def blockHasRld (s : State) (q : BitVec 2) : Bool :=
  match s.blk? with
  | none => false
  | some b => b.slots.any (fun sl => match decode sl.word with
    | .ok (.rld _ q' _ _) => q' == q
    | _ => false)

def execRgo (p : BitVec 2) (q : BitVec 2) (b : BitVec 7) (a : BitVec 7) (s : State) : Out :=
  fire (.rgo p q b a) s (fun _ x s =>
    if x.lp then trapPoison .special
    else if (s.rowSlot q.toNat).st = .empty ∧ blockHasRld s q = false then trapNow .rowEmpty
    else .done (addAct s x.slot 0 (.rowGo q (x.l.setWidth 32))) (some (.val 0 false)))

def execRstop (p : BitVec 2) (q : BitVec 2) (b : BitVec 7) (a : BitVec 7) (s : State) : Out :=
  fire (.rstop p q b a) s (fun _ x s => .done (addAct s x.slot 0 (.rowStop q)) (some (.val 0 false)))

/-- The value a drained RDRAIN delivers: the slot's status, or 0 for .all; none while a named slot is RUNNING (R169). -/
def drained (s : State) (q : Option (BitVec 2)) : Option Word :=
  match q with
  | some q => if (s.rowSlot q.toNat).st = .running then none else some (rowStatus (s.rowSlot q.toNat))
  | none => if s.core.row.slots.any (fun r => r.st == .running) then none else some 0

def execRdrain (p : BitVec 2) (x : BitVec 1) (q : BitVec 2) (b : BitVec 7) (a : BitVec 7) (s : State) : Out :=
  fire (.rdrain p x q b a) s (fun _ y s =>
    let which := if x = 1 then none else some q
    match drained s which with
    | some v => .done s (some (.val v false))
    | none => .done (addWait s y (.rowIdle which)) none)

def execRstat (p : BitVec 2) (c : BitVec 1) (q : BitVec 2) (b : BitVec 7) (a : BitVec 7) (s : State) : Out :=
  fire (.rstat p c q b a) s (fun _ x s =>
    let r := s.rowSlot q.toNat
    let s := if c = 1 then addAct s x.slot 0 (.rowClr q r.sticky) else s
    .done s (some (.val (rowStatus r) false)))

/-- The queues fed by an output of lane n (R149, R158), the exit staging queues among them. sec: the secondary output. -/
def feeds (r : RowSlot) (n : Nat) (sec : Bool) : List Nat :=
  let row := n / 16
  let j := n % 16
  let qs := (List.range 64).flatMap (fun m => (List.range 4).filterMap (fun q =>
    let sel := laneSel (laneAt r.lanes m) q
    if (m / 16 = row ∧ sel = (if sec then 0x30 else 0x10) + j) ∨ (sec = false ∧ m / 16 = row + 1 ∧ sel = 0x20 + j) then some (4 * m + q) else none))
  let ex := (List.range 3).filterMap (fun w => if sec = false ∧ exitSel r.desc w = some n then some (256 + w) else none)
  qs ++ ex

end Sys2Proof.Machine
end

