-- ==== Sys2Proof/Machine/MatrixOps.lean ====
section
/-!
DEFINITION. The matrix instructions (R174 to R186): checks at firing; the work is queued at commit step 5.
-/

namespace Sys2Proof.Machine

open Sys2Proof

/-- Fields of the operand descriptors of R180. -/
def mxK (da : Word) : Nat := 32 * (da.toNat / 2 ^ 44 % 16 + 1)
def mxInit (da : Word) : Nat := da.toNat / 2 ^ 42 % 4
def mxSrc (da : Word) : Nat := da.toNat / 2 ^ 40 % 4
def mxDest (da : Word) : Nat := da.toNat / 2 ^ 38 % 4
def mxHasScale (d : Word) : Bool := d.getLsbD 48
def mxScaleAddr (d : Word) : Nat := d.toNat / 2 ^ 19 % 2 ^ 19
def mxAddr (d : Word) : Nat := d.toNat % 2 ^ 19

/-- The tile-store ranges an operand descriptor names: (address, bytes). -/
def mxRanges (mmas : Bool) (f : BitVec 4) (k : Nat) (d : Word) : List (Nat × Nat) :=
  (if mmas then [] else [(mxAddr d, 8 * k * fmtWidth f)]) ++ (if mxHasScale d then [(mxScaleAddr d, 2 * k)] else [])

/-- The rate group's cycles for K values of k (R175). -/
def passCycles (f : BitVec 4) (k : Nat) : Nat :=
  match fmtWidth f with
  | 4 => k / 2
  | 6 => k / 2
  | 8 => k
  | 16 => 2 * k
  | _ => 8 * k

def isPass (o : MxKind) : Bool :=
  match o with
  | .pass _ _ _ _ _ => true
  | _ => false

/-- The operand bytes of a pass: 64 vectors of K codes. -/
def operandBytes (f : BitVec 4) (k : Nat) : Nat := 8 * k * fmtWidth f

/-- Codes of width w in the snapshot old of bytes a up, which an operation reads code by code, code i at cycle due i. Bytes off to off + n - 1 have
just been written, and now is what the range holds: a code of them not yet read may show the new contents or not (R179). -/
def lookAgain (w : Nat) (due : Nat → Nat) (cyc a off n : Nat) (old now : List Byte) (free : Nat) : List Byte :=
  let m := old.length * 8 / w
  leBytes old.length (packCodes w (((unpackCodes w m (leNat old)).zip (unpackCodes w m (leNat now))).mapIdx (fun i x =>
    if decide (8 * a + w * i < 8 * (off + n) ∧ 8 * off < 8 * a + w * (i + 1) ∧ cyc ≤ due i) && Config.freeBool (free + i) then x.2 else x.1)))

/-- An operand of a pass that began at cycle b. Slice k enters, and is read, at b + K(k) c; the scale bytes of a block with its first slice (R338).
now reads the tile store. -/
def lookOperand (mmas : Bool) (f : BitVec 4) (k b cyc off n : Nat) (d : Word) (st : List Byte) (now : Nat → Nat → List Byte) (free : Nat) : List Byte :=
  let size := operandBytes f k
  (if mmas then st.take size
   else lookAgain (fmtWidth f) (fun i => b + passCycles f (i % k)) cyc (mxAddr d) off n (st.take size) (now (mxAddr d) size) free) ++
    (if mxHasScale d then
      lookAgain 8 (fun i => b + passCycles f (32 * (i % (k / 32)))) cyc (mxScaleAddr d) off n (st.drop size) (now (mxScaleAddr d) (2 * k)) (free + 32768)
     else [])

/-- Operation o after a write of bytes off to off + n - 1 of its tile's store in cycle cyc. -/
def lookOp (cyc off n : Nat) (now : Nat → Nat → List Byte) (free : Nat) (o : MxOp) : MxOp :=
  match o.began, o.staged with
  | some b, some st =>
    (match o.kind with
    | .pass mmas fa fb da db =>
      { o with staged := some (lookOperand mmas fa (mxK da) b cyc off n da st.1 now free, lookOperand mmas fb (mxK da) b cyc off n db st.2 now (free + 65536)) }
    | .mlda _ a => { o with staged := some (lookAgain 32 (fun i => b + i / 16) cyc a off n st.1 (now a 16384) free, st.2) }
    | _ => o)
  | _, _ => o

/-- The tile-store bytes that an operation under way reads. -/
def opReads (o : MxOp) : List (Nat × Nat) :=
  if o.began.isNone then []
  else match o.kind with
    | .pass mmas fa fb da db => mxRanges mmas fa (mxK da) da ++ mxRanges mmas fb (mxK da) db
    | .mlda _ a => [(a, 16384)]
    | _ => []

/-- A descriptor breaks R180 or R181 point 2. low marks the reserved bits of the B descriptor. -/
def mxDescBad (mmas : Bool) (f : BitVec 4) (d : Word) (isB : Bool) : Bool :=
  decide (d.toNat / 2 ^ 49 ≠ 0) || (isB && decide (d.toNat / 2 ^ 38 % 2 ^ 10 ≠ 0)) || (!isB && mxInit d == 3) ||
  (mxHasScale d && !quantFmt f) || (!mxHasScale d && mxScaleAddr d != 0) || (mmas && decide (mxAddr d / 8 ≠ 0))

/-- The tests of R181 points 3 to 5 on a list of ranges: the address of the first failing range is the detail. -/
def rangesTrap (rs : List (Nat × Nat)) : Option Fired :=
  match rs.find? (fun r => r.1 % 16 != 0) with
  | some r => some (trapAddr .misaligned (BitVec.ofNat 64 r.1))
  | none =>
    match rs.find? (fun r => decide (0x7FC00 < r.1 + r.2)) with
    | some r => some (trapAddr .addressRange (BitVec.ofNat 64 r.1))
    | none =>
      match rs.find? (fun r => touchesUndo r.1 r.2) with
      | some r => some (trapAddr .protection (BitVec.ofNat 64 r.1))
      | none => none

/-- A queued matrix instruction delivers 0 and enters its operation at the commit (R178). -/
def queueMx (s : State) (x : Args) (op : MxKind) : Fired := .done (addAct s x.slot 0 (.mx op)) (some (.val 0 false))

/-- MMA and MMAS at firing (R180, R181). -/
def mmaOp (i : Instr) (s : State) (mmas : Bool) (f g : BitVec 4) : Out :=
  fire i s (fun _ x s =>
    if x.lp || x.rp then trapPoison .address
    else if mxDescBad mmas f x.l false || mxDescBad mmas g x.r true then trapNow .matrixDesc
    else match rangesTrap (mxRanges mmas f (mxK x.l) x.l ++ mxRanges mmas g (mxK x.l) x.r) with
      | some t => t
      | none => queueMx s x (.pass mmas f g x.l x.r))

def execMma (p : BitVec 2) (f : BitVec 4) (g : BitVec 4) (b : BitVec 7) (a : BitVec 7) (s : State) : Out := mmaOp (.mma p f g b a) s false f g
def execMmas (p : BitVec 2) (f : BitVec 4) (g : BitVec 4) (b : BitVec 7) (a : BitVec 7) (s : State) : Out := mmaOp (.mmas p f g b a) s true f g

def execMclr (p : BitVec 2) (k : BitVec 2) (b : BitVec 7) (a : BitVec 7) (s : State) : Out :=
  fire (.mclr p k b a) s (fun _ x s => queueMx s x (.mclr k))

def execMattr (p : BitVec 2) (x : BitVec 1) (k : BitVec 2) (b : BitVec 7) (a : BitVec 7) (s : State) : Out :=
  fire (.mattr p x k b a) s (fun _ y s => .done (addAct s y.slot 0 (.mattr k (x == 1))) (some (.val 0 false)))

def execMfade (p : BitVec 2) (k : BitVec 2) (b : BitVec 7) (a : BitVec 7) (s : State) : Out :=
  fire (.mfade p k b a) s (fun _ x s => if x.lp then trapPoison .special else queueMx s x (.mfade k (x.l.setWidth 32)))

/-- The word MSTAT delivers (R186). -/
def mxStatus (m : Matrix) : Word :=
  BitVec.ofNat 64 (m.lut.toNat * 2 ^ 44 + m.queue.length % 16 * 2 ^ 40 + m.lost.toNat * 2 ^ 36 + m.keep.toNat * 2 ^ 32 + m.bst.toNat)

def execMstat (p : BitVec 2) (b : BitVec 7) (a : BitVec 7) (s : State) : Out :=
  fire (.mstat p b a) s (fun _ _ s => .done s (some (.val (mxStatus s.core.mx) false)))

def execLutsel (p : BitVec 2) (k : BitVec 2) (b : BitVec 7) (a : BitVec 7) (s : State) : Out :=
  fire (.lutsel p k b a) s (fun _ x s => queueMx s x (.lutsel k))

def execMlda (p : BitVec 2) (k : BitVec 2) (b : BitVec 7) (a : BitVec 7) (s : State) : Out :=
  fire (.mlda p k b a) s (fun _ x s =>
    if x.lp then trapPoison .address
    else match rangesTrap [(x.l.toNat, 16384)] with
      | some t => t
      | none => queueMx s x (.mlda k x.l.toNat))

/-- The bytes an MDRAIN writes: 4,096 codes and, for formats 0x3 to 0xA, 128 scale bytes (R184). -/
def drainBytes (f : BitVec 4) : Nat := 512 * fmtWidth f + (if quantFmt f then 128 else 0)

def execMdrain (p : BitVec 2) (f : BitVec 4) (k : BitVec 2) (m : BitVec 2) (b : BitVec 7) (a : BitVec 7) (s : State) : Out :=
  fire (.mdrain p f k m b a) s (fun _ x s =>
    let d := x.l.toNat
    if x.lp then trapPoison .address
    else if x.rp then trapPoison .special
    else if d / 2 ^ 36 ≠ 0 ∨ d / 2 ^ 19 % 2 ^ 13 ≠ 0 then trapNow .matrixDesc
    else match rangesTrap [(d % 2 ^ 19, drainBytes f)] with
      | some t => t
      | none =>
        let op := MxKind.mdrain f k m x.l (x.r.setWidth 32)
        if x.l.getLsbD 35 then
          (match s.out? s.act (x.l.extractLsb' 32 3) with
          | none => badChannel (d / 2 ^ 32 % 8)
          | some _ => queueMx (takeCredit s (x.l.extractLsb' 32 3)) x op)
        else queueMx s x op)

end Sys2Proof.Machine
end

