-- ==== Sys2Proof/Machine/EngineOps.lean ====
section
/-!
DEFINITION. The instructions that start engines (R189 to R206) and the system instructions (R208 to R218) that need no image.
-/

namespace Sys2Proof.Machine

open Sys2Proof

/-- The descriptor address: bits 31:0 of the left operand (R189). -/
def descAddr (x : Args) : Word := (x.l.setWidth 32).setWidth 64

/-- Reads an n-word descriptor under R189 and hands it to chk, which answers its malformed-descriptor cause or the state after it. -/
def descOp (i : Instr) (s : State) (n : Nat) (chk : Args → List Word → State → Except Fired State) (bad : Cause) : Out :=
  fire i s (fun _ x s =>
    match localTrap (descAddr x) x.lp 16 (8 * n) 0x7FBFF with
    | some t => t
    | none =>
      let r := readEls s x.anc (descAddr x).toNat 8 n
      match chk x (wordsOf r.1 n) r.2 with
      | .ok s => .done s (some (.val 0 false))
      | .error (.done _ _) => .done (deliverTrap r.2 x.slot 4 ⟨x.slot, bad, none, 0, 0, false, false⟩) none
      | .error t => t)

/-- A malformed descriptor: its trap comes in the cycle of the completion (R189). -/
def malformed (s : State) : Except Fired State := .error (.done s none)

/-- R193: an access-pattern descriptor is well formed. -/
def apOk (ws : List Word) : Bool :=
  let w (k : Nat) : Nat := ((ws[k]?).getD 0).toNat
  decide (w 1 / 4 = 0) && (List.range 4).all (fun d => if d ≤ w 1 % 4 then decide (w (2 + d) / 2 ^ 56 = 0) else w (2 + d) == 0)

def execApdef (p : BitVec 2) (n : BitVec 5) (b : BitVec 7) (a : BitVec 7) (s : State) : Out :=
  descOp (.apdef p n b a) s 6 (fun x ws s => if apOk ws then .ok (addAct s x.slot 0 (.apdef n ws)) else malformed s) .apDesc

/-- R191: SIG names output k, which must be declared; its credit is taken. -/
def signal (s : State) (sig : Bool) (k : BitVec 3) : Except Fired State :=
  if sig then
    match s.out? s.act k with
    | none => .error (badChannel k.toNat)
    | some _ => .ok (takeCredit s k)
  else .ok s

/-- STRM (R197). -/
def strmOp (i : Instr) (s : State) (n : BitVec 3) (out : Bool) : Out :=
  fire i s (fun _ x s =>
    let c := x.l.toNat
    if x.lp then trapPoison .special
    else if c / 2 ^ 12 ≠ 0 ∨ c / 2 ^ 5 % 8 ≠ 0 ∨ (mget s.core.aps (c % 32)).isNone then trapNow .engineDesc
    else match signal s (x.l.getLsbD 11) (x.l.extractLsb' 8 3) with
      | .error t => t
      | .ok s => .done (addAct s x.slot 0 (.strm n out x.l)) (some (.val 0 false)))

def execStrmIn (p : BitVec 2) (n : BitVec 3) (b : BitVec 7) (a : BitVec 7) (s : State) : Out := strmOp (.strmIn p n b a) s n false
def execStrmOut (p : BitVec 2) (n : BitVec 3) (b : BitVec 7) (a : BitVec 7) (s : State) : Out := strmOp (.strmOut p n b a) s n true

def portDefault : Port := ⟨[], none, none, false, [], false⟩

/-- Bytes come into a port's buffer; p: their read had an uncorrectable error (R196, R368). -/
def Port.push (q : Port) (bs : List Byte) (p : Bool) : Port :=
  { q with buf := q.buf ++ bs, psn := if p then q.psn ++ (List.range bs.length).map (fun i => q.buf.length + i) else q.psn }

/-- The oldest n bytes leave a port's buffer. -/
def Port.drop (q : Port) (n : Nat) : Port :=
  { q with buf := q.buf.drop n, psn := (q.psn.filter (fun i => decide (n ≤ i))).map (fun i => i - n) }

def State.port (s : State) (n : Nat) : Port := (s.core.ports[n]?).getD portDefault

/-- A port meets the conditions of SBAR (R198). Bytes that a row slot packs into an OUT port in FAULT have no binding and are never performed: SBAR
does not wait for them, and reports the FAULT (R329). -/
def portQuiet (q : Port) : Bool := q.active.isNone && q.pending.isNone && (q.buf.isEmpty || (q.fault && q.lost))

/-- The ports of a mask. -/
def maskPorts (m : BitVec 8) : List Nat := (List.range 8).filter (fun n => m.getLsbD n)

/-- The value SBAR delivers once every masked port is quiet: the masked ports in FAULT (R198). -/
def sbarValue (s : State) (m : BitVec 8) : Option Word :=
  if (maskPorts m).all (fun n => portQuiet (s.port n)) then
    some (BitVec.ofNat 64 ((maskPorts m).foldl (fun v n => if (s.port n).fault then v + 2 ^ n else v) 0))
  else none

def execSbar (p : BitVec 2) (m : BitVec 8) (b : BitVec 7) (a : BitVec 7) (s : State) : Out :=
  fire (.sbar p m b a) s (fun _ x s =>
    match sbarValue s m with
    | some v => .done s (some (.val v false))
    | none => .done (addWait s x (.ports m)) none)

/-- A copy end that BCOPY may name, or the local end of BCOPYH (R199). -/
def copyEnd (host : Bool) (a : Word) : Bool :=
  match addrClass a with
  | .store _ => true
  | .window _ _ => true
  | .remote _ _ => !host
  | _ => false

def isVirt (a : Word) : Bool := match addrClass a with | .virt _ => true | _ => false

/-- R199: the descriptor names a legal combination. -/
def copyOk (host : Bool) (src dst len res : Word) : Bool :=
  decide (1 ≤ len.toNat ∧ len.toNat < 2 ^ 32) && res == 0 &&
  (if host then (isVirt src && copyEnd true dst) || (copyEnd true src && isVirt dst) else copyEnd false src && copyEnd false dst)

/-- The local end's check under R120 when the instruction fires (R199): its whole range lies in its class. A transfer that touches the undo region
ends with PROTECTION (R289). -/
def copyEndTrap (a : Word) (len : Nat) : Option Fired :=
  match addrClass a with
  | .store off => if 0x80000 < off + len then some (trapAddr .addressRange a) else none
  | .window _ off => if 0x300000 < off + len then some (trapAddr .addressRange a) else none
  | _ => none

def copyOp (i : Instr) (s : State) (host : Bool) (sig : BitVec 1) (n : BitVec 6) : Out :=
  descOp i s 4 (fun x ws s =>
    let w (k : Nat) : Word := (ws[k]?).getD 0
    if copyOk host (w 0) (w 1) (w 2) (w 3) = false then malformed s
    else match copyEndTrap (w 0) (w 2).toNat, copyEndTrap (w 1) (w 2).toNat with
      | some t, _ => .error t
      | none, some t => .error t
      | none, none => .ok (addAct s x.slot 0 (.copy (sig == 1) n (w 0) (w 1) (w 2).toNat host))) .engineDesc

def execBcopy (p : BitVec 2) (g : BitVec 1) (n : BitVec 6) (b : BitVec 7) (a : BitVec 7) (s : State) : Out := copyOp (.bcopy p g n b a) s false g n
def execBcopyh (p : BitVec 2) (g : BitVec 1) (n : BitVec 6) (b : BitVec 7) (a : BitVec 7) (s : State) : Out := copyOp (.bcopyh p g n b a) s true g n

/-- R203: the AGCFG descriptor is well formed. -/
def agcfgOk (d : BitVec 128) : Bool :=
  let n := d.toNat
  let mode := n / 2 ^ 32 % 8
  let param := n / 2 ^ 40 % 256
  let row := n / 2 ^ 96
  decide (n / 2 ^ 56 % 2 ^ 40 = 0 ∧ n / 2 ^ 48 % 2 = 0 ∧ n / 2 ^ 35 % 32 = 0 ∧ n / 2 ^ 22 % 2 ^ 10 = 0 ∧ n / 2 ^ 6 % 2 ^ 10 = 0 ∧ mode ≠ 7 ∧
    1 ≤ n / 2 ^ 16 % 64 ∧ n % 64 + n / 2 ^ 16 % 64 ≤ 48) &&
  (if mode = 1 then decide (2 ≤ param ∧ param ≤ 4) else if mode = 3 then decide (1 ≤ param ∧ param ≤ 64)
   else if mode = 5 then decide (param ≤ 63) else param == 0) &&
  (if mode = 3 then decide (64 ≤ row ∧ row ≤ 65536 ∧ row % 64 = 0) else row == 0)

def execAgcfg (p : BitVec 2) (g : BitVec 2) (w : BitVec 2) (b : BitVec 7) (a : BitVec 7) (s : State) : Out :=
  descOp (.agcfg p g w b a) s 2 (fun x ws s =>
    let d := BitVec.ofNat 128 (((ws[0]?).getD 0).toNat + ((ws[1]?).getD 0).toNat * 2 ^ 64)
    if agcfgOk d then .ok (addAct s x.slot 0 (.agcfg w g d)) else malformed s) .engineDesc

/-- The pattern's BASE addresses M-tile w of the focus tile (R205). -/
def baseInWindow (s : State) (w : BitVec 2) (ws : List Word) : Bool :=
  match addrClass ((ws[0]?).getD 0) with
  | .window v _ => v == w.toNat
  | .remote t _ => neighbour s.cur w.toNat == some t
  | _ => false

def execAggo (p : BitVec 2) (g : BitVec 2) (w : BitVec 2) (b : BitVec 7) (a : BitVec 7) (s : State) : Out :=
  fire (.aggo p g w b a) s (fun _ x s =>
    let l := x.l.toNat
    if x.lp || x.rp then trapPoison .special
    else match mget s.core.aps (l % 32), mget s.core.aps (l / 256 % 32) with
      | some sa, some da =>
        if l / 2 ^ 13 ≠ 0 ∨ l / 32 % 8 ≠ 0 ∨ x.r.toNat / 16 ≠ 0 ∨ apBytes sa ≠ apBytes da ∨
          (baseInWindow s w sa = false ∧ baseInWindow s w da = false) then trapNow .engineDesc
        else match signal s (x.r.getLsbD 3) (x.r.extractLsb' 0 3) with
          | .error t => t
          | .ok s => .done (addAct s x.slot 0 (.aggo w g x.l x.r)) (some (.val 0 false))
      | _, _ => trapNow .engineDesc)

/-- COLL (R206). -/
def execColl (p : BitVec 2) (k : BitVec 3) (b : BitVec 7) (a : BitVec 7) (s : State) : Out :=
  fire (.coll p k b a) s (fun _ x s =>
    let c := x.l.toNat
    match s.out? s.act k with
    | none => badChannel k.toNat
    | some o =>
      match o.dest with
      | .coll _ _ =>
        if x.lp then trapPoison .special
        else if c / 2 ^ 48 ≠ 0 ∨ c / 2 ^ 6 % 2 ^ 10 ≠ 0 ∨ c / 2 ^ 16 % 2 ^ 32 = 0 ∨ 3 < c % 16 then trapNow .engineDesc
        else .done (addAct (takeCredit s k) x.slot 0 (.coll k x.l)) (some (.val 0 false))
      | _ => badChannel k.toNat)

-- System instructions (R208)

/-- TRAP (R208): USER_TRAP with the 64-bit code and its poison. -/
def execTrap (p : BitVec 2) (s : State) : Out := fire (.trap p) s (fun _ x _ => .trap .userTrap none 0 x.l x.lp)

/-- Tile t lies in the rectangle of the issuing partition (R209, R212). -/
def inPartition (s : State) (t : Nat) : Bool :=
  match mget s.parts (s.core.sys.part.getD 64) with
  | none => false
  | some q => inField t && decide (q.ix0 ≤ (islandOf t).1 ∧ (islandOf t).1 ≤ q.ix1 ∧ q.iy0 ≤ (islandOf t).2 ∧ (islandOf t).2 ≤ q.iy1)

/-- A handle is well formed and names a tile of the partition (R209). -/
def handleOk (s : State) (h : Word) : Bool := decide (h.toNat / 2 ^ 32 = 0 ∧ h.toNat / 2 ^ 17 % 128 = 0) && inPartition s (h.toNat % 2 ^ 16)

def answerOp (i : Instr) (s : State) (kill : Bool) : Out :=
  fire i s (fun _ x s =>
    if x.lp then trapPoison .special
    else if handleOk s x.l = false then trapNow .sysDesc
    else .done (addAct s x.slot 0 (.answer kill x.l)) (some (.val 0 false)))

def execEres (p : BitVec 2) (b : BitVec 7) (a : BitVec 7) (s : State) : Out := answerOp (.eres p b a) s false
def execEkill (p : BitVec 2) (b : BitVec 7) (a : BitVec 7) (s : State) : Out := answerOp (.ekill p b a) s true

/-- The system registers of MFSP (R211); none for an unlisted number. -/
def sysRead (s : State) (n : Nat) : Option Word :=
  let y := s.core.sys
  let q := mget s.parts (y.part.getD 64)
  match n with
  | 0x00 => some y.wdlim
  | 0x01 => some (if y.dbgen then 1 else 0)
  | 0x02 => some (y.trapcnt.setWidth 64)
  | 0x03 => some (y.stale.setWidth 64)
  | 0x04 => some (y.supv.setWidth 64)
  | 0x05 => some (BitVec.ofNat 64 ((q.map (fun q => q.mem.kfirst + q.mem.kcnt * 2 ^ 12)).getD 0))
  | 0x06 => some ((q.map (fun q => q.mem.ctx)).getD 0)
  | 0x07 => some (BitVec.ofNat 64 ((List.range 8).foldl (fun v k =>
      if (s.port k).active.isSome || (s.port k).pending.isSome then v + 2 ^ k else v) 0))
  | 0x08 => some (BitVec.ofNat 64 s.core.copies.length)
  | 0x09 => some ((q.map (fun q => q.telm)).getD 0)
  | _ => none

/-- MFSP (R211). A number with nonzero bits 63:8 is an unlisted one (DESIGN CHOICE, log entry 166), here and in MTSP. -/
def execMfsp (p : BitVec 2) (b : BitVec 7) (a : BitVec 7) (s : State) : Out :=
  fire (.mfsp p b a) s (fun _ x s =>
    if x.lp then trapPoison .special
    else match sysRead s x.l.toNat with
      | none => trapNow .badSpecial
      | some v => .done s (some (.val v false)))

def execMtsp (p : BitVec 2) (s : State) : Out :=
  fire (.mtsp p) s (fun _ x s =>
    if x.lp || x.rp then trapPoison .special
    else if 1 ≤ x.l.toNat ∧ x.l.toNat ≤ 3 then .done (addAct s x.slot 0 (.mtsp (x.l.setWidth 8) x.r)) none
    else trapNow .badSpecial)

def execHalt (p : BitVec 2) (s : State) : Out :=
  fire (.halt p) s (fun _ x s =>
    if x.lp then trapPoison .special
    else if x.l.toNat / 2 ^ 17 ≠ 0 ∨ isCTile (x.l.toNat % 2 ^ 16) = false ∨ inPartition s (x.l.toNat % 2 ^ 16) = false then trapNow .sysDesc
    else .done (addAct s x.slot 0 (.halt x.l)) none)

/-- DBG (R213) never traps on poison. -/
def execDbg (p : BitVec 2) (s : State) : Out := fire (.dbg p) s (fun _ x s => .done (addAct s x.slot 0 (.dbg x.l x.lp)) none)

def execWdog (p : BitVec 2) (s : State) : Out :=
  fire (.wdog p) s (fun _ x s => if x.lp then trapPoison .special else .done (addAct s x.slot 0 (.wdog x.l)) none)

/-- TELM (R216). -/
def execTelm (p : BitVec 2) (s : State) : Out :=
  fire (.telm p) s (fun _ x s =>
    let c := x.l.toNat
    if x.lp then trapPoison .special
    else if c % 4 = 3 ∨ c / 2 ^ 32 ≠ 0 ∨ c / 4 % 64 ≠ 0 ∨ c / 2 ^ 8 % 2 ^ 24 = 0 then trapNow .sysDesc
    else .done (addAct s x.slot 0 (.telm x.l)) none)

end Sys2Proof.Machine
end

