-- ==== Sys2Proof/Machine/BlockEvents.lean ====
section
/-!
DEFINITION. Undo capture at a home (R391 to R394), and what becomes of a block: fetch and its checks (R48, R56, R57), result delivery (R61,
R63, R64), commit (R68), commit-wait, and the traps of time (R70, R142, R237).
-/

namespace Sys2Proof.Machine

open Sys2Proof

-- Intervals and undo capture

/-- Interval a comes after interval b (R388). -/
def later (a b : BitVec 32) : Bool := decide (0 < (a - b).toInt)

/-- The last sealed interval of partition p's domain (R408). -/
def State.lsealed (s : State) (p : Nat) : BitVec 32 := ((mget s.parts p).map Partition.sealed).getD 0xFFFFFFFF

/-- Changes partition p. -/
def State.modPart (s : State) (p : Nat) (f : Partition → Partition) : State := { s with parts := mmod s.parts p f }

/-- The Fjoith ports bound for partition p's domain (R430). -/
def domPorts (s : State) (p : Nat) : List Nat :=
  (List.range 48).filter (fun k => match s.fjs[k]?, mget s.parts p with
    | some f, some q => f.bind.getLsbD 63 && f.bind.toNat % 64 == p && q.dom != 0 && f.bind.extractLsb' 16 16 == q.dom
    | _, _ => false)

/-- Sends a control flit over every bound port of the domain (R420, R425). -/
def tellPeers (s : State) (p : Nat) (b : FjBody) : State :=
  (domPorts s p).foldl (fun s k => { s with fjs := s.fjs.modify k (fun f => { f with wait := f.wait ++ [b] }) }) s

/-- This module's Headland is the seal master of partition p's domain (R388, R436). -/
def sealMaster (q : Partition) : Bool := q.dom == 0 || q.master

/-- Requests a tidemark wave of partition p's domain (R143, R395); requests merge. auto: requested by a home (R394). -/
def State.askWave (s : State) (p : Nat) (auto : Bool) : State :=
  let ask := ((mget s.parts p).map (fun q => !sealMaster q && !q.pend)).getD false
  let s := s.modPart p (fun q => { q with pend := true, autow := if auto then q.autow + 1 else q.autow })
  if ask then tellPeers s p .ask else s

/-- The write of bs at offset o of a line by interval i meets the home's tags and undo slots (R392): a late write goes into the later copy as
well; a line whose tag differs from i mod 4 is captured first. ls is the last sealed interval, whose tag an unlisted line bears (R393). -/
def captureLine (ls i : BitVec 32) (line o : Nat) (bs old : List Byte) (pres : List Bool) (tags : Map (BitVec 2)) (undo : List UndoSlot) :
    Map (BitVec 2) × List UndoSlot :=
  if undo.any (fun u => u.line == line && later u.rin i) then
    (tags, undo.map (fun u => if u.line = line ∧ later u.rin i then { u with old := patchLine u.old bs o } else u))
  else if mgetD tags line (ls.setWidth 2) = i.setWidth 2 then (tags, undo)
  else (mset tags line (i.setWidth 2), undo ++ [⟨i, line, old, pres, none, 64⟩])

/-- Whether a write of interval i to a line needs a free undo slot. -/
def needsSlot (ls i : BitVec 32) (line : Nat) (tags : Map (BitVec 2)) (undo : List UndoSlot) : Bool :=
  !(undo.any (fun u => u.line == line && later u.rin i)) && mgetD tags line (ls.setWidth 2) != i.setWidth 2

/-- The undo slots of a compute tile (R391): 1,024, of which a bank copy takes 256. -/
def TileRec.slotsUsed (r : TileRec) : Nat := r.undo.length + 256 * (r.bankUndo.filter (fun u => u.2.2.isSome)).length

/-- The partition of compute tile t, 64 for none. -/
def State.partOf (s : State) (t : Nat) : Nat := (((s.tile? t).map (fun c => c.sys.part.getD 64)).getD 64)

/-- Bytes off to off + n - 1 of C-tile t's store have been written: the matrix operations that are reading there may see it (R179). -/
def State.mxSees (s : State) (t off n : Nat) : State :=
  if ((s.tile? t).map (fun c => c.mx.queue.any (fun o => (opReads o).any (fun r => overlaps r.1 r.2 off n)))).getD false then
    let look (cyc j : Nat) (o : MxOp) : MxOp := lookOp cyc off n (fun a k => s.bytes (tileKey t a) k) (s.free + 131072 * j) o
    { s.modTile t (fun c => { c with mx := { c.mx with queue := c.mx.queue.mapIdx (look c.cyc) } }) with free := s.free + 1048576 }
  else s

/-- A write at the home of C-tile t's store by interval i, captured line by line (R392). -/
def State.writeC (s : State) (t off : Nat) (bs : List Byte) (i : BitVec 32) : State :=
  let ls := s.lsealed (s.partOf t)
  ((partsOf off bs).foldl (fun s l =>
    let old := s.bytes (tileKey t (64 * l.1)) 64
    let s := s.modTile t (fun c =>
      let u := captureLine ls i l.1 l.2.1 l.2.2 old [] c.recov.tags c.recov.undo
      { c with recov := { c.recov with tags := u.1, undo := u.2 } })
    let s := s.puts (tileKey t (64 * l.1 + l.2.1)) l.2.2
    let used : Nat := ((s.tile? t).map (fun c => c.recov.slotsUsed)).getD 0
    if decide (768 ≤ used) && (((mget s.parts (s.partOf t)).map Partition.pend) == some false) then s.askWave (s.partOf t) true else s) s).mxSees t off bs.length

/-- The lines of a write at C-tile t for which interval i needs a slot each. -/
def State.slotsNeeded (s : State) (t : Nat) (i : BitVec 32) (lines : List Nat) : Nat :=
  match s.tile? t with
  | none => 0
  | some c => (lines.dedup.filter (fun l => needsSlot (s.lsealed (s.partOf t)) i l c.recov.tags c.recov.undo)).length

-- Fetch

/-- The header as bits (R26). -/
def hdrN (h : BitVec 128) : Nat := (h.extractLsb' 0 5).toNat + 1
def hdrXC (h : BitVec 128) : Nat := (h.extractLsb' 5 3).toNat
def hdrSM (h : BitVec 128) : BitVec 16 := h.extractLsb' 8 16
def hdrWM (h : BitVec 128) : BitVec 64 := h.extractLsb' 32 64

/-- The fetch cycles of a block whose header stands at a: one for the header and one for each line of four words (R56). A header outside the
fetch range costs the header's cycle. -/
def fetchCycles (s : State) (a : BitVec 32) : Nat :=
  if 0x7FBFF < a.toNat + 15 then 1 else 1 + ((s.byte (tileKey s.cur a.toNat)).toNat % 32 + 4) / 4

/-- Starts the fetch of a block for the running level (R56). -/
def startFetch (s : State) (hi : Bool) (a : BitVec 32) : State :=
  s.setLevel hi { s.core.level hi with fetch := some ⟨a, fetchCycles s a, true⟩, blk := none }

/-- The instruction of a word, also where only its target field is illegal (R29), with its operand form. -/
def wordInfo (w : Word32) : Option (Instr × Info) :=
  match decode w with
  | .ok i => (infoOf i).map (fun f => (i, f))
  | .error (.illegalTarget i) => (infoOf i).map (fun f => (i, f))
  | .error _ => none

/-- The primary opcode of a word (R28). -/
def opcodeOf (w : Word32) : Nat := (w.extractLsb' 24 8).toNat

/-- The exit number of an exit instruction (R27, R28), read from the opcode alone: an illegal field of it is an ILLEGAL_OP. -/
def exitNo (w : Word32) : Option (BitVec 3) := if 0x01 ≤ opcodeOf w ∧ opcodeOf w ≤ 0x06 then some (w.extractLsb' 19 3) else none

/-- The opcodes of the store-class instructions (R27). -/
def storeOpcodes : List Nat := [0x47, 0x48, 0x49, 0x4A, 0x4C, 0x4D, 0x4F, 0x50, 0x51, 0x52, 0x56, 0x57, 0x58, 0x59, 0x64]

/-- The LSID of a store-class instruction, read from the opcode alone. -/
def storeLsid (w : Word32) : Option (BitVec 4) := if opcodeOf w ∈ storeOpcodes then some (w.extractLsb' 17 4) else none

/-- The register a WRITE names, read from the opcode alone. -/
def writeReg? (w : Word32) : Option (BitVec 6) := if opcodeOf w = 0x0F then some (w.extractLsb' 16 6) else none

/-- R27: the header agrees with the block's instructions. -/
def headerOk (h : BitVec 128) (ws : List Word32) : Bool :=
  let exits := ws.filterMap exitNo
  let sm := (ws.filterMap storeLsid).foldl (fun m l => m ||| (1#16 <<< l.toNat)) (0#16)
  let wm := (ws.filterMap writeReg?).foldl (fun m g => m ||| (1#64 <<< g.toNat)) (0#64)
  let sc := ws.any (fun w => opcodeOf w == 0x4E || opcodeOf w == 0x4F)
  h.extractLsb' 96 32 == 0 && h.extractLsb' 28 4 == 0 && hdrXC h != 0 && exits.length == hdrXC h && exits.dedup.length == exits.length &&
    exits.all (fun e => decide (e.toNat < hdrXC h)) && sm == hdrSM h && wm == hdrWM h && (!sc || h.getLsbD 26)

/-- The SYS forms that only a privileged block may hold (R44). -/
def isPriv (i : Instr) : Bool :=
  match i with
  | .eres _ _ _ => true
  | .ekill _ _ _ => true
  | .mfsp _ _ _ => true
  | .mtsp _ => true
  | .halt _ => true
  | .wdog _ => true
  | .ecnt _ _ _ => true
  | .telm _ => true
  | .cswp _ => true
  | .xflush _ _ _ => true
  | _ => false

/-- A queued matrix operation (R178). -/
def isMx (i : Instr) : Bool :=
  match i with
  | .mma _ _ _ _ _ => true
  | .mmas _ _ _ _ _ => true
  | .mclr _ _ _ _ => true
  | .mlda _ _ _ _ => true
  | .mdrain _ _ _ _ _ _ => true
  | .mfade _ _ _ _ => true
  | .lutsel _ _ _ _ => true
  | _ => false

/-- ILLEGAL_OP at slot k (R48 order 4): the word does not decode to a well-formed instruction, is privileged in a block with P clear, or is
the ninth queued matrix operation. -/
def illegalOp (h : BitVec 128) (ws : List Word32) (k : Nat) : Bool :=
  match wordInfo ((ws[k]?).getD 0) with
  | none => true
  | some x =>
    !x.1.wellFormed || (isPriv x.1 && !h.getLsbD 27) ||
      (isMx x.1 && decide (8 ≤ ((ws.take k).filter (fun w => match wordInfo w with
        | some y => isMx y.1
        | none => false)).length))

/-- The word is refused for its target field alone (R29): a form without a value names a target. -/
def badTargetWord (w : Word32) : Bool :=
  match decode w with
  | .error (.illegalTarget _) => true
  | _ => false

/-- A target field of the instruction in slot k is legal (R29). -/
def targetOk (ws : List Word32) (k : Nat) (t : BitVec 7) : Bool :=
  let n := (t.extractLsb' 0 5).toNat
  let kind := t.extractLsb' 5 2
  if kind = 3 then t == noT
  else decide (n < ws.length) && n != k && (match wordInfo ((ws[n]?).getD 0) with
    | some x => x.2.takes kind
    | none => true)

/-- ILLEGAL_TARGET at slot k (R29). -/
def illegalTarget (ws : List Word32) (k : Nat) : Bool :=
  match wordInfo ((ws[k]?).getD 0) with
  | none => false
  | some x =>
    badTargetWord ((ws[k]?).getD 0) || !(targetOk ws k x.2.t0) || !(targetOk ws k x.2.t1) || (x.2.t0 == x.2.t1 && x.2.t0 != noT)

/-- The first failing fetch check in the order of R48, with its slot. -/
def fetchTrap (s : State) (i : Inv) (a : BitVec 32) (h : BitVec 128) (ws : List Word32) : Option (Cause × Nat) :=
  if 0x7FBFF < a.toNat + 15 ∨ 0x7FC00 < a.toNat + 16 + 16 * ((ws.length + 3) / 4) ∨
    touchesUndo a.toNat (16 + 16 * ((ws.length + 3) / 4)) ∨ a.toNat % 16 ≠ 0 then some (.fetchRange, 0)
  else if h.getLsbD 27 && !i.priv then some (.privilege, 0)
  else if headerOk h ws = false ∨ (a = s.level.rstl ∧ i.aborted ∧ h.getLsbD 24 = false) then some (.illegalHeader, 0)
  else match (List.range ws.length).find? (illegalOp h ws) with
    | some k => some (.illegalOp, k)
    | none => ((List.range ws.length).find? (illegalTarget ws)).map (fun k => (.illegalTarget, k))

/-- The words of a block in memory. -/
def blockWords (s : State) (a n : Nat) : List Word32 :=
  match n with
  | 0 => []
  | n + 1 => BitVec.ofNat 32 (leNat (s.bytes (tileKey s.cur a) 4)) :: blockWords s (a + 4) n

def emptySlot (w : Word32) : Slot := ⟨w, none, none, none, .waiting⟩

/-- A block entering the window (R54, R64). -/
def newBlk (s : State) (a : BitVec 32) (h : BitVec 128) (ws : List Word32) : Blk :=
  { addr := a, hdr := h, slots := ws.map emptySlot, start := s.core.cyc, fly := [], stores := [], lsids := 0, wregs := [], exit := none, acts := [],
    fpst := 0, owed := [], waits := [], tags := [], creds := [], idle := 0, phase := .running, trap := none, pend := none,
    exitNo := 0, took := false, tabs := [] }

/-- R58: the entry registers g24 to g28 of the active bank. -/
def loadEntry (i : Inv) (rs : List Reg) : List Reg :=
  let rs := (List.range 4).foldl (fun rs k => regSet rs (24 + k) ((i.entry[k]?).getD ⟨0, false⟩)) rs
  regSet rs 28 ⟨i.desc, false⟩

/-- BLOCK_FETCH_DONE (R48, R56, R58): the checks run, and the block enters the window or its fetch trap is raised. A WATCHDOG or MWIN_OVERRUN
that fell due during the fetch is raised as the block enters, at slot 0 (R142, R237). -/
def execBlockFetchDone (s : State) : Out :=
  match s.core.run, s.inv? with
  | some hi, some i =>
    let l := s.core.level hi
    match l.fetch with
    | none => .next s
    | some f =>
      if f.left ≠ 0 ∨ f.fresh then .next s
      else
        let a := f.addr
        let h := BitVec.ofNat 128 (leNat (s.bytes (tileKey s.cur a.toNat) 16))
        let ws := blockWords s (a.toNat + 16) (hdrN h)
        match fetchTrap s i a h ws with
        | some (c, k) =>
          let b : Blk := { newBlk s a 0 [] with slots := [] }
          let s := s.setLevel hi { l with fetch := none, blk := some b }
          .next (takeTrap s ⟨k, c, none, 0, 0, false, false⟩)
        | none =>
          let regs := if h.getLsbD 25 then loadEntry i l.regs else l.regs
          let s := s.setLevel hi { l with fetch := none, blk := some (newBlk s a h ws), regs := regs, inv := some { i with aborted := false, pendTrap := none } }
          match i.pendTrap with
          | some c => .next (takeTrap s ⟨0, c, none, 0, if c = .watchdog then BitVec.ofNat 64 l.wdogNs else 0, false, false⟩)
          | none => .next s
  | _, _ => .next s

/-- FETCH_FRAME (R57): a 16-cycle frame begins and a new duty takes effect. -/
def execFetchFrame (s : State) : Out :=
  let y := s.core.sys
  match y.fdutyNext with
  | some d => if s.core.cyc % 16 = 0 then .next { s with core := { s.core with sys := { y with fduty := d, fdutyNext := none } } } else .next s
  | none => .next s

-- Result delivery (R61, R63, R64)

/-- Puts one token into an operand buffer (R63): the slots, and the trap it raises if any. A poisoned predicate traps as it arrives (R31). -/
def landTarget (slots : List Slot) (t : BitVec 7) (o : Opd) : List Slot × Option PTrap :=
  if t = noT then (slots, none)
  else
    let k := (t.extractLsb' 0 5).toNat
    match slots[k]? with
    | none => (slots, none)
    | some sl =>
      let full : PTrap := ⟨k, .operandOverrun, none, 0, 0, false, false⟩
      if sl.st = .fired then (slots, some full)
      else if t.extractLsb' 5 2 = 0 then
        (if sl.l.isSome then (slots, some full) else (slots.set k { sl with l := some o }, none))
      else if t.extractLsb' 5 2 = 1 then
        (if sl.r.isSome then (slots, some full) else (slots.set k { sl with r := some o }, none))
      else if sl.t.isSome then (slots, some full)
      else
        (slots.set k { sl with t := some o },
          if o.poison && ((wordInfo sl.word).map (fun x => x.2.pr != 0)).getD false then some (predTrap k) else none)

/-- Of two traps of one cycle the lower slot's is reported (R69). -/
def lowerTrap (a b : Option PTrap) : Option PTrap :=
  match a, b with
  | none, _ => b
  | _, none => a
  | some x, some y => if y.slot < x.slot then some y else some x

/-- One result lands in its block (R61): its LSID resolves (a second time is DOUBLE_RESOLVE, R64), its targets fill. -/
def landDeliv (b : Blk) (d : Deliv) : Blk :=
  match d.trap with
  | some t => { b with pend := lowerTrap b.pend (some t) }
  | none =>
    let dbl : Option PTrap := match d.lsid with
      | some l => if b.lsids.getLsbD l.toNat then some ⟨d.slot, .doubleResolve, none, 0, 0, false, false⟩ else none
      | none => none
    let lsids := match d.lsid with
      | some l => b.lsids ||| (1#16 <<< l.toNat)
      | none => b.lsids
    let r0 := landTarget b.slots d.t0 ⟨d.tok, d.anc⟩
    let r1 := landTarget r0.1 d.t1 ⟨d.tok, d.anc⟩
    { b with slots := r1.1, lsids := lsids, pend := lowerTrap (lowerTrap (lowerTrap b.pend dbl) r0.2) r1.2 }

/-- Every result due by a cycle lands. -/
def landDue (cyc : Nat) (b : Blk) : Blk :=
  (b.fly.filter (fun d => decide (d.due ≤ cyc))).foldl landDeliv { b with fly := b.fly.filter (fun d => !decide (d.due ≤ cyc)) }

/-- The value a waiting instruction delivers once its condition holds (R134, R141, R144, R169, R198, R215, R218). -/
def waitValue (s : State) (w : Wait) : Option Word :=
  match w.what with
  | .fence sc => if fenceClear s sc then some 0 else none
  | .sealed x => if s.isSealed x then some (x.setWidth 64) else none
  | .barrier b g => if (s.barrier b.toNat).g ≠ g then some ((s.barrier b.toNat).g.setWidth 64) else none
  | .ports m => sbarValue s m
  | .rowIdle q => drained s q
  | .record _ _ => none
  | .xflush _ => none

/-- Delivers what the waits that ok names, of one level's block, have been waiting for; a SEALW sets the invocation's SEALW bit (R145). -/
def landWaitsOf (ok : WaitFor → Bool) (s : State) (hi : Bool) : State :=
  let s' := { s with core := { s.core with run := some hi } }
  match s'.blk?, s'.inv? with
  | some b, some i =>
    let met (w : Wait) : Bool := ok w.what && (waitValue s' w).isSome
    let done := b.waits.filter met
    let b := done.foldl (fun b w =>
      match wordInfo ((b.slots[w.slot]?).getD (emptySlot 0)).word, waitValue s' w with
      | some x, some v => landDeliv b ⟨s.core.cyc, w.slot, x.2.t0, x.2.t1, .val v false, w.anc, none, none⟩
      | _, _ => b) { b with waits := b.waits.filter (fun w => !met w) }
    let sw := done.any (fun w => match w.what with
      | .sealed _ => true
      | _ => false)
    let l := s.core.level hi
    s.setLevel hi { l with blk := some b, inv := some { i with sealw := i.sealw || sw } }
  | _, _ => s

/-- Every wait of the level. -/
def landWaits (s : State) (hi : Bool) : State := landWaitsOf (fun _ => true) s hi

/-- The RDRAINs of one level deliver in the tile cycle in which their slots leave RUNNING (R169). -/
def landDrains (s : State) (hi : Bool) : State :=
  let l := s.core.level hi
  if l.blk.any (fun b => b.phase == .committing) || l.inv.any (fun i => i.frozen.isSome) then s
  else landWaitsOf (fun w => match w with
    | .rowIdle _ => true
    | _ => false) s hi

/-- A SEALW result in flight that lands now sets the SEALW bit (R145). -/
def sealwLands (cyc : Nat) (b : Blk) : Bool :=
  b.fly.any (fun d => decide (d.due ≤ cyc) && (match wordInfo ((b.slots[d.slot]?).getD (emptySlot 0)).word with
    | some (.sealw _ _, _) => d.tok != .null
    | _ => false))

/-- The results and waits of one level at the start of a tile cycle. -/
def landLevel (s : State) (hi : Bool) : State :=
  let l := s.core.level hi
  match l.blk with
  | none => s
  | some b =>
    if b.phase = .committing ∨ (l.inv.any (fun i => i.frozen.isSome)) then s
    else
      let i := l.inv.map (fun i => { i with sealw := i.sealw || sealwLands s.core.cyc b })
      let s := s.setLevel hi { l with blk := some (landDue s.core.cyc b), inv := i }
      landWaits s hi

/-- R64: what the block needs in order to commit. -/
def canCommit (b : Blk) : Bool :=
  b.phase == .running && b.exit.isSome && b.trap.isNone && b.pend.isNone && (hdrSM b.hdr &&& ~~~b.lsids) == 0 &&
    (List.range 64).all (fun i => !(hdrWM b.hdr).getLsbD i || b.wregs.any (fun w => w.1.toNat == i))

/-- The instruction of slot k may fire in this cycle (R60, R97, R139), the limits of the cycle apart; beside a delivery trap only a lower slot,
whose own trap would be the one reported (R69). -/
def slotReady (s : State) (b : Blk) (k : Nat) : Bool :=
  match b.slots[k]? with
  | none => false
  | some sl =>
    sl.st == .waiting && b.phase != .committing && b.trap.isNone && (b.pend.map (fun t => decide (k < t.slot))).getD true && (match decode sl.word with
      | .error _ => false
      | .ok i =>
        match infoOf i with
        | none => false
        | some f =>
          ready f sl && creditFree s i sl && !(needsStaging i && !(stagingFree s)))

/-- The instruction of slot k takes one of the two memory places (R60). -/
def slotMem (b : Blk) (k : Nat) : Bool :=
  match b.slots[k]? with
  | none => false
  | some sl => ((wordInfo sl.word).map (fun x => x.2.mem)).getD false

/-- The lowest slot that fires next in this tile cycle: four a cycle, two of them memory instructions (R60). -/
def pickSlot (s : State) : Option Nat :=
  match s.blk? with
  | none => none
  | some b =>
    if s.core.sys.stopped ∨ 4 ≤ s.core.fired then none
    else (List.range b.slots.length).find? (fun k => slotReady s b k && !(slotMem b k && decide (2 ≤ s.core.mems)))

/-- An instruction of the block waits only for a credit or the staging buffer (R70, R97, R139). -/
def waitsForCredit (s : State) (b : Blk) : Bool :=
  b.slots.any (fun sl => sl.st == .waiting && (match decode sl.word with
    | .ok i => (match infoOf i with
      | some f => ready f sl && (!(creditFree s i sl) || (needsStaging i && !(stagingFree s)))
      | none => false)
    | .error _ => false))

/-- The word of slot k is a load or an atomic, whose reply may be on its way (R70, R125, R126, R130, R132, R135), read from the opcode alone. -/
def isLoadSlot (b : Blk) (k : Nat) : Bool :=
  ((b.slots[k]?).map (fun sl => decide (opcodeOf sl.word ∈ [0x40, 0x41, 0x42, 0x43, 0x44, 0x45, 0x46, 0x4B, 0x4E, 0x50, 0x52]))).getD false

/-- A load's data or an atomic's result is still on its way to the block (R61, R70). -/
def loadInFlight (b : Blk) : Bool := b.fly.any (fun d => isLoadSlot b d.slot && (d.tok != .null || d.trap.isSome))

/-- R70: the tile cycle that ends is idle for the block in the window. -/
def idleCycle (s : State) (b : Blk) : Bool :=
  !b.took && (pickSlot s).isNone && !(loadInFlight b) && b.owed.isEmpty && b.waits.isEmpty && !(waitsForCredit s b) &&
    !(b.acts.any (fun a => decide (s.core.cyc < a.ready))) && !(b.stores.any (fun a => decide (s.core.cyc < a.ready)))

/-- Steps that become due. -/
def State.due (s : State) (agent : Nat) (i : Instr) : State := { s with agenda := s.agenda ++ [⟨agent, i, Input.none⟩] }

/-- The trap of a delivery is taken (R69). -/
def takePend (s : State) : State :=
  match s.blk?, s.inv? with
  | some b, some i =>
    (match b.pend with
    | some t => if i.frozen.isNone ∧ b.trap.isNone ∧ b.phase ≠ .committing then takeTrap s t else s
    | none => s)
  | _, _ => s

/-- The trap of a delivery is taken as it comes (R69), unless a lower slot still fires in this cycle: then at the cycle's end. -/
def takePending (s : State) : State :=
  match s.blk? with
  | some b => if b.pend.isSome ∧ (pickSlot s).isNone then takePend s else s
  | none => s

/-- The block in the window at the end of a tile cycle: a delivery's trap that no lower slot has outdone is taken (R69), it begins its commit
(R64), or the idle count goes on (R70). A block that a debug stop holds does not commit (R81). -/
def endCycleBlk (s : State) : State :=
  let s := takePend s
  match s.blk? with
  | none => s
  | some b =>
    let y := s.core.sys
    if canCommit b ∧ (y.stopped || y.brk || y.halted) = false then s.setBlk { b with phase := .committing, idle := 0, took := false }
    else if b.phase ≠ .running ∨ b.trap.isSome then s.setBlk { b with took := false }
    else if y.stopped then s
    else if idleCycle s b then
      let s := s.setBlk { b with idle := b.idle + 1 }
      if 64 ≤ b.idle + 1 then s.due s.cur .blockDead else s
    else s.setBlk { b with idle := 0, took := false }

/-- The running invocation is charged for the cycle (R237). -/
def chargeWdog (s : State) : State :=
  match s.core.run, s.inv? with
  | some hi, some i =>
    if i.frozen.isSome ∨ s.core.sys.stopped then s
    else
      let l := s.core.level hi
      let l := { l with wdog := l.wdog + s.core.period }
      let s := s.setLevel hi l
      if s.core.sys.wdlim.toNat < l.wdogNs then s.due s.cur .watchdog else s
  | _, _ => s

/-- A fetch cycle of the running level, when the duty allows it (R56, R57); a fetch begins in the cycle after the one that started it. -/
def fetchStep (s : State) : State :=
  match s.core.run with
  | none => s
  | some hi =>
    let l := s.core.level hi
    match l.fetch with
    | none => s
    | some f =>
      if f.fresh then s.setLevel hi { l with fetch := some { f with fresh := false } }
      else if f.left = 0 ∨ s.core.sys.stopped ∨ s.core.sys.fduty.toNat ≤ s.core.cyc % 16 then s
      else s.setLevel hi { l with fetch := some { f with left := f.left - 1 } }

/-- The steps of the tile's engines that fall due as a new tile cycle begins. The lowest tile's cycles tell when a microsecond has passed
and a time beacon is due (R427, notes/assumptions). -/
def dueEngines (s : State) : State :=
  let c := s.core
  let s := if c.sys.fdutyNext.isSome && c.cyc % 16 == 0 then s.due s.cur .fetchFrame else s
  let rowOn := c.row.slots.any (fun r => r.st == .running)
  let s := if (rowOn || c.row.holders.any (fun h => h.isSome)) && c.cyc % 16 == 0 then s.due s.cur .rowRound else s
  let s := if rowOn then s.due s.cur .rowArrayCycle else s
  let s := if c.mx.queue.isEmpty then s else ((s.due s.cur .matrixOpEnd).due s.cur .mmasStagingStart).due s.cur .matrixOpBegin
  let s := if c.ports.any (fun q => q.active.isSome) || !c.copies.isEmpty then s.due s.cur .engineBeat else s
  let s : State := s.mts.foldl (fun s m => if m.2.gens.any (fun g => g.tile == s.cur && !g.wait) then s.due m.1 .engineBeat else s) s
  let s := if (c.mwin.map (fun d => decide (d ≤ c.cyc))).getD false then s.due s.cur .mwinOverrun else s
  let s := if s.head.ballast != 0 && c.mx.queue.isEmpty && c.cyc % 64 == 0 then s.due s.cur .ballastPass else s
  if s.tiles.all (fun x => decide (s.cur < x.1)) ∧ (c.elapsed / 1000000000) ≠ ((c.elapsed - c.period) / 1000000000) then
    s.due headIf .timeBeacon
  else s

/-- RESULT_DELIVERY (R61): the tile cycle ends. The block's commit or idle state is settled, the cycle count advances, fetch and watchdog
move on, and every result due lands in its operand buffer, in the window and in the shadow copy alike. -/
def execResultDelivery (s : State) : Out :=
  let s := endCycleBlk s
  let s := chargeWdog (fetchStep s)
  let c := s.core
  let s := { s with core := { c with
    cyc := c.cyc + 1, elapsed := c.elapsed + c.period, fired := 0, mems := 0, decided := false,
    sys := { c.sys with stopped := c.sys.stopped || c.sys.brk || c.sys.halted, brk := c.sys.brk },
    staging := c.staging.filter (fun x => decide (c.cyc + 1 < x.2)) } }
  let s := landLevel (landLevel s false) true
  .next (dueEngines (takePending s))

end Sys2Proof.Machine
end

