-- ==== Sys2Proof/Machine/Flags.lean ====
section
/-!
DEFINITION. The status conditions: how the sticky bits of %fpst (R47), of a row slot (R170) and of an accumulator bank (R186) are formed.
-/

namespace Sys2Proof.Machine

open Sys2Proof

/-- %fpst after a commit: the value an MTS writes, if any, then the bits marked by status() (R86, R68 step 4). -/
def fpstAfter (old : BitVec 6) (mts : Option (BitVec 6)) (marked : Status) : BitVec 6 := mts.getD old ||| marked

/-- The sticky bits of a row slot (R170): NV, DZ, OF, UF, NX, QINF as in %fpst, and TM in bit 6. -/
def rowSticky (old : BitVec 7) (st : Status) (tm : Bool) : BitVec 7 := old ||| st.setWidth 7 ||| (if tm then 64 else 0)

/-- The four bits of a bank (R186), NV 0, OF 1, UF 2, NX 3, from status conditions. -/
def bankBits (st : Status) : BitVec 4 :=
  (if st.getLsbD 0 then 1 else 0) ||| (if st.getLsbD 2 then 2 else 0) ||| (if st.getLsbD 3 then 4 else 0) ||| (if st.getLsbD 4 then 8 else 0)

/-- ORs a bank's bits into BST (R186). -/
def bstOr (bst : BitVec 16) (b : Nat) (bits : BitVec 4) : BitVec 16 := bst ||| (bits.setWidth 16 <<< (4 * b))

/-- Clears a bank's bits in BST (R186). -/
def bstClear (bst : BitVec 16) (b : Nat) : BitVec 16 := bst &&& ~~~((0xF : BitVec 16) <<< (4 * b))

end Sys2Proof.Machine
end

