-- ==== Sys2Proof/Machine/Float.lean ====
section
/-!
DEFINITION. Floating-point, conversion and quantisation instructions (R96 to R118).
-/

namespace Sys2Proof.Machine

open Sys2Proof

/-- The FP32 operand in bits 31:0 (R96). -/
def f32Of (x : Word) : F32 := x.setWidth 32
/-- A 32-bit result, zero-extended. -/
def word32 (x : F32) : Word := x.setWidth 64

/-- A one-operand FP instruction: its status goes to %fpst at commit (R47), its poison is the operand's. -/
def fireF1 (i : Instr) (s : State) (f : Word → Word × Status) : Out :=
  fire i s (fun _ a s => .done (orFpst s (f a.l).2) (some (.val (f a.l).1 a.lp)))
def fireF2 (i : Instr) (s : State) (f : Word → Word → Word × Status) : Out :=
  fire i s (fun _ a s => .done (orFpst s (f a.l a.r).2) (some (.val (f a.l a.r).1 (a.lp || a.rp))))
def fireF3 (i : Instr) (s : State) (f : Word → Word → Word → Word × Status) : Out :=
  fire i s (fun _ a s => .done (orFpst s (f a.l a.r a.t).2) (some (.val (f a.l a.r a.t).1 (a.lp || a.rp || a.tp))))

/-- Lifts an FP32 operation to words. -/
def on1 (f : F32 → F32 × Status) (x : Word) : Word × Status := (word32 (f (f32Of x)).1, (f (f32Of x)).2)
def on2 (f : F32 → F32 → F32 × Status) (x y : Word) : Word × Status := (word32 (f (f32Of x) (f32Of y)).1, (f (f32Of x) (f32Of y)).2)
def on3 (f : F32 → F32 → F32 → F32 × Status) (x y z : Word) : Word × Status :=
  (word32 (f (f32Of x) (f32Of y) (f32Of z)).1, (f (f32Of x) (f32Of y) (f32Of z)).2)
/-- A test (R102). -/
def onT (op : Nat) (x y : Word) : Word × Status :=
  (if (fTest op (f32Of x) (f32Of y)).1 then 1 else 0, (fTest op (f32Of x) (f32Of y)).2)
/-- CVTFI (R104): the .w forms deliver 32 bits, the .d forms 64. -/
def onFI (w : Nat) (lo hi : Int) (m : BitVec 3) (x : Word) : Word × Status :=
  let r := cvtFI m lo hi (f32Of x)
  ((BitVec.ofInt w r.1).setWidth 64, r.2)
/-- CVTIF (R105). -/
def onIF (v : Int) (m : BitVec 3) : Word × Status := (word32 (cvtIF m v).1, (cvtIF m v).2)
/-- CVTFF to a 16-bit format (R106). -/
def onFF (f : Fmt) (m : BitVec 3) (x : Word) : Word × Status :=
  (BitVec.ofNat 64 (cvtFF f m (f32Of x)).1, (cvtFF f m (f32Of x)).2)
/-- CVTFF from a 16-bit format (R106). -/
def onWiden (f : Fmt) (x : Word) : Word × Status :=
  let v := f.val (x.toNat % 2 ^ 16)
  (word32 (widen v), sigNV v)

/-- Decode table t as committed before the block in the window (R107, R117, R252). -/
def State.table (s : State) (t : Nat) : List Word32 :=
  match s.blk?.bind (fun b => mget b.tabs t) with
  | some x => x
  | none => ((s.core.tables[t]?).map DecTable.cur).getD []

/-- The draws an instruction needs (R110). -/
def drawsOf (i : Instr) : Nat :=
  match i with
  | .cvtq8 _ _ d _ _ _ => if d = 2 then 1 else 0
  | .cvtq6 _ _ d _ _ _ => if d = 2 then 1 else 0
  | .cvtq4 _ _ d _ _ _ => if d = 2 then 1 else 0
  | .qblk _ _ d _ _ _ => if d = 2 then 32 else 0
  | _ => 0

/-- The draws of the words of a list of slots. -/
def slotDraws (ls : List Slot) : Nat := (ls.map (fun sl => match decode sl.word with
  | .ok i => drawsOf i
  | .error _ => 0)).sum

/-- The draws numbered from S + 1 that the instruction in slot k takes: the generator state before them (R110). -/
def drawState (s : State) (k : Nat) : BitVec 32 :=
  match s.blk? with
  | none => s.level.seed
  | some b => drawsAfter s.level.seed (slotDraws (b.slots.take k))

/-- n successive draws. -/
def drawList (g : BitVec 32) (n : Nat) : List Nat :=
  match n with
  | 0 => []
  | n + 1 => drawBits (draw16Next g) :: drawList (draw16Next g) n

/-- CVTQ (R109): mode d, rounding m, target format f. -/
def cvtqOp (i : Instr) (s : State) (f : Nat) (d : BitVec 2) (m : BitVec 3) : Out :=
  fire i s (fun _ a s =>
    let r := if d = 2 then drawBits (draw16Next (drawState s a.slot)) else 0
    let q := quant (f32Of a.l) (a.r.toNat % 256) f d.toNat m r
    .done (orFpst s q.2) (some (.val (BitVec.ofNat 64 q.1) (a.lp || a.rp))))

/-- The 2-bit rounding field of QBLK and MDRAIN as a rounding mode (R113, R183). -/
def rm2 (m : BitVec 2) : BitVec 3 := if m = 1 then 1 else if m = 2 then 4 else 0

/-- A 32-bit tile-store address operand (R113). -/
def addr32 (x : Word) : Word := (x.setWidth 32).setWidth 64

/-- The 32-bit words of little-endian bytes. -/
def words32 (bs : List Byte) (n : Nat) : List F32 :=
  match n with
  | 0 => []
  | n + 1 => f32 (leNat (bs.take 4)) :: words32 (bs.drop 4) n

/-- The bytes of a quantised block for code width w, without its scale byte (R113). -/
def codeBytes (w : Nat) : Nat := 4 * w

/-- The checks of QBLK and DQBLK on their two ranges (R113, R289): poison, then alignment, range and protection of the FP32 side and of the
quantised side. -/
def blkTrap (a : Args) (fa qa : Word) (qn : Nat) : Option Fired :=
  if a.lp || a.rp then some (trapPoison .address)
  else if fa.toNat % 16 ≠ 0 then some (trapAddr .misaligned fa)
  else if qa.toNat % 8 ≠ 0 then some (trapAddr .misaligned qa)
  else match localTrap fa false 16 128 0x7FBFF, localTrap qa false 8 qn 0x7FBFF with
    | some t, _ => some t
    | none, some t => some t
    | none, none => none

/-- Puts the result of a staging-buffer conversion into the store buffer (R116), effective, with its status, once its completion has been
delivered (R258). -/
def stageOut (s : State) (f : Info) (a : Args) (dst : Word) (bs : List Byte) (st : Status) : State :=
  let s := addAct (takeStaging s f.lat) a.slot (s.core.cyc + f.lat) (.status st)
  let s := s.modBlk (fun b => { b with stores := b.stores ++ [⟨a.slot, none, .record dst bs, a.anc, s.core.cyc + f.lat⟩] })
  deliver s a.slot f f.lat (.val 0 false) (a.anc ||| (1#32 <<< a.slot)) none

/-- QBLK (R113, R114, R116). -/
def execQblk (p : BitVec 2) (f : BitVec 4) (d : BitVec 2) (m : BitVec 2) (b : BitVec 7) (a : BitVec 7) (s : State) : Out :=
  fire (.qblk p f d m b a) s (fun g x s =>
    let w := fmtWidth f
    match blkTrap x (addr32 x.l) (addr32 x.r) (codeBytes w + 1) with
    | some t => t
    | none =>
      let r := readEls s x.anc (addr32 x.l).toNat 4 32
      let q := qblkCodes f.toNat d.toNat (rm2 m) (words32 r.1 32) (if d = 2 then drawList (drawState s x.slot) 32 else [])
      .done (stageOut r.2 g x (addr32 x.r) (leBytes (codeBytes w) (packCodes w q.1) ++ [BitVec.ofNat 8 q.2.1]) q.2.2) none)

/-- DQBLK (R113, R115, R116). -/
def execDqblk (p : BitVec 2) (f : BitVec 4) (b : BitVec 7) (a : BitVec 7) (s : State) : Out :=
  fire (.dqblk p f b a) s (fun g x s =>
    let w := fmtWidth f
    match blkTrap x (addr32 x.r) (addr32 x.l) (codeBytes w + 1) with
    | some t => t
    | none =>
      let r := readEls s x.anc (addr32 x.l).toNat 1 (codeBytes w + 1)
      let sc := ((r.1[codeBytes w]?).getD 0).toNat
      let vs := (unpackCodes w 32 (leNat (r.1.take (codeBytes w)))).map (fun c => scaled (elemVal f.toNat c []) sc)
      .done (stageOut r.2 g x (addr32 x.r) ((vs.map (fun v => leBytes 4 v.1.toNat)).flatten) (vs.foldl (fun st v => st ||| v.2) 0)) none)

/-- LUTLD (R117). -/
def execLutld (p : BitVec 2) (t : BitVec 2) (b : BitVec 7) (a : BitVec 7) (s : State) : Out :=
  fire (.lutld p t b a) s (fun _ x s =>
    match localTrap (addr32 x.l) x.lp 16 1024 0x7FBFF with
    | some tr => tr
    | none =>
      let r := readEls s x.anc (addr32 x.l).toNat 4 256
      let tab := (words32 r.1 256).map (fun v => v &&& 0x7FFFF)
      .done (addAct (takeStaging r.2 17) x.slot (s.core.cyc + 17) (.lutld t tab)) (some (.val 0 false)))

/-- LUTENC (R118). -/
def execLutenc (p : BitVec 2) (t : BitVec 2) (b : BitVec 7) (a : BitVec 7) (s : State) : Out :=
  fire (.lutenc p t b a) s (fun _ x s =>
    let r := lutEnc (s.table t.toNat) (f32Of x.l)
    .done (orFpst s r.2) (some (.val (BitVec.ofNat 64 r.1) x.lp)))

/-- CVTD (R107): decodes one element exactly, without status. -/
def execCvtd (p : BitVec 2) (f : BitVec 4) (b : BitVec 7) (a : BitVec 7) (s : State) : Out :=
  fire (.cvtd p f b a) s (fun _ x s =>
    .done s (some (.val (word32 (widen (elemVal f.toNat x.l.toNat (s.table (x.l.toNat / 256 % 4))))) x.lp)))

/-- BSCALE (R112). -/
def execBscale (p : BitVec 2) (f : BitVec 4) (b : BitVec 7) (a : BitVec 7) (s : State) : Out :=
  fireF1 (.bscale p f b a) s (fun x => (BitVec.ofNat 64 (bscale f.toNat (f32Of x)).1, (bscale f.toNat (f32Of x)).2))

/-- SRSEED (R111): seeds lane generators at commit. -/
def execSrseed (p : BitVec 2) (d : BitVec 2) (l : BitVec 6) (s : State) : Out :=
  fire (.srseed p d l) s (fun _ x s => if x.lp then trapPoison .special else .done (addAct s x.slot 0 (.srseed d l (x.l.setWidth 32))) none)


/-- FADD (R100). -/
def execFadd (p : BitVec 2) (m : BitVec 3) (b : BitVec 7) (a : BitVec 7) (s : State) : Out :=
  fireF2 (.fadd p m b a) s (on2 (fAdd m))

/-- FSUB (R100). -/
def execFsub (p : BitVec 2) (m : BitVec 3) (b : BitVec 7) (a : BitVec 7) (s : State) : Out :=
  fireF2 (.fsub p m b a) s (on2 (fSub m))

/-- FMUL (R100). -/
def execFmul (p : BitVec 2) (m : BitVec 3) (b : BitVec 7) (a : BitVec 7) (s : State) : Out :=
  fireF2 (.fmul p m b a) s (on2 (fMul m))

/-- FDIV (R100). -/
def execFdiv (p : BitVec 2) (m : BitVec 3) (b : BitVec 7) (a : BitVec 7) (s : State) : Out :=
  fireF2 (.fdiv p m b a) s (on2 (fDiv m))

/-- FSQRT (R100). -/
def execFsqrt (p : BitVec 2) (m : BitVec 3) (b : BitVec 7) (a : BitVec 7) (s : State) : Out :=
  fireF1 (.fsqrt p m b a) s (on1 (fSqrt m))

/-- FRND (R100). -/
def execFrnd (p : BitVec 2) (m : BitVec 3) (b : BitVec 7) (a : BitVec 7) (s : State) : Out :=
  fireF1 (.frnd p m b a) s (on1 (fRnd m))

/-- FEXP2 (R100). -/
def execFexp2 (p : BitVec 2) (m : BitVec 3) (b : BitVec 7) (a : BitVec 7) (s : State) : Out :=
  fireF1 (.fexp2 p m b a) s (on1 (fExp2 m))

/-- FLOG2 (R100). -/
def execFlog2 (p : BitVec 2) (m : BitVec 3) (b : BitVec 7) (a : BitVec 7) (s : State) : Out :=
  fireF1 (.flog2 p m b a) s (on1 (fLog2 m))

/-- FMIN (R101). -/
def execFmin (p : BitVec 2) (b : BitVec 7) (a : BitVec 7) (s : State) : Out :=
  fireF2 (.fmin p b a) s (on2 (fMinMax false))

/-- FMAX (R101). -/
def execFmax (p : BitVec 2) (b : BitVec 7) (a : BitVec 7) (s : State) : Out :=
  fireF2 (.fmax p b a) s (on2 (fMinMax true))

/-- FABS (R99). -/
def execFabs (p : BitVec 2) (b : BitVec 7) (a : BitVec 7) (s : State) : Out :=
  fireF1 (.fabs p b a) s (fun x => (word32 (f32Of x &&& 0x7FFFFFFF), 0))

/-- FNEG (R99). -/
def execFneg (p : BitVec 2) (b : BitVec 7) (a : BitVec 7) (s : State) : Out :=
  fireF1 (.fneg p b a) s (fun x => (word32 (f32Of x ^^^ 0x80000000), 0))

/-- FTEQ (R102). -/
def execFteq (p : BitVec 2) (b : BitVec 7) (a : BitVec 7) (s : State) : Out :=
  fireF2 (.fteq p b a) s (onT 0)

/-- FTLT (R102). -/
def execFtlt (p : BitVec 2) (b : BitVec 7) (a : BitVec 7) (s : State) : Out :=
  fireF2 (.ftlt p b a) s (onT 1)

/-- FTLE (R102). -/
def execFtle (p : BitVec 2) (b : BitVec 7) (a : BitVec 7) (s : State) : Out :=
  fireF2 (.ftle p b a) s (onT 2)

/-- FTUN (R102). -/
def execFtun (p : BitVec 2) (b : BitVec 7) (a : BitVec 7) (s : State) : Out :=
  fireF2 (.ftun p b a) s (onT 3)

/-- FCLASS (R102). -/
def execFclass (p : BitVec 2) (b : BitVec 7) (a : BitVec 7) (s : State) : Out :=
  fireF1 (.fclass p b a) s (fun x => (BitVec.ofNat 64 (fClass (f32Of x)), 0))

/-- FFMA (R103). -/
def execFfma (m : BitVec 3) (b : BitVec 7) (a : BitVec 7) (s : State) : Out :=
  fireF3 (.ffma m b a) s (on3 (fFma m))

/-- CVTFI_W (R104). -/
def execCvtfiW (p : BitVec 2) (m : BitVec 3) (b : BitVec 7) (a : BitVec 7) (s : State) : Out :=
  fireF1 (.cvtfiW p m b a) s (onFI 32 (-2 ^ 31) (2 ^ 31 - 1) m)

/-- CVTFI_W_U (R104). -/
def execCvtfiWU (p : BitVec 2) (m : BitVec 3) (b : BitVec 7) (a : BitVec 7) (s : State) : Out :=
  fireF1 (.cvtfiWU p m b a) s (onFI 32 0 (2 ^ 32 - 1) m)

/-- CVTFI_D (R104). -/
def execCvtfiD (p : BitVec 2) (m : BitVec 3) (b : BitVec 7) (a : BitVec 7) (s : State) : Out :=
  fireF1 (.cvtfiD p m b a) s (onFI 64 (-2 ^ 63) (2 ^ 63 - 1) m)

/-- CVTFI_D_U (R104). -/
def execCvtfiDU (p : BitVec 2) (m : BitVec 3) (b : BitVec 7) (a : BitVec 7) (s : State) : Out :=
  fireF1 (.cvtfiDU p m b a) s (onFI 64 0 (2 ^ 64 - 1) m)

/-- CVTIF_W (R105). -/
def execCvtifW (p : BitVec 2) (m : BitVec 3) (b : BitVec 7) (a : BitVec 7) (s : State) : Out :=
  fireF1 (.cvtifW p m b a) s (fun x => onIF (x.setWidth 32).toInt m)

/-- CVTIF_W_U (R105). -/
def execCvtifWU (p : BitVec 2) (m : BitVec 3) (b : BitVec 7) (a : BitVec 7) (s : State) : Out :=
  fireF1 (.cvtifWU p m b a) s (fun x => onIF ((x.setWidth 32).toNat : Int) m)

/-- CVTIF_D (R105). -/
def execCvtifD (p : BitVec 2) (m : BitVec 3) (b : BitVec 7) (a : BitVec 7) (s : State) : Out :=
  fireF1 (.cvtifD p m b a) s (fun x => onIF x.toInt m)

/-- CVTIF_D_U (R105). -/
def execCvtifDU (p : BitVec 2) (m : BitVec 3) (b : BitVec 7) (a : BitVec 7) (s : State) : Out :=
  fireF1 (.cvtifDU p m b a) s (fun x => onIF (x.toNat : Int) m)

/-- CVTFF_H (R106). -/
def execCvtffH (p : BitVec 2) (m : BitVec 3) (b : BitVec 7) (a : BitVec 7) (s : State) : Out :=
  fireF1 (.cvtffH p m b a) s (onFF fp16 m)

/-- CVTFF_BF (R106). -/
def execCvtffBf (p : BitVec 2) (m : BitVec 3) (b : BitVec 7) (a : BitVec 7) (s : State) : Out :=
  fireF1 (.cvtffBf p m b a) s (onFF bf16 m)

/-- CVTFF_F_H (R106). -/
def execCvtffFH (p : BitVec 2) (b : BitVec 7) (a : BitVec 7) (s : State) : Out :=
  fireF1 (.cvtffFH p b a) s (onWiden fp16)

/-- CVTFF_F_BF (R106). -/
def execCvtffFBf (p : BitVec 2) (b : BitVec 7) (a : BitVec 7) (s : State) : Out :=
  fireF1 (.cvtffFBf p b a) s (onWiden bf16)

/-- CVTQ8 (R41, R109). -/
def execCvtq8 (p : BitVec 2) (m : BitVec 3) (d : BitVec 2) (t : BitVec 3) (b : BitVec 7) (a : BitVec 7) (s : State) : Out :=
  cvtqOp (.cvtq8 p m d t b a) s (if t = 0 then 3 else if t = 1 then 4 else if t = 2 then 8 else 9) d m

/-- CVTQ6 (R41, R109). -/
def execCvtq6 (p : BitVec 2) (m : BitVec 3) (d : BitVec 2) (t : BitVec 3) (b : BitVec 7) (a : BitVec 7) (s : State) : Out :=
  cvtqOp (.cvtq6 p m d t b a) s (if t = 0 then 5 else 6) d m

/-- CVTQ4 (R41, R109). -/
def execCvtq4 (p : BitVec 2) (m : BitVec 3) (d : BitVec 2) (t : BitVec 3) (b : BitVec 7) (a : BitVec 7) (s : State) : Out :=
  cvtqOp (.cvtq4 p m d t b a) s (if t = 0 then 7 else 0xA) d m


end Sys2Proof.Machine
end

