-- ==== Sys2Proof/Machine/Commit.lean ====
section
/-!
DEFINITION. The commit of a block (R68), the end of an invocation (R236, R371), the slots and credits it gives back (R139, R276), and the
traps of time (R70, R142, R237).
-/

namespace Sys2Proof.Machine

open Sys2Proof

/-- Changes the channel-side state of the focus tile. -/
def State.modCh (s : State) (f : Chans → Chans) : State := { s with core := { s.core with ch := f s.core.ch } }

/-- The region of compute tile t, if one is configured there: its key, partition x 256 + region number (R268). -/
def State.regionKey (s : State) (t : Nat) : Option Nat :=
  match s.tile? t with
  | none => none
  | some c => c.sys.part.map (fun p => p * 256 + c.sys.region.toNat)

def State.regionOf (s : State) (t : Nat) : Option Region :=
  match s.regionKey t with
  | none => none
  | some k => mget s.regions k

-- Slots, credits and tokens

/-- The place of a channel in the interval counts of R400: outputs by 8 act + k, inputs after 2^20. -/
def countKey (inp : Bool) (c : Nat) (rin : BitVec 32) : Nat := ((if inp then 2 ^ 20 else 0) + c) * 2 ^ 32 + rin.toNat

/-- Counts one token of a data kind (R400). -/
def countTok (m : Map (Nat × Nat)) (inp : Bool) (c : Nat) (t : Token) : Map (Nat × Nat) :=
  if t.kind.getLsbD 3 then m
  else
    let k := countKey inp c t.rin
    mset m k ((mgetD m k (0, 0)).1 + 1, 0)

/-- The host port through which the device reads and writes a queue (R437). -/
def State.queuePort (s : State) (q : Nat) : Nat := ((mget s.queues q).map (fun x => (x.ctl.extractLsb' 2 2).toNat)).getD 0

/-- A channel by its consumer's end, as the interval counts of R400 name it; a contributor's channel to a collective unit by its tile too. -/
def Dest.code (d : Dest) (tile : Nat) : Nat :=
  match d with
  | .chan t c => t * 64 + c.toNat
  | .hostOut q => 2 ^ 32 + q
  | .shore n k => 2 ^ 33 + n * 1024 + k
  | .coll p key => 2 ^ 34 + (p * 0x10000 + tile) * 4096 + key

/-- The code of a channel for its sender, no tile: another than the consumer's where neither end is a tile. -/
def Dest.sentCode (d : Dest) : Nat :=
  match d with
  | .chan _ _ => d.code 0
  | _ => 2 ^ 48 + d.code 0

/-- Counts a token of a data kind that an agent other than a tile sends or receives (R400). -/
def tallyTok (s : State) (p code : Nat) (t : Token) : State :=
  if t.kind.getLsbD 3 then s
  else { s with parts := mmod s.parts p (fun q => { q with tally := mset q.tally (code * 2 ^ 32 + t.rin.toNat) (mgetD q.tally (code * 2 ^ 32 + t.rin.toNat) 0 + 1) }) }

/-- Sends a token over an output port's channel from agent src (R264, R277). -/
def sendOver (s : State) (src : Nat) (org : Origin) (d : Dest) (pos : Nat) (t : Token) : State :=
  let s := if 0x10000 ≤ src then tallyTok s org.part d.sentCode t else s
  match d with
  | .chan tile c => s.send src tile org (.token c pos { t with ch := c })
  | .hostOut q => s.send src (hostIf (s.queuePort q)) org (.hostTok q t)
  | .shore n k => s.send src (shoreIf n) org (.shoreTok (4 * org.part + k) t)
  | .coll p key => s.send src (fjIf p) org (.collTok key t)

/-- A token of the focus tile's actor leaves on output k; its credit has been taken (R137, R139). -/
def emit (s : State) (org : Origin) (act : Nat) (k : BitVec 3) (t : Token) : State :=
  let key := act * 8 + k.toNat
  match mget s.core.ch.outs key with
  | none => s
  | some o =>
    let s := s.modCh (fun c => { c with outs := mset c.outs key { o with pos := o.pos + 1 }, counts := countTok c.counts false key t })
    sendOver s s.cur org o.dest o.pos t

/-- The slots of a channel that hold a token: queued, or retained by an invocation. A TIDE needs none (R276). -/
def InChan.used (i : InChan) : Nat := (i.queue.filter (fun x => x.2.kind != 9)).length + i.taken

/-- Queues tokens in a channel. Those of a channel that a barrier object feeds wait at the tile's interface while no slot is free (R260, R276). -/
def InChan.put (i : InChan) (l : List (Nat × Token)) : InChan :=
  match i.src with
  | .object _ => { i with queue := i.queue ++ (i.late ++ l).take (i.cap - i.used), late := (i.late ++ l).drop (i.cap - i.used) }
  | _ => { i with queue := i.queue ++ l }

/-- Returns the credit of a slot of input channel c of the focus tile to the channel's producer (R276); a trap channel's pool keeps it here
(R456). -/
def returnCredit (s : State) (c : Nat) : State :=
  match mget s.core.ch.ins c with
  | none => s
  | some i =>
    let org : Origin := s.origin 0 0
    match i.src with
    | .port t act k => s.send s.cur t org (.credit act k)
    | .border t b => s.send s.cur t org (.borderCredit b)
    | .hostIn _ q => s.send s.cur (hostIf (s.queuePort q)) org (.creditTo i.src)
    | .shore n _ => s.send s.cur (shoreIf n) org (.creditTo i.src)
    | .coll p _ => s.send s.cur (fjIf p) org (.creditTo i.src)
    | .object _ => s.modCh (fun ch => { ch with ins := mset ch.ins c (i.put []) })
    | .trap =>
      (match i.asks with
      | [] => s.modCh (fun ch => { ch with ins := mset ch.ins c { i with trapFree := i.trapFree + 1 } })
      | a :: r => (s.modCh (fun ch => { ch with ins := mset ch.ins c { i with asks := r } })).send s.cur a org .trapGrant)

/-- Frees the slot of a retained token: the channel's credit goes back, except on a legacy arc (R276, R281). -/
def freeSlot (s : State) (c : Nat) : State :=
  match mget s.core.ch.ins c with
  | none => s
  | some i =>
    let s := s.modCh (fun ch => { ch with ins := mset ch.ins c { i with taken := i.taken - 1 } })
    if i.legacy then s else returnCredit s c

/-- The acknowledgement of a legacy arc, which returns its producer's credit (R139, R236, R281). -/
def ackArc (s : State) (c : Nat) : State :=
  match (mget s.core.ch.ins c).map InChan.src with
  | some (.port p act k) => s.send s.cur p (s.origin 0 0) (.ack act k)
  | _ => returnCredit s c

/-- What the end of an invocation sends for a retained token (R236, R275, R281): the tag of a ret=1 channel, along the channel's credit path,
and the acknowledgement of an arc. -/
def endToken (s : State) (leg : Bool) (c : Nat) (t : Token) : State :=
  match mget s.core.ch.ins c with
  | none => s
  | some i =>
    let tag : BitVec 8 := ((t.words[0]?).getD 0).setWidth 8
    let s := if i.ret && decide (0 < t.len) then
        (match i.src with
        | .port p act _ => s.send s.cur p (s.origin 0 0) (.tret act tag)
        | .border p b => s.send s.cur p (s.origin 0 0) (.borderTret b tag)
        | _ => s)
      else s
    if leg then ackArc s c else s

/-- The level-0 invocation parked in the shadow copy returns to the window when level 1 leaves it (R55), in the same tile cycle (DESIGN CHOICE: the
manual names no cycle, log entry 156); an abandoned fetch starts again (R229). -/
def unpark (s : State) : State :=
  match s.core.l0.inv with
  | none => { s with core := { s.core with run := none } }
  | some i =>
    if i.frozen.isSome ∨ i.aborted then { s with core := { s.core with run := none } }
    else
      let s := { s with core := { s.core with run := some false } }
      match s.core.l0.fetch with
      | some f => startFetch s false f.addr
      | none => s

/-- Level hi leaves the window, if it holds it: a parked level 0 returns, or the window is free. -/
def leaveWindow (s : State) (hi : Bool) : State :=
  if s.core.run = some hi then (if hi then unpark s else { s with core := { s.core with run := none } }) else s

/-- The end of the invocation of level hi by HEND or EKILL (R236): its tag, slots, TRET and ACK go back, the masked window closes, and the
window is freed for the next cycle's decision. -/
def endInv (s : State) (hi : Bool) : State :=
  let l := s.core.level hi
  match l.inv with
  | none => s
  | some i =>
    let s := s.modCh (fun c => { c with held := c.held.filter (fun x => !(x.1 == i.act && x.2 == i.tag)) })
    let s : State := i.toks.foldl (fun s x => endToken (freeSlot s x.1) i.leg x.1 x.2) s
    let s := s.setLevel hi { s.core.level hi with inv := none, blk := none, fetch := none }
    let s := { s with core := { s.core with mwin := if hi then s.core.mwin else none, decided := true } }
    leaveWindow s hi

/-- Returns the tags that an uncommitted block took (R140, R371). -/
def returnTags (s : State) (act : Nat) (tags : List (BitVec 8)) : State :=
  s.modCh (fun c => { c with taga := c.taga.filter (fun x => !(x.1 == act && decide (x.2 ∈ tags))) })

/-- The handler of a level is aborted at the boundary before its block (R376): the block is discarded as EKILL discards one (R371), and the invocation
kept. -/
def discardBlock (s : State) (hi : Bool) : State :=
  let l := s.core.level hi
  match l.inv with
  | none => s
  | some i =>
    let s := match l.blk with
      | some b => returnTags (returnCredits s i.act b.creds) i.act b.tags
      | none => s
    s.setLevel hi { s.core.level hi with blk := none, fetch := none, inv := some { i with aborted := true, pendTrap := none } }

/-- The grace of the focus tile's region is over (R375 step 3). -/
def graceEnded (s : State) : Bool := ((s.regionOf s.cur).map Region.past).getD false

/-- A debug stop holds the commits of the focus tile. Pre-emption lifts it for the abort: a block that is to commit does so (R212, R376). -/
def debugHeld (s : State) : Bool := s.core.sys.stopped && !(graceEnded s)

-- The commit

/-- The commit effects that take part (R117, R166): those whose completion was delivered before the commit. -/
def liveActs (s : State) (b : Blk) : List Act := b.acts.filter (fun a => decide (a.ready = 0 ∨ a.ready < s.core.cyc))

/-- The buffered operations that take part, in commit order (R68, R116). Two stores of one LSID that have both fired are both performed (DESIGN
CHOICE, log entry 157). -/
def liveStores (s : State) (b : Blk) : List BufOp := (commitOrder b.stores).filter (fun a => decide (a.ready = 0 ∨ a.ready < s.core.cyc))

/-- The tile-store bytes that step 3 writes: ordinary stores to the tile store, and the records of QBLK, DQBLK and ECNT. -/
def localWrite (o : SOp) : Option (Nat × List Byte) :=
  match o with
  | .store a n d => (match addrClass a with
    | .store off => some (off, leBytes n d.toNat)
    | _ => none)
  | .record a bs => some (a.toNat, bs)
  | _ => none

/-- The queues of slot r in which an element will be decoded by an LDQ8 with table t, there or after it has lent a result its stamp (R151, R157). -/
def decodeKeys (r : RowSlot) (t : Nat) : List Nat :=
  let op (m : Nat) : Nat := laneOp (laneAt r.lanes m)
  let reads (m q : Nat) : Bool := decide (laneReads (op m) / 2 ^ q % 2 = 1) && laneSel (laneAt r.lanes m) q != 1
  let decodes (m q : Nat) : Bool :=
    let i := laneImm (laneAt r.lanes m)
    op m == 0x2A && q == 0 && decide (0xB ≤ i % 16) && decide (i / 16 % 4 = t)
  -- the first queue read that is no immediate gives the stamp; LJOIN reads one of A and B
  let stamps (m q : Nat) : Bool := reads m q && ((List.range q).all (fun p => !reads m p || (op m == 0x24 && decide (p = 0 ∧ q = 1))))
  (List.range 64).foldl (fun ks _ => (List.range 256).filter (fun k =>
    decodes (k / 4) (k % 4) || (stamps (k / 4) (k % 4) && (feeds r (k / 4) false ++ feeds r (k / 4) true).any (fun x => decide (x ∈ ks))))) []

/-- Decode table t's retained version is in use: a pass that latched it has not ended, or an element stamped with it that an LDQ8 will decode is in
the row array (R339). -/
def retainedInUse (c : CTile) (t : Nat) : Bool :=
  match c.tables[t]? with
  | none => false
  | some d =>
    d.old.isSome && (c.mx.queue.any (fun o => isPass o.kind && o.began.isSome && o.table.toNat == t && o.ver == d.oldVer) ||
      c.row.slots.any (fun r => r.queues.any (fun q => q.2.any (fun e => (e.ver[t]?).getD 0 == d.oldVer) && decide (q.1 ∈ decodeKeys r t)) ||
        r.fly.any (fun f => (f.2.2.ver[t]?).getD 0 == d.oldVer && decide (f.2.1 ∈ decodeKeys r t))))

/-- Slot q is RUNNING and the block holds an effective RLD or RGO of it and no RSTOP (R165). -/
def rowWait (c : CTile) (acts : List Act) (q : Nat) : Bool :=
  (((c.row.slots[q]?).map (fun r => r.st == .running)).getD false) &&
    acts.any (fun a => match a.kind with
      | .rowLoad q' _ _ => q'.toNat == q
      | .rowGo q' _ => q'.toNat == q
      | _ => false) &&
    !(acts.any (fun a => match a.kind with
      | .rowStop q' => q'.toNat == q
      | _ => false))

/-- The matrix queue has no place for the block's operations (R178), or would hold those of three intervals (R179). -/
def mxWait (c : CTile) (i : BitVec 32) (acts : List Act) : Bool :=
  let n := (acts.filter (fun a => match a.kind with
    | .mx _ => true
    | _ => false)).length
  decide (0 < n) && (decide (8 < c.mx.queue.length + n) || decide (2 ≤ ((c.mx.queue.map (·.rin)).filter (fun r => r != i)).dedup.length))

/-- A stream port has no place for the block's bindings (R197). -/
def strmWait (c : CTile) (acts : List Act) : Bool :=
  (List.range 8).any (fun p =>
    let n := (acts.filter (fun a => match a.kind with
      | .strm q _ _ => q.toNat == p
      | _ => false)).length
    let q := (c.ports[p]?).getD Port.reset
    let places := (if q.active.isSome then 0 else 1) + (if q.pending.isSome then 0 else 1)
    decide (0 < n ∧ places < n))

/-- Why a block that meets R64 must wait in commit-wait (R68 step 1, R165, R178, R179, R190, R197, R202, R205, R339). row: only for a RUNNING
row slot (R376). -/
structure HoldBy where
  undo : Bool
  row : Bool
  other : Bool
  deriving DecidableEq, Repr

/-- What holds the commit of the block in the window. -/
def commitHold (s : State) (b : Blk) : HoldBy :=
  let c := s.core
  let acts := liveActs s b
  let i := (s.inv?.map Inv.rin).getD 0
  let lines := ((liveStores s b).filterMap (fun o => localWrite o.op)).flatMap (fun w => (partsOf w.1 w.2).map (fun l => l.1))
  let need := s.slotsNeeded s.cur i lines
  let copies := (acts.filter (fun a => match a.kind with
    | .copy _ _ _ _ _ _ => true
    | _ => false)).length
  { undo := decide (1024 < c.recov.slotsUsed + need ∧ 0 < need)
    row := (List.range 4).any (rowWait c acts)
    other := mxWait c i acts || strmWait c acts || decide (0 < copies ∧ 16 < c.copies.length + copies) ||
      acts.any (fun a => match a.kind with
        | .lutld t _ => retainedInUse c t.toNat
        | .aggo w g _ _ => decide (4 * w.toNat + g.toNat ∈ c.aggs) || acts.any (fun x => a.slot != x.slot && (match x.kind with
          | .aggo w' g' _ _ => w' == w && g' == g
          | _ => false))
        | _ => false) }

def HoldBy.any (h : HoldBy) : Bool := h.undo || h.row || h.other

/-- Writes a special register of the level at commit (R85, R86, R110). -/
def writeSpecial (l : Level) (n : BitVec 8) (v : Word) : Level :=
  if n = 0x09 then { l with seed := if v.setWidth 32 = (0 : BitVec 32) then 1 else v.setWidth 32 }
  else if n = 0x0A then { l with fpst := v.setWidth 6 }
  else if n = 0x0B then { l with link := v.setWidth 32 }
  else l

/-- The status bits of the block's QBLKs and DQBLKs that take part (R116, R258). -/
def actStatus (acts : List Act) : BitVec 6 :=
  acts.foldl (fun f a => match a.kind with
    | .status x => f ||| x
    | _ => f) 0

/-- Step 4 for the level: registers, MTS, status bits, the generator's advance, %link and %rstl (R68, R86, R110). -/
def commitLevel (l : Level) (b : Blk) (acts : List Act) : Level :=
  let regs := b.wregs.foldl (fun rs w => match w.2 with
    | some r => regSet rs w.1.toNat r
    | none => rs) l.regs
  let seedSet := acts.any (fun a => match a.kind with
    | .mts n _ => n == 0x09
    | _ => false)
  let l := { l with regs := regs, seed := if seedSet then l.seed else drawsAfter l.seed (slotDraws b.slots) }
  let sorted := (List.range 32).flatMap (fun k => acts.filter (fun a => a.slot == k))
  let l := sorted.foldl (fun l a => match a.kind with
    | .mts n v => writeSpecial l n v
    | .rstl x => { l with rstl := x }
    | _ => l) l
  let l := { l with fpst := l.fpst ||| b.fpst ||| actStatus acts }
  match b.exit with
  | some (.call _) => { l with link := b.addr + 16 + BitVec.ofNat 32 (16 * ((b.slots.length + 3) / 4)) }
  | _ => l

/-- Clears what an RLD or a fresh start leaves of a slot (R165). -/
def rowInstall (r : RowSlot) (d : BitVec 128) (ls : List Word) : RowSlot :=
  { RowSlot.reset with st := .loaded, desc := d, lanes := ls, last := r.last, ages := r.ages }

/-- The preloads of a slot's lanes (R151, R155): PRE elements of the immediate with tags 0 upward in queue A, stamped with the current version
of every decode table. -/
def rowPreload (r : RowSlot) (vers : List Nat) : Map (List RowElem) :=
  (List.range 64).foldl (fun m n =>
    let x := laneAt r.lanes n
    if lanePre x = 0 then m
    else mset m (4 * n) ((List.range (lanePre x)).map (fun k => ⟨laneImm32 x, false, BitVec.ofNat 16 k, vers⟩))) []

/-- Discards the residue of a slot that leaves RUNNING, results on their way among it; its ages return to 0 (R165, R331). The lanes remember
when they fired (R150). -/
def rowHalt (r : RowSlot) : RowSlot := { r with st := .loaded, queues := [], fly := [], accs := [], marks := [], ages := [0, 0, 0, 0], stall := 0, stallSent := false }

/-- The current version of every decode table (R151). -/
def tableVers (c : CTile) : List Nat := c.tables.map (fun t => t.ver)

/-- A step-4 effect on the row array, by kind (R165, R171). -/
def rowAct (vers : List Nat) (row : RowArray) (a : ActKind) : RowArray :=
  let at' (q : Nat) (f : RowSlot → RowSlot) : RowArray := { row with slots := row.slots.modify q f }
  match a with
  | .rowStop q => at' q.toNat (fun r => if r.st = .running then rowHalt r else r)
  | .rowLoad q d ls => at' q.toNat (fun r => rowInstall r d ls)
  | .rowGo q n => at' q.toNat (fun r =>
      if r.st = .loaded then
        { r with st := .running, queues := rowPreload r vers, fly := [], accs := [], marks := [], entries := 0, exits := 0,
                 allow := if n = 0 then none else some n.toNat, stall := 0, stallSent := false }
      else r)
  | .rowClr q m => at' q.toNat (fun r => { r with sticky := r.sticky &&& ~~~m })
  | _ => row

/-- The place of a row effect in the order RSTOP, RLD, RGO, RSTAT.clr (R171). -/
def rowRank (a : ActKind) : Option Nat :=
  match a with
  | .rowStop _ => some 0
  | .rowLoad _ _ _ => some 1
  | .rowGo _ _ => some 2
  | .rowClr _ _ => some 3
  | _ => none

/-- Of two LUTLDs of one table in a block the one of the higher slot is applied, and the version before the block is the one retained
(R117; the manual gives the two no order, notes/assumptions). DESIGN CHOICE. -/
def overridden (acts : List Act) (a : Act) : Bool :=
  match a.kind with
  | .lutld t _ => acts.any (fun x => decide (a.slot < x.slot) && (match x.kind with
    | .lutld t' _ => t' == t
    | _ => false))
  | _ => false

/-- The row effects of a block in their order. -/
def rowActs (acts : List Act) : List ActKind :=
  (List.range 4).flatMap (fun r => (List.range 32).flatMap (fun k =>
    (acts.filter (fun a => a.slot == k && rowRank a.kind == some r)).map (·.kind)))

/-- A named barrier arrives (R141): the local count, or the release of its line at step 5. -/
def barArrive (b : Barrier) : Barrier :=
  match b.line with
  | some _ => { b with a := b.a + 1, holds := false }
  | none => if b.a + 1 = b.e.toNat then { b with a := 0, g := b.g + 1 } else { b with a := b.a + 1 }

/-- A step-4 effect on the focus tile other than the row array's. The effects of a block take place in slot order, so that of two SRSEEDs of one
lane the higher slot's prevails (the manual gives the two no order, notes/assumptions). DESIGN CHOICE. -/
def tileAct (s : State) (i : Inv) (a : Act) : State :=
  let c := s.core
  match a.kind with
  | .srseed d lane v =>
    let gens := if d = 0 then (List.range 64).map (laneSeed v) else c.row.gens.set lane.toNat (if v = 0 then 1 else v)
    { s with core := { c with row := { c.row with gens := gens } } }
  | .lutld t tab =>
    let keep (b : Blk) : Blk := { b with tabs := if (mget b.tabs t.toNat).isSome then b.tabs else mset b.tabs t.toNat (((c.tables[t.toNat]?).map DecTable.cur).getD []) }
    { s with core := { c with tables := c.tables.modify t.toNat (fun x => ⟨tab, x.ver + 1, some x.cur, x.ver⟩)
                              l0 := { c.l0 with blk := c.l0.blk.map keep }, l1 := { c.l1 with blk := c.l1.blk.map keep } } }
  | .tagr t => s.modCh (fun ch => { ch with taga := ch.taga.filter (fun x => !(x.1 == i.act && x.2 == t)) })
  | .blocked n v =>
    s.modCh (fun ch => { ch with tasks := mmod ch.tasks n.toNat (fun e => if v then e ||| 16 else e &&& ~~~(16 : BitVec 128)) })
  | .barInit n e l =>
    let old := mgetD c.ch.barriers n.toNat ⟨0, 0, 0, none, false⟩
    let s := s.modCh (fun ch => { ch with barriers := mset ch.barriers n.toNat { old with e := e, a := 0, line := l, holds := l.isSome } })
    (match old.line with
    | some x => { s with agenda := s.agenda ++ [⟨s.cur, .barrierLineComplete, { Input.none with n := x.toNat }⟩] }
    | none => s)
  | .barArrive n =>
    let b := barArrive (mgetD c.ch.barriers n.toNat ⟨0, 0, 0, none, false⟩)
    let s := s.modCh (fun ch => { ch with barriers := mset ch.barriers n.toNat b })
    (match b.line with
    | some l => { s with agenda := s.agenda ++ [⟨s.cur, .barrierLineComplete, { Input.none with n := l.toNat }⟩] }
    | none => s)
  | .mwend => { s with core := { c with mwin := if s.lvl then c.mwin else none } }
  | .mattr b k =>
    let m : BitVec 4 := 1 <<< b.toNat
    { s with core := { c with mx := { c.mx with keep := if k then c.mx.keep ||| m else c.mx.keep &&& ~~~m } } }
  | .apdef n ws => { s with core := { c with aps := mset c.aps n.toNat ws } }
  | .mtsp n v =>
    let y := c.sys
    { s with core := { c with sys := if n = 1 then { y with dbgen := v.getLsbD 0 } else if n = 2 then { y with trapcnt := v.setWidth 32 }
                                     else if n = 3 then { y with stale := v.setWidth 32 } else y } }
  | .wdog v =>
    let w : Word := if v = 0 then 100000000 else if v.toNat < 1000 then 1000 else if 2 ^ 40 < v.toNat then BitVec.ofNat 64 (2 ^ 40) else v
    { s with core := { c with sys := { c.sys with wdlim := w } } }
  | _ => s

/-- An operation of step 5 that its tile remembers until it has been performed (R68, R134, R311): its slot, address and whether every scope
sees it only then. -/
structure OutOp where
  slot : Nat
  a : Word
  late : Bool
  deriving DecidableEq, Repr

/-- The operations that leave the tile or wait for the SC ring: everything but tokens and writes to the own tile store (R68). -/
def outOp (o : BufOp) : Option OutOp :=
  match o.op with
  | .store a _ _ => (match addrClass a with
    | .store _ => none
    | _ => some ⟨o.slot, a, false⟩)
  | .sto a _ => some ⟨o.slot, a, false⟩
  | .clro a _ => some ⟨o.slot, a, false⟩
  | .irst a _ => some ⟨o.slot, a, false⟩
  | .atom a _ _ _ => some ⟨o.slot, a, true⟩
  | .scst a _ => some ⟨o.slot, a, true⟩
  | _ => none

/-- Remembers an operation of the block under the next identity. -/
def noteOp (s : State) (o : OutOp) : State :=
  (s.modCh (fun c => { c with perf := c.perf ++ [⟨s.nextId, (s.inv?.map Inv.id).getD 0, o.late, o.a⟩] })).fresh

/-- A buffered operation of step 5 that is no token leaves for its home under the identity it is remembered by (R68). -/
def outbound (s : State) (id : Nat) (o : BufOp) : State :=
  let org := s.origin o.slot ((o.lsid.map BitVec.toNat).getD 0)
  let req (a : Word) (mk : Word → Payload) : State := s.requestAs id org a mk (fun c => .report c a)
  match o.op with
  | .store a n d => req a (fun b => .store b n d)
  | .sto a d => req a (fun b => .sto b d)
  | .clro a n => req a (fun b => .clro b n)
  | .irst a d => req a (fun b => .irst b d)
  | .atom a op dbl v => req a (fun b => .atomic b op dbl v none false)
  | .scst a d => s.modCh (fun c => { c with sc := c.sc ++ [⟨id, org, a, some d, false⟩] })
  | _ => s

/-- The operations a token waits for (R137): those of its release that have not yet been performed at its scope. ids: the operations of this
block by slot. -/
def tokenWaits (s : State) (inv : Nat) (ids : List (Nat × Nat)) (r : Option Release) : List Nat :=
  match r with
  | none => []
  | some r =>
    let mine := s.core.ch.perf.filter (fun p => if r.all then p.inv == inv else ids.any (fun x => x.2 == p.id && r.own.getLsbD x.1))
    (mine.filter (fun p => p.late || decide (2 ≤ r.scope.toNat))).map (·.id)

/-- Sends every token whose operations have been performed, each output's tokens in their order (R137). -/
def releaseToks (s : State) (q : List OutTok) (blocked : List (Nat × BitVec 3)) : State :=
  match q with
  | [] => s
  | t :: r =>
    if t.waits.any (fun w => s.core.ch.perf.any (fun p => p.id == w)) ∨ (t.act, t.k) ∈ blocked then releaseToks s r ((t.act, t.k) :: blocked)
    else
      let s := s.modCh (fun c => { c with outq := c.outq.erase t })
      releaseToks (emit s { s.origin 0 0 with act := t.act, rin := t.t.rin, tag := t.t.stag } t.act t.k t.t) r blocked

def State.pumpToks (s : State) : State := releaseToks s s.core.ch.outq []

/-- Hands a block's engine work to the engines (R190), in slot order. -/
def engineAct (s : State) (a : Act) : State :=
  let c := s.core
  let org := s.origin a.slot 0
  match a.kind with
  | .mx op =>
    let sig := match op with
      | .mdrain _ _ _ d _ => if d.getLsbD 35 then some (d.extractLsb' 32 3) else none
      | _ => none
    let o : MxOp := { id := s.nextId, kind := op, rin := org.rin, org := org, sig := sig, began := none, fade := 0, ver := 0, table := 0, staged := none,
                      bstVoid := false }
    { s.fresh with core := { c with mx := { c.mx with queue := c.mx.queue ++ [o] } } }
  | .strm p out ctl =>
    let b : Binding := { id := s.nextId, out := out, ap := (mget c.aps (ctl.toNat % 32)).getD [],
                         sig := if ctl.getLsbD 11 then some (ctl.extractLsb' 8 3) else none, org := org, moved := 0, wait := false, held := false }
    { s.fresh with core := { c with ports := c.ports.modify p.toNat (fun q =>
      if q.active.isNone then { q with active := some b, fault := false } else { q with pending := some b, fault := false }) } }
  | .copy sig b src dst len host =>
    let x : Copy := { id := s.nextId, src := src, dst := dst, len := len, sig := if sig then some b else none, host := host, org := org, moved := 0,
                      buf := [], wait := false, err := none, held := false }
    { s.fresh with core := { c with copies := c.copies ++ [x] } }
  | .agcfg w g d =>
    (match neighbour s.cur w.toNat with
    | some t => if s.live t then s.send s.cur t org (.agcfg g d w) else s.bounce org (.report .nodeDead (segAddr w d))
    | none => s.bounce org (.report .nodeDead (segAddr w d)))
  | .aggo w g l r =>
    let src := (mget c.aps (l.toNat % 32)).getD []
    let dst := (mget c.aps (l.toNat / 256 % 32)).getD []
    let sig : Option (BitVec 3) := if r.getLsbD 3 then some (r.extractLsb' 0 3) else none
    let s := { s with core := { c with aggs := (4 * w.toNat + g.toNat) :: c.aggs } }
    (match neighbour s.cur w.toNat with
    | some t => if s.live t then s.send s.cur t org (.aggo g w src dst sig) else s.bounce org (.aggoEnd g w sig (some .nodeDead))
    | none => s.bounce org (.aggoEnd g w sig (some .nodeDead)))
  | .coll k ctl => (s.modCh (fun ch => { ch with outq := ch.outq ++ [⟨org.act, k, mkToken s 3 1 [ctl] 0, []⟩] })).pumpToks
  | .answer kill h => s.send s.cur (h.toNat % 2 ^ 16) org (.answer kill h)
  | .halt ctl => s.send s.cur (ctl.toNat % 2 ^ 16) org (.halt (ctl.getLsbD 16))
  | .seal => s.askWave (c.sys.part.getD 64) false
  | _ => s

/-- Appends a trace record (R213, R377): 2,046 slots of 32 bytes after the 64-byte header. -/
def traceWrite (s : State) (p : Nat) (bs : List Byte) : State :=
  match mget s.parts p with
  | none => s
  | some q =>
    let n := mgetD q.rings 1 0
    let s := ctxWrite s q.mem (0x10000 + 32 * (2 + n % 2046)) bs
    let s := ctxWrite s q.mem 0x10000 (ringHeader 2046 (n + 1))
    s.modPart p (fun q => { q with rings := mset q.rings 1 (n + 1) })

/-- The system effects of step 5 that act on the partition or its regions (R213, R216, R217). -/
def systemAct (s : State) (a : Act) : State :=
  let p := s.core.sys.part.getD 64
  match a.kind with
  | .dbg v psn =>
    if s.core.sys.dbgen then
      traceWrite s p (leBytes 8 (s.core.time s.time) ++ leBytes 8 s.core.cyc ++ leBytes 8 v.toNat ++ leBytes 2 s.cur ++ leBytes 1 (if s.lvl then 1 else 0) ++
        leBytes 1 (if psn then 1 else 0) ++ leBytes 4 s.blkAddr.toNat)
    else s
  | .telm v => s.modPart p (fun q => { q with telmUndo := q.telmUndo ++ [((s.inv?.map Inv.rin).getD 0, q.telm, q.telmAt)], telm := v, telmAt := match v.toNat % 4 with
      | 1 => (s.time / 5 + v.toNat / 256 % 2 ^ 24) * 5
      | 2 => (s.time / 5 + 1) * 5
      | _ => 0 })
  | .cswp v =>
    (match s.regionOf s.cur with
    | none => s
    | some g =>
      let s := { s with images := mmod s.images g.img (fun m => { m with cswp := some (v.toNat / 256 % 256, (s.inv?.map Inv.rin).getD 0) }) }
      match s.regions.find? (fun x => x.2.img == g.img && x.2.index == v.toNat % 256 && x.2.st != .free && x.2.st != .suspended) with
      | none => s
      | some x =>
        { s with regions := mset s.regions x.1 { x.2 with causes := x.2.causes ++ [if v.getLsbD 16 then .cswpForce else .cswp] },
                 agenda := s.agenda ++ [⟨headIf, .preemptStart, { Input.none with n := x.1 }⟩] })
  | _ => s

/-- One buffered operation of step 5 in its turn, the ascending order of LSID and slot (R68, R137): a token leaves at once unless its release or
an earlier token of its output holds it back, any other operation leaves for its home. ids: the identities of the block's operations by slot. -/
def sendOut (s : State) (ids : List (Nat × Nat)) (o : BufOp) : State :=
  match o.op with
  | .token k t rel =>
    let org := s.origin o.slot 0
    (s.modCh (fun c => { c with outq := c.outq ++ [⟨org.act, k, t, tokenWaits s org.inv ids rel⟩] })).pumpToks
  | _ =>
    match ids.find? (fun x => x.1 == o.slot) with
    | some x => outbound s x.2 o
    | none => s

/-- Steps 2 to 5 of R68 for the block in the window. Within step 4 the instructions act in slot order: of two SRSEEDs of one lane the higher slot
prevails (DESIGN CHOICE, log entry 160). -/
def commitEffects (s : State) (hi : Bool) (i : Inv) (b : Blk) : State :=
  let acts := liveActs s b
  let stores := liveStores s b
  let s := stores.foldl (fun s o => match localWrite o.op with
    | some w => s.writeC s.cur w.1 w.2 i.rin
    | none => s) s
  let s := s.setLevel hi (commitLevel (s.core.level hi) b acts)
  let s := { s with core := { s.core with row := (rowActs acts).foldl (rowAct (tableVers s.core)) s.core.row } }
  let sorted := (List.range 32).flatMap (fun k => acts.filter (fun a => a.slot == k && !(overridden acts a)))
  let s := sorted.foldl (fun s a => tileAct s i a) s
  let ops := stores.filterMap outOp
  let ids := ops.mapIdx (fun n o => (o.slot, s.nextId + n))
  let s := ops.foldl noteOp s
  let s := (stores.foldl (fun s o => sendOut s ids o) s).pumpToks
  sorted.foldl (fun s a => systemAct (engineAct s a) a) s

/-- Step 6 (R68): the exit, which the debugger's history records (R78). A handler whose grace has ended is aborted at this boundary (R343, R376). -/
def commitExit (s : State) (hi : Bool) (i : Inv) (b : Blk) : State :=
  let s := { s with core := { s.core with decided := true, exits := (b.addr, b.exitNo) :: s.core.exits } }
  let ended := graceEnded s
  let go (a : BitVec 32) : State :=
    if ended then
      let s := s.setLevel hi { s.core.level hi with blk := none, fetch := none, inv := some { i with aborted := true } }
      (if hi then unpark s else { s with core := { s.core with run := none } })
    else startFetch s hi a
  match b.exit with
  | none => s
  | some (.jump a) => go a
  | some (.call a) => go a
  | some .hend => endInv s hi

/-- A home whose undo space holds a write counts the stall (R394). -/
def countStall (s : State) (p : Nat) : State := s.modPart p (fun q => { q with stall := q.stall + 1 })

/-- The commit of the block in the window, or its wait (R68). -/
def commitBlock (s : State) : State :=
  match s.core.run, s.inv?, s.blk? with
  | some hi, some i, some b =>
    let h := commitHold s b
    if h.any then
      let s := s.setBlk { b with phase := .commitWait }
      if h.undo ∧ b.phase = .committing then (countStall s (s.core.sys.part.getD 64)).askWave (s.core.sys.part.getD 64) true else s
    else commitExit (landDrains (commitEffects s hi i b) (!hi)) hi i b
  | _, _, _ => s

/-- BLOCK_COMMIT (R68). -/
def execBlockCommit (s : State) : Out :=
  match s.blk? with
  | some b => if b.phase = .committing ∧ debugHeld s = false then .next (commitBlock s) else .next s
  | none => .next s

/-- The block waits only for a RUNNING row slot after the end of grace, which no slot leaves any more (R376). -/
def rowStuck (s : State) (b : Blk) : Bool :=
  let h := commitHold s b
  graceEnded s && h.row && !h.undo && !h.other

/-- COMMIT_WAIT_RELEASE (R68): the block proceeds once undo space, queue room or slot state allows. After the end of grace one that waits only for a
RUNNING row slot is discarded (R343, R376). -/
def execCommitWaitRelease (s : State) : Out :=
  match s.blk?, s.core.run with
  | some b, some hi =>
    if b.phase = .commitWait ∧ b.pend = none ∧ debugHeld s = false then
      (if (commitHold s b).any = false then .next (commitBlock s)
       else if rowStuck s b then .next (leaveWindow (discardBlock s hi) hi) else .next s)
    else .next s
  | _, _ => .next s

-- Traps of time

/-- The lowest slot that has not fired and is not a predicated instruction whose predicate failed (R70). -/
def lowestUnfired (b : Blk) : Nat := ((List.range b.slots.length).find? (fun k => ((b.slots[k]?).map (fun sl => sl.st == .waiting)).getD false)).getD 0

/-- BLOCK_DEAD (R70). -/
def execBlockDead (s : State) : Out :=
  match s.blk? with
  | some b =>
    if 64 ≤ b.idle ∧ b.phase = .running ∧ b.trap.isNone then
      .next (takeTrap s ⟨lowestUnfired b, .blockDead, none, 0, 0, false, b.exit.isSome⟩)
    else .next s
  | none => .next s

/-- The lowest slot that has not fired (R142, R237). -/
def lowestNotFired (b : Blk) : Nat := (b.slots.findIdx? (fun sl => sl.st != .fired)).getD 0

/-- Raises a trap of time at the block in the window, or marks it for the block being fetched (R142, R237). -/
def timeTrap (s : State) (c : Cause) (detail : Word) : State :=
  match s.inv?, s.blk? with
  | some _, some b =>
    let t : PTrap := ⟨lowestNotFired b, c, none, 0, detail, false, false⟩
    if b.trap.isSome then s else takeTrap s ((lowerTrap b.pend (some t)).getD t)
  | some i, none => s.setInv { i with pendTrap := some c }
  | none, _ => s

/-- MWIN_OVERRUN (R142): the masked window has stayed open past its length; it closes and the level-0 invocation traps. -/
def execMwinOverrun (s : State) : Out :=
  match s.core.mwin with
  | some d =>
    if d ≤ s.core.cyc ∧ s.core.run = some false then .next (timeTrap { s with core := { s.core with mwin := none } } .mwinOverrun 0) else .next s
  | none => .next s

/-- WATCHDOG (R214, R237). -/
def execWatchdog (s : State) : Out :=
  match s.inv? with
  | some i =>
    if s.core.sys.wdlim.toNat < s.level.wdogNs ∧ i.frozen.isNone ∧ i.pendTrap.isNone then
      .next (timeTrap s .watchdog (BitVec.ofNat 64 s.level.wdogNs))
    else .next s
  | none => .next s

end Sys2Proof.Machine
end

