-- ==== Sys2Proof/Machine/Dispatcher.lean ====
section
/-!
DEFINITION. The task table and its tokens: arrival (R224, R226, R277), the dispatch decision (R228 to R233), credits and tags coming back
(R227, R276, R281), trap tokens on their way (R238, R456) and the supervisor's answers (R71, R210, R371, R372), HALT (R212).
-/

namespace Sys2Proof.Machine

open Sys2Proof

/-- Takes the oldest arrived message of the step's agent that ok accepts. -/
def takeMsg (s : State) (ok : Payload → Bool) : Option (Msg × State) :=
  let q := mgetD s.inbox s.agent []
  match q.find? (fun m => ok m.body) with
  | none => none
  | some m =>
    let r := q.erase m
    some (m, { s with inbox := if r.isEmpty then mdel s.inbox s.agent else mset s.inbox s.agent r })

-- Task-table fields (R225)

def taskV (e : BitVec 128) : Bool := e.getLsbD 7
def taskLvl (e : BitVec 128) : Bool := e.getLsbD 6
def taskPriv (e : BitVec 128) : Bool := e.getLsbD 5
def taskBlk (e : BitVec 128) : Bool := e.getLsbD 4
def taskMe (e : BitVec 128) : Bool := e.getLsbD 3
def taskLeg (e : BitVec 128) : Bool := e.getLsbD 2
def taskAct (e : BitVec 128) : Nat := (e.extractLsb' 58 6).toNat
def taskJoin (e : BitVec 128) : Bool := e.getLsbD 64
def taskPart (e : BitVec 128) : Nat := (e.extractLsb' 65 6).toNat
def taskEnt (e : BitVec 128) : BitVec 32 := (e.extractLsb' 83 15).setWidth 32 <<< 4
def taskMent (e : BitVec 128) : BitVec 32 := (e.extractLsb' 98 15).setWidth 32 <<< 4

/-- The kinds that the dispatcher consumes (R227, R273). -/
def dispatchable (t : Token) : Bool := t.kind == 0 || t.kind == 1 || t.kind == 2 || t.kind == 8

def isData (t : Token) : Bool := !(t.kind.getLsbD 3)
def isEos (t : Token) : Bool := t.kind == 8

/-- The head token of input channel c, when it may be dispatched. -/
def headTok (c : CTile) (n : Nat) : Option Token :=
  match mget c.ch.ins n with
  | none => none
  | some i => match i.queue with
    | [] => none
    | (_, t) :: _ => if dispatchable t then some t else none

/-- No invocation of the level is frozen, aborted or waiting for the window (R228, R384). -/
def levelOpen (c : CTile) (hi : Bool) : Bool := (c.level hi).inv.isNone || (c.run == some hi)

/-- A legacy actor holds the credit of every one of its output arcs (R281). -/
def arcsFree (c : CTile) (act : Nat) : Bool :=
  (List.range 8).all (fun k => match mget c.ch.outs (act * 8 + k) with
    | some o => decide (0 < o.credits)
    | none => true)

/-- R228: the entry of channel n is enabled; a joined pair through its lower channel. -/
def entryEnabled (c : CTile) (n : Nat) : Bool :=
  match mget c.ch.tasks n with
  | none => false
  | some e =>
    taskV e && !taskBlk e && (mget c.recov.aligned (taskAct e)).isNone && (headTok c n).isSome && levelOpen c (taskLvl e) &&
      ((poolOf e).2 != 0 && (lowestTag c (taskAct e) (poolOf e).1 (poolOf e).2).isSome) &&
      (!taskLeg e || arcsFree c (taskAct e)) &&
      (!taskJoin e ||
        (decide (n < taskPart e) && (headTok c (taskPart e)).isSome && !(((mget c.ch.tasks (taskPart e)).map taskBlk).getD true)))

/-- The channel a decision at a level takes: the lowest enabled one from the pointer upward, else from 0 (R230). -/
def pickEntry (c : CTile) (hi : Bool) : Option Nat :=
  let ok (n : Nat) : Bool := entryEnabled c n && (((mget c.ch.tasks n).map taskLvl) == some hi)
  match (List.range 64).find? (fun n => decide ((c.level hi).rr ≤ n) && ok n) with
  | some n => some n
  | none => (List.range 64).find? ok

/-- Dispatch goes on in the tile's region (R353, R363, R375). -/
def regionOpen (s : State) : Bool :=
  match s.regionOf s.cur with
  | none => true
  | some r => r.st == .run && !((r.move.map (fun m => m.src == s.cur || m.dst == s.cur)).getD false)

/-- The level of this cycle's decision, if one is made (R229, R384, R240). An invocation that waits for the window comes first. -/
def decisionLevel (s : State) : Option Bool :=
  let c := s.core
  if c.decided ∨ c.sys.stopped ∨ regionOpen s = false then none
  else
    let want1 := (c.l1.inv.any (fun i => i.frozen.isNone) && c.run != some true) || (pickEntry c true).isSome
    let want0 := (c.l0.inv.any (fun i => i.frozen.isNone) && c.run != some false) || (pickEntry c false).isSome
    match c.run with
    | none => if want1 then some true else if want0 then some false else none
    | some true => none
    | some false =>
      if want1 && c.mwin.isNone && !((c.l0.blk.map (fun b => b.phase == .committing)).getD false) then some true else none

/-- Takes the head token of channel n into the invocation's hands (R231); its slot stays taken. -/
def retain (c : CTile) (n : Nat) : CTile :=
  { c with ch := { c.ch with ins := mmod c.ch.ins n (fun i => { i with queue := i.queue.drop 1, taken := i.taken + 1 }) } }

/-- Discards the head token of channel n and frees its slot. -/
def dropHead (s : State) (n : Nat) : State :=
  let s := freeSlot { s with core := retain s.core n } n
  if ((mget s.core.ch.ins n).map InChan.legacy).getD false then ackArc s n else s

/-- The register that payload word k of a token loads (R58). -/
def wordReg (t : Token) (k : Nat) : Reg :=
  if k < t.len then ⟨(t.words[k]?).getD 0, t.psn.getLsbD k⟩ else ⟨0, false⟩

/-- The descriptor that g28 receives (R58, R231). -/
def descWord (t : Token) (n : Nat) (tag : BitVec 8) : Word :=
  BitVec.ofNat 64 (n + tag.toNat * 2 ^ 6 + t.kind.toNat * 2 ^ 14 + t.len * 2 ^ 18)

/-- Discards the head token of a channel that a mismatch drops: its slot is freed, on a legacy arc by the acknowledgement (R276, R281). -/
def dropFreed (s : State) (n : Nat) : State :=
  match mget s.core.ch.ins n with
  | none => s
  | some i => if i.legacy then ackArc s n else returnCredit s n

/-- What a queue keeps when its data tokens up to and including the first end of stream are discarded, and how many were; the last says whether
the end of stream was there. Tidemarks stay (R233, R278). -/
def cutUnmatched (q : List (Nat × Token)) : List (Nat × Token) × Nat × Bool :=
  match q with
  | [] => ([], 0, false)
  | x :: r =>
    if isEos x.2 then (r, 1, true)
    else
      let y := cutUnmatched r
      if x.2.kind = 9 then (x :: y.1, y.2) else (y.1, y.2.1 + 1, y.2.2)

/-- Discards the unmatched tokens of the longer channel up to and including its end of stream, which may be still to come (R233). -/
def dropUnmatched (s : State) (n : Nat) : State :=
  match mget s.core.ch.ins n with
  | none => s
  | some i =>
    let y := cutUnmatched (i.queue ++ i.late)
    let s := s.modCh (fun c => { c with ins := mset c.ins n ({ i with queue := [], late := [], discard := !y.2.2 }.put y.1) })
    (List.range y.2.1).foldl (fun s _ => dropFreed s n) s

/-- A joined pair meets end of stream against data with no mismatch entry (R233): a rollback, and in its replay the discard and a notice. -/
def mismatch (s : State) (hi : Bool) (n m : Nat) (tn : Token) : State :=
  let p := s.core.sys.part.getD 64
  let t : PTrap := ⟨0, .streamMismatch, none, BitVec.ofNat 32 n, 0, false, false⟩
  let words := trapWords (trapHandle s.cur false 0) t 0 true false 0
  let s := s.setLevel hi { s.core.level hi with rr := (n + 1) % 64 }
  let s := { s with core := { s.core with decided := true } }
  match raiseClassB s p .streamMismatch (s.cur * 64 + n) words (s.oldest p) with
  | some s' => s'
  | none =>
    let long := if isEos tn then m else n
    let short := if isEos tn then n else m
    let s := dropHead (dropUnmatched s long) short
    let s := s.modPart p (fun q => { q with mrep := q.mrep + 1 })
    tileNotice s .streamMismatch (BitVec.ofNat 32 n) 0

/-- The dispatch of channel n at level hi (R231, R232): tag, retained tokens, bank, specials and the fetch of its entry block. -/
def dispatchEntry (s : State) (hi : Bool) (n : Nat) (e : BitVec 128) (t : Token) (partner : Option (Nat × Token)) (ent : BitVec 32) : State :=
  let c := s.core
  match lowestTag c (taskAct e) (poolOf e).1 (poolOf e).2 with
  | none => s
  | some tag =>
    let c := retain c n
    let c := match partner with
      | some x => retain c x.1
      | none => c
    let entry := match partner with
      | some x => [wordReg t 0, wordReg t 1, wordReg x.2 0, wordReg x.2 1]
      | none => (List.range 4).map (wordReg t)
    let toks := (n, t) :: (match partner with
      | some x => [x]
      | none => [])
    let i : Inv := { id := s.nextId, chan := BitVec.ofNat 6 n, tag := tag, act := taskAct e, ent := ent, priv := taskPriv e, leg := taskLeg e,
                     desc := descWord t n tag, entry := entry, toks := toks, sealw := false, rin := c.recov.rin, frozen := none, aborted := false,
                     pendTrap := none }
    let l := { c.level hi with link := 0xFFFFFFFF, rstl := 0xFFFFFFFF, wdog := 0, inv := some i, blk := none, fetch := none, rr := (n + 1) % 64 }
    let c := { (c.setLevel hi l) with run := some hi, decided := true, ch := { c.ch with held := (taskAct e, tag) :: c.ch.held } }
    startFetch { s.fresh with core := c } hi ent

/-- This cycle's decision, if one is made (R229 to R233, R384). -/
def decideNow (s : State) : State :=
  match decisionLevel s with
  | none => s
  | some hi =>
    let l := s.core.level hi
    match l.inv with
    | some i =>
      -- an answered or aborted invocation takes the window (R71, R72, R384)
      let a := if i.aborted then (if l.rstl = 0xFFFFFFFF then i.ent else l.rstl) else (l.fetch.map (fun f => f.addr)).getD i.ent
      startFetch { s with core := { s.core with run := some hi, decided := true } } hi a
    | none =>
      match pickEntry s.core hi with
      | none => s
      | some n =>
        match mget s.core.ch.tasks n, headTok s.core n with
        | some e, some t =>
          if taskJoin e then
            match headTok s.core (taskPart e) with
            | none => s
            | some u =>
              if isEos t == isEos u then dispatchEntry s hi n e t (some (taskPart e, u)) (taskEnt e)
              else if taskMe e then dispatchEntry s hi n e t (some (taskPart e, u)) (taskMent e)
              else mismatch s hi n (taskPart e) t
          else dispatchEntry s hi n e t none (taskEnt e)
        | _, _ => s

/-- DISPATCH_DECISION (R229 to R233, R384). -/
def execDispatchDecision (s : State) : Out := .next (decideNow s)

/-- The actor and tag that this cycle's decision is about to take (R229, R234). -/
def dueTag (s : State) : Option (Nat × BitVec 8) :=
  match decisionLevel s with
  | none => none
  | some hi =>
    if (s.core.level hi).inv.isSome then none
    else match (pickEntry s.core hi).bind (mget s.core.ch.tasks) with
      | none => none
      | some e =>
        if taskJoin e && !taskMe e && (((pickEntry s.core hi).bind (headTok s.core)).map isEos != (headTok s.core (taskPart e)).map isEos) then none
        else (lowestTag s.core (taskAct e) (poolOf e).1 (poolOf e).2).map (fun g => (taskAct e, g))

/-- TAGA (R140): the lowest free tag that this cycle's decision does not take (R234). -/
def execTaga (p : BitVec 2) (a : BitVec 7) (s : State) : Out :=
  fire (.taga p a) s (fun _ _ s =>
    let pool := poolOf s.task
    let c := s.core
    let free : CTile := match dueTag s with
      | some x => { c with ch := { c.ch with held := x :: c.ch.held } }
      | none => c
    match (if s.task.getLsbD 2 then none else lowestTag free s.act pool.1 pool.2) with
    | none => .done s (some (.val (BitVec.ofInt 64 (-1)) false))
    | some t =>
      let s := { s with core := { s.core with ch := { s.core.ch with taga := (s.act, t) :: s.core.ch.taga } } }
      .done (s.modBlk (fun b => { b with tags := t :: b.tags })) (some (.val (t.setWidth 64) false)))

-- Tokens arriving

/-- The consumer of a border buffer of the focus tile is resident (R267). -/
def consumerHere (s : State) (n : Nat) (d : Dest) : Bool :=
  match d with
  | .chan t c => (s.tile? (s.aliasOf t)).any (fun x => x.sys.part.isSome && (mget x.ch.ins c.toNat).any (fun i => i.src == .border (s.homeOf s.cur) (BitVec.ofNat 6 n)))
  | _ => true

/-- The wave that a TIDE belongs to is under way. -/
def tideOpen (s : State) (t : Token) : Bool :=
  (mget s.parts (s.partOf s.cur)).any (fun q => q.wave.any (fun w => w.n == t.rin && !w.complete))

/-- The oldest token of a border buffer goes on while the consumer's phase is resident and the buffer holds a credit toward it (R267, R278). A TIDE
needs no credit; it is dropped where the consumer is not resident, or was not when the TIDE's wave passed (R405). -/
def pumpBorder (s : State) (n fuel : Nat) : State :=
  match fuel with
  | 0 => s
  | fuel + 1 =>
    match mget s.core.ch.ins n with
    | none => s
    | some i =>
      match i.border, i.queue with
      | some o, (_, t) :: r =>
        if t.kind = 9 then
          let s := s.modCh (fun c => { c with ins := mset c.ins n { i with queue := r } })
          if consumerHere s n o.dest = false ∨ tideOpen s t = false then pumpBorder s n fuel
          else pumpBorder (sendOver s s.cur { s.origin 0 0 with rin := t.rin } o.dest o.pos t) n fuel
        else if o.credits = 0 ∨ consumerHere s n o.dest = false then s
        else
          let s := s.modCh (fun c => { c with ins := mset c.ins n { i with queue := r, border := some { o with credits := o.credits - 1, pos := o.pos + 1 } } })
          pumpBorder (returnCredit (sendOver s s.cur { s.origin 0 0 with rin := t.rin } o.dest o.pos t) n) n fuel
      | _, _ => s

/-- The wave of partition p has an open cut that tile t has taken: its interval (R398, R400). -/
def openCut (s : State) (t : Nat) : Option (BitVec 32) :=
  match mget s.parts (s.partOf t) with
  | none => none
  | some q => match q.wave with
    | some w => if !w.complete && decide (t ∈ w.cutBy) then some w.n else none
    | none => none

/-- Appends a token that arrives after the tile's cut, on a channel that is not awaited, to the cut record (R398). -/
def carryLate (s : State) (n : Nat) (t : Token) : State :=
  match openCut s s.cur with
  | none => s
  | some k =>
    if later t.rin k then s
    else s.modPart (s.partOf s.cur) (fun q => { q with cuts := mmod q.cuts k.toNat (fun c => { c with tiles := mmod c.tiles s.cur (fun x =>
      { x with recov := { x.recov with carried := mset x.recov.carried n (mgetD x.recov.carried n [] ++ [(0, t)]) } }) }) })

/-- A token reaches input channel n of the focus tile (R224, R226, R233, R277, R396). -/
def acceptToken (s : State) (n : Nat) (t : Token) : State :=
  let valid := ((mget s.core.ch.tasks n).map taskV).getD false
  match mget s.core.ch.ins n with
  | none => tileNotice s .badChannel (BitVec.ofNat 32 n) 0
  | some i =>
    if !valid && i.border.isNone then
      let s := if t.kind = 9 then s else dropFreed s n
      tileNotice s .badChannel (BitVec.ofNat 32 n) 0
    else if t.kind = 9 then
      -- a tile that has passed the TIDE's interval was suspended when its wave began (R405)
      if i.border.isSome || (i.awaited && !(later s.core.recov.rin t.rin)) then
        let s := s.modCh (fun c => { c with ins := mset c.ins n { i with queue := i.queue ++ [(i.pos, t)] } })
        (if i.border.isSome then pumpBorder s n 600 else s)
      else s
    else
      let s := s.modCh (fun c => { c with counts := countTok c.counts true n t, ins := mset c.ins n { i with pos := i.pos + 1 } })
      if i.discard then
        let s := if isEos t then s.modCh (fun c => { c with ins := mmod c.ins n (fun i => { i with discard := false }) }) else s
        returnCredit s n
      else
        let s := if i.awaited then s else carryLate s n t
        let s := s.modCh (fun c => { c with ins := mmod c.ins n (fun i => i.put [(i.pos - 1, t)]) })
        if i.border.isSome then pumpBorder s n 600 else s

/-- What arrives in a cycle is not seen by the decision of that cycle, which comes first if it is still to be made (R229, R240). -/
def noteArrival (s : State) : State :=
  let s := decideNow s
  { s with core := { s.core with decided := true } }

/-- A token written by an interface for the focus tile: LAST with words w0 and w1 (R191, R293). -/
def lastToken (rin : BitVec 32) (stag : BitVec 8) (w0 w1 : Word) : Token :=
  { kind := 1, len := 2, words := [w0, w1, 0, 0], psn := 0, stag := stag, rin := rin, ch := 0 }

/-- Compute tile t takes trap tokens and their requests for channel c (R456): they wait at a tile that no phase has configured, and while the phase whose
trap channel it is is suspended. -/
def State.takesTraps (s : State) (t : Nat) (c : BitVec 6) : Bool :=
  let trap (x : CTile) : Bool := (mget x.ch.ins c.toNat).any (fun i => i.src == .trap)
  (s.tile? t).any (fun x => x.sys.part.isSome && (trap x || s.regions.all (fun g => g.2.saved.all (fun v => !((mget v.2.tiles t).any trap)))))

/-- TOKEN_ARRIVAL at a compute tile (R224, R226, R238, R277, R293, R456). -/
def tokenArrivalTile (s : State) : State :=
  match takeMsg s (fun b => match b with
    | .token _ _ _ => true
    | .trapToken c _ => s.takesTraps s.cur c
    | .segToken _ _ _ _ => true
    | _ => false) with
  | none => s
  | some (m, s) =>
    let s := noteArrival s
    match m.body with
    | .token c _ t => acceptToken s c.toNat t
    | .segToken c _ w0 w1 => acceptToken s c.toNat { lastToken m.org.rin 0 w0 w1 with ch := c }
    | .trapToken c t =>
      (match mget s.core.ch.ins c.toNat with
      | some i =>
        if i.src = .trap then acceptToken s c.toNat { t with ch := c } else faultRecord s (s.core.sys.part.getD 64) t.words 4 t.rin
      | none => faultRecord s (s.core.sys.part.getD 64) t.words 4 t.rin)
    | _ => s

/-- TAG_RETURN_TOKEN (R227): the tag goes back to the pool if the actor holds it through TAGA; otherwise a BAD_TAG notice. A border buffer
passes it on along the channel's credit path (R275). -/
def execTagReturnToken (s : State) : Out :=
  match takeMsg s (fun b => match b with
    | .tret _ _ => true
    | .borderTret _ _ => true
    | _ => false) with
  | none => .next s
  | some (m, s) =>
    let s := noteArrival s
    match m.body with
    | .borderTret b tag =>
      (match (mget s.core.ch.ins b.toNat).map InChan.src with
      | some (.port p act _) => .next (s.send s.cur p (s.origin 0 0) (.tret act tag))
      | _ => .next s)
    | .tret act tag =>
      if (act, tag) ∈ s.core.ch.taga then
        .next (s.modCh (fun c => { c with taga := c.taga.filter (fun x => !(x.1 == act && x.2 == tag)) }))
      else .next (tileNotice s .badTag (tag.setWidth 32) 0)
    | _ => .next s

/-- LEGACY_ACK (R281): an arc's credit comes back. -/
def execLegacyAck (s : State) : Out :=
  match takeMsg s (fun b => match b with
    | .ack _ _ => true
    | _ => false) with
  | none => .next s
  | some (m, s) =>
    match m.body with
    | .ack act k => .next ((noteArrival s).modCh (fun c => { c with outs := mmod c.outs (act * 8 + k) (fun o => { o with credits := o.credits + 1 }) }))
    | _ => .next s

/-- The input channel is a border buffer toward tile t. -/
def buffers (t : Nat) (i : InChan) : Bool := i.border.any (fun o => match o.dest with
  | .chan u _ => u == t
  | _ => false)

/-- A credit more for a border buffer. -/
def addBorder (i : InChan) : InChan := { i with border := i.border.map (fun o => { o with credits := o.credits + 1 }) }

/-- The credit of a border buffer that stands in a saved context (R276, R278). -/
def savedCredit (v : Saved) (t b far : Nat) : Saved :=
  { v with tiles := mmod v.tiles t (fun c => { c with ch := { c.ch with ins := mmod c.ch.ins b (fun i => if buffers far i then addBorder i else i) } }) }

/-- The credit of a freed slot reaches a compute tile's output or border buffer, or the saved context of a phase that is not resident (R276, R278). -/
def creditReturnTile (s : State) : State :=
  match takeMsg s (fun b => match b with
    | .credit _ _ => true
    | .borderCredit _ => true
    | _ => false) with
  | none => s
  | some (m, s) =>
    match m.body with
    | .credit act k => s.modCh (fun c => { c with outs := mmod c.outs (act * 8 + k) (fun o => { o with credits := o.credits + 1 }) })
    | .borderCredit b =>
      if (mget s.core.ch.ins b.toNat).any (buffers (s.homeOf m.src)) then
        let s := s.modCh (fun c => { c with ins := mmod c.ins b.toNat addBorder })
        pumpBorder s b.toNat 600
      else { s with regions := s.regions.map (fun g => (g.1, { g.2 with saved := g.2.saved.map (fun v => (v.1, savedCredit v.2 s.cur b.toNat (s.homeOf m.src))) })) }
    | _ => s

-- Trap tokens on their way

/-- TRAP_CREDIT_REQUEST (R456): the supervisor's pool grants credits in the order in which the requests arrive. A channel that is no trap
channel grants at once: its token is discarded when it comes. At a tile that no phase has configured the request waits. -/
def execTrapCreditRequest (s : State) : Out :=
  match takeMsg s (fun b => match b with
    | .trapAsk c _ => s.takesTraps s.cur c
    | _ => false) with
  | none => .next s
  | some (m, s) =>
    match m.body with
    | .trapAsk c _ =>
      (match mget s.core.ch.ins c.toNat with
      | some i =>
        if i.src ≠ .trap then .next (s.send s.cur m.src m.org .trapGrant)
        else if i.trapFree = 0 then .next (s.modCh (fun ch => { ch with ins := mset ch.ins c.toNat { i with asks := i.asks ++ [m.src] } }))
        else .next ((s.modCh (fun ch => { ch with ins := mset ch.ins c.toNat { i with trapFree := i.trapFree - 1 } })).send s.cur m.src m.org .trapGrant)
      | none => .next (s.send s.cur m.src m.org .trapGrant))
    | _ => .next s

/-- The trap or notice queue of an agent (R238): a compute tile's, an M-tile's, or an interface's. -/
def noticesOf (s : State) (a : Nat) : List Notice :=
  if a = s.cur then s.core.ch.traps
  else if a < 0x10000 then (if isCTile a then (s.stored a).ch.traps else (s.mt a).notices)
  else if 0x10020 ≤ a ∧ a < 0x10050 then ((s.fjs[a - 0x10020]?).map FjPort.notices).getD []
  else (s.recv a).notices

def setNotices (s : State) (a : Nat) (q : List Notice) : State :=
  if a < 0x10000 then
    (if isCTile a then s.modTile a (fun c => { c with ch := { c.ch with traps := q } }) else s.setMt a { s.mt a with notices := q })
  else if 0x10020 ≤ a ∧ a < 0x10050 then { s with fjs := s.fjs.modify (a - 0x10020) (fun f => { f with notices := q }) }
  else s.setRecv a { s.recv a with notices := q }

/-- The supervisor that a trap token or notice goes to: %supv of the tile it names (R238). -/
def supvOf (s : State) (n : Notice) : BitVec 22 :=
  ((s.tile? (s.aliasOf (((n.words[0]?).getD 0).toNat % 2 ^ 16))).map (fun c => c.sys.supv)).getD 0xFFFF

/-- The partition of the tile that a trap token or notice names. -/
def noticePart (s : State) (n : Notice) : Nat := s.partOf (s.aliasOf (((n.words[0]?).getD 0).toNat % 2 ^ 16))

/-- TRAP_TOKEN_SEND (R238, R364, R456): the oldest entry of the queue asks its supervisor's pool for a credit, and leaves once it has one. -/
def execTrapTokenSend (s : State) : Out :=
  let a := s.agent
  match noticesOf s a with
  | [] => .next s
  | n :: r =>
    let sup := supvOf s n
    let org : Origin := { s.origin 0 0 with tile := a, part := noticePart s n, rin := n.rin }
    let dst := sup.toNat % 2 ^ 16
    let c : BitVec 6 := sup.extractLsb' 16 6
    match takeMsg s (fun b => match b with
      | .trapGrant => true
      | _ => false) with
    | some (_, s) =>
      let t : Token := { kind := 2, len := 4, words := n.words, psn := n.psn, stag := n.stag, rin := n.rin, ch := c }
      let s := setNotices s a r
      let s := if a < 0x10000 ∧ isCTile a then s.modTile a (fun x => { x with sys := { x.sys with trapcnt := x.sys.trapcnt + 1 } }) else s
      .next (s.send a dst org (.trapToken c t))
    | none =>
      if n.asked then .next s else .next ((setNotices s a ({ n with asked := true } :: r)).send a dst org (.trapAsk c n.lvl))

-- Answers

/-- ERES (R71): the frozen block's window state and store buffer are discarded and it is fetched again when the window is its own. EKILL
(R371): the invocation ends without a commit. -/
def answerInv (s : State) (hi kill : Bool) (i : Inv) : State :=
  let l := s.core.level hi
  let s := match l.blk with
    | some b => returnTags s i.act b.tags
    | none => s
  if kill then
    let s := endInv s hi
    (if hi && s.core.run == some true then unpark s else s)
  else
    let a := (l.blk.map (fun b => b.addr)).getD i.ent
    let s := s.setLevel hi { s.core.level hi with blk := none, fetch := some ⟨a, 0, true⟩, inv := some { i with frozen := none } }
    if s.core.run = some hi then startFetch s hi a else s

/-- The level whose frozen invocation an answer names (R210). -/
def frozenLevel (c : CTile) (h : Word) : Option Bool :=
  let hi := h.getLsbD 16
  if ((c.level hi).inv.any (fun i => i.frozen.isSome && i.tag == h.extractLsb' 24 8)) then some hi else none

/-- A handler of a level that an answer has let go on once grace is over is aborted at its block boundary (R376). -/
def abortThawed (s : State) (hi : Bool) : State :=
  let l := s.core.level hi
  match l.inv with
  | some i =>
    if (s.regionOf s.cur).any Region.past then leaveWindow (s.setLevel hi { l with blk := none, fetch := none, inv := some { i with aborted := true } }) hi
    else s
  | none => s

/-- An answer is applied to the focus tile (R210). -/
def applyAnswer (s : State) (kill : Bool) (h : Word) : State :=
  match frozenLevel s.core h with
  | some hi =>
    (match (s.core.level hi).inv with
    | some i => abortThawed (answerInv s hi kill i) hi
    | none => s)
  | none => { s with core := { s.core with sys := { s.core.sys with stale := s.core.sys.stale + 1 } } }

/-- The suspended phase with a frozen invocation of tile t that a handle names (R372): its region, and its number there. -/
def suspendedFor (s : State) (t : Nat) (h : Word) : Option (Nat × Nat) :=
  s.regions.findSome? (fun g => (g.2.saved.find? (fun v => ((mget v.2.tiles t).map (fun c => (frozenLevel c h).isSome)).getD false)).map (fun v => (g.1, v.1)))

/-- A region in SAVE holds an answer for the tile in focus, one for each handle; a later one counts in %stale (R210, R372). -/
def holdAnswer (s : State) (k : Nat) (kill : Bool) (h : Word) : State :=
  match mget s.regions k with
  | none => s
  | some r =>
    if r.answers.any (fun x => x.2.2 == h) then { s with core := { s.core with sys := { s.core.sys with stale := s.core.sys.stale + 1 } } }
    else reRecord { s with regions := mset s.regions k { r with answers := r.answers ++ [(s.cur, kill, h)] } } k

/-- The context of a suspended phase holds an answer for tile t, one for each handle; a later one counts in the saved %stale (R210, R372). -/
def Saved.hold (v : Saved) (t : Nat) (kill : Bool) (h : Word) : Saved :=
  if v.answers.any (fun x => x.2.2 == h) then { v with tiles := mmod v.tiles t (fun c => { c with sys := { c.sys with stale := c.sys.stale + 1 } }) }
  else { v with answers := v.answers ++ [(t, kill, h)] }

/-- Phase n of region k, suspended, holds an answer for tile t; it is stored in the tile's save slot (R372, R378). -/
def holdSaved (s : State) (k n t : Nat) (kill : Bool) (h : Word) : State :=
  let s := { s with regions := mmod s.regions k (fun r => { r with saved := mmod r.saved n (fun v => v.hold t kill h) }) }
  reRecord (writeSave s (k / 256) t) k

/-- TRAP_ANSWER_ARRIVAL (R210, R372): an answer to a region in SAVE, or to one that is suspended, is held. -/
def execTrapAnswerArrival (s : State) : Out :=
  match takeMsg s (fun b => match b with
    | .answer _ _ => true
    | _ => false) with
  | none => .next s
  | some (m, s) =>
    match m.body with
    | .answer kill h =>
      if (frozenLevel s.core h).isSome then
        (match s.regionKey s.cur, s.regionOf s.cur with
        | some k, some r => if r.st = .save then .next (holdAnswer s k kill h) else .next (applyAnswer s kill h)
        | _, _ => .next (applyAnswer s kill h))
      else match suspendedFor s s.cur h with
        | some x => .next (holdSaved s x.1 x.2 s.cur kill h)
        | none => .next (applyAnswer s kill h)
    | _ => .next s

/-- HALT_ARRIVAL (R212): the tile stops at the end of this cycle, or it is released, from a BRK stop as well. -/
def execHaltArrival (s : State) : Out :=
  match takeMsg s (fun b => match b with
    | .halt _ => true
    | _ => false) with
  | none => .next s
  | some (m, s) =>
    let y := s.core.sys
    match m.body with
    | .halt true => .next { s with core := { s.core with sys := { y with halted := false, brk := false, stopped := false } } }
    | .halt false => .next { s with core := { s.core with sys := { y with halted := true } } }
    | _ => .next s

end Sys2Proof.Machine
end

