-- ==== Sys2Proof/Machine/Replies.lean ====
section
/-!
DEFINITION. Replies to a compute tile: loads and returning atomics (R65, R66, R122, R123), reports after the commit (R67, R367), the SC ring
(R135, R136) and the named barrier lines (R141, R425).
-/

namespace Sys2Proof.Machine

open Sys2Proof

/-- Answers request m from the agent it was sent to: the answer bears the request's identity. A source 0x20000 (p + 1) + t is site t of the
module that Fjoith port p leads to (R307). -/
def State.answer (s : State) (m : Msg) (body : Payload) : State :=
  let r : Msg := ⟨m.id, m.dst, m.src, m.org, body⟩
  if 0x20000 ≤ m.src then
    { s with fjs := s.fjs.modify (m.src / 0x20000 - 1) (fun f => { f with wait := f.wait ++ [.msg 2 { r with dst := m.src % 0x20000 }] }) }
  else
  if m.src = m.dst then { s with inbox := mset s.inbox m.src (mgetD s.inbox m.src [] ++ [r]) } else { s with net := s.net ++ [r] }

/-- Does f with compute tile t in focus, then brings the focus back. -/
def State.onTile (s : State) (t : Nat) (f : State → State) : State := (f (s.focus t)).focus s.cur

/-- The home has done with the buffered operation of message m: its tile no longer waits for it, and tokens may leave (R137, R311). -/
def State.performed (s : State) (m : Msg) : State :=
  if 0x20000 ≤ m.src then s.answer m (.scAck none)
  else if isCTile m.org.tile && inField m.org.tile then
    s.onTile (s.aliasOf m.org.tile) (fun s => (s.modCh (fun c => { c with perf := c.perf.filter (fun p => p.id != m.id) })).pumpToks)
  else s

/-- The level of the focus tile whose block is owed reply id. -/
def owedLevel (c : CTile) (id : Nat) : Option Bool :=
  let has (l : Level) : Bool := (l.blk.map (fun b => b.owed.any (fun o => o.id == id))).getD false
  if has c.l1 then some true else if has c.l0 then some false else none

/-- A reply reaches its slot (R66, R122, R123): the value, or the error's trap, lands in this cycle, or once the least latency has passed (R125,
R130). A reply that no block is owed is discarded (R65). -/
def landReply (s : State) (id : Nat) (v : Owed → Word) (p : Bool) (err : Option Cause) : State :=
  match owedLevel s.core id with
  | none => s
  | some hi =>
    let l := s.core.level hi
    match l.blk with
    | none => s
    | some b =>
      match b.owed.find? (fun o => o.id == id) with
      | none => s
      | some o =>
        let b := { b with owed := b.owed.filter (fun x => x.id != id) }
        let d : Deliv := match err with
          | some c => ⟨max s.core.cyc o.due, o.slot, noT, noT, .null, 0, none, some ⟨o.slot, c, none, 0, o.a, false, false⟩⟩
          | none =>
            match wordInfo ((b.slots[o.slot]?).getD (emptySlot 0)).word with
            | some x => ⟨max s.core.cyc o.due, o.slot, x.2.t0, x.2.t1, .val (v o) p, o.anc ||| (if o.lsid.isSome then 1#32 <<< o.slot else 0), o.lsid, none⟩
            | none => ⟨max s.core.cyc o.due, o.slot, noT, noT, .null, 0, none, none⟩
        if s.core.cyc < o.due then s.setLevel hi { l with blk := some { b with fly := b.fly ++ [d] } }
        else
          let s := s.setLevel hi { l with blk := some (landDeliv b d) }
          if s.core.run = some hi then takePending s else s

/-- An SC operation of the focus tile has been performed: it leaves the queue and counts toward the 16 of this visit (R135). -/
def scDone (s : State) (id : Nat) : State :=
  if s.core.ch.sc.any (fun o => o.id == id) then
    s.modCh (fun c => { c with sc := c.sc.filter (fun o => o.id != id), scSpent := c.scSpent + 1 })
  else s

/-- LOAD_REPLY (R65, R70, R123, R124). -/
def execLoadReply (s : State) : Out :=
  match takeMsg s (fun b => match b with
    | .reply _ _ _ => true
    | _ => false) with
  | none => .next s
  | some (m, s) =>
    match m.body with
    | .reply v p err =>
      .next (landReply (scDone s m.id) m.id (fun o => loadVal o.sx o.size (leNat (fillBytes o.fwd (leBytes o.size v.toNat)))) p err)
    | _ => .next s

/-- ATOMIC_REPLY (R66, R130, R132): the old value is the result, and the LSID resolves. -/
def execAtomicReply (s : State) : Out :=
  match takeMsg s (fun b => match b with
    | .atomReply _ _ => true
    | _ => false) with
  | none => .next s
  | some (m, s) =>
    match m.body with
    | .atomReply v err => .next (landReply s m.id (fun _ => v) false err)
    | _ => .next s

/-- The class P trap token of a buffered operation (R67, R364, R367). -/
def reportNotice (s : State) (m : Msg) (cause : Cause) (a : Word) : State :=
  let o := m.org
  let t : PTrap := ⟨o.slot, cause, none, 0, a, false, false⟩
  queueTrap s ⟨trapWords (trapHandle s.cur o.lvl o.tag) t o.lsid true true o.blk, 0, o.tag, o.rin, none, false, false⟩

/-- POST_COMMIT_REPORT (R67, R123): detail is the address that the operation was given. -/
def execPostCommitReport (s : State) : Out :=
  match takeMsg s (fun b => match b with
    | .report _ _ => true
    | _ => false) with
  | none => .next s
  | some (m, s) =>
    match m.body with
    | .report cause a =>
      let a := ((s.core.ch.perf.find? (fun p => p.id == m.id)).map (fun p => p.a)).getD a
      .next (reportNotice (s.performed m) m cause a)
    | _ => .next s

-- The SC ring

/-- The compute tiles of a partition that the ring visits (R135): live ones of its rectangle. -/
def ringTile (s : State) (q : Partition) (t : Nat) : Bool :=
  isCTile t && s.live t && decide (q.ix0 ≤ (islandOf t).1 ∧ (islandOf t).1 ≤ q.ix1 ∧ q.iy0 ≤ (islandOf t).2 ∧ (islandOf t).2 ≤ q.iy1)

/-- The first tile of the ring from t upward. -/
def ringFrom (s : State) (q : Partition) (t fuel : Nat) : Option Nat :=
  match fuel with
  | 0 => none
  | fuel + 1 => if ringTile s q t then some t else ringFrom s q (t + 1) fuel

/-- The first tile of a partition's ring. -/
def ringFirst (s : State) (q : Partition) : Option Nat := ringFrom s q (tileId (4 * q.ix0) (4 * q.iy0)) (256 * 4 * (q.iy1 + 1 - q.iy0))

/-- The ring token is on its way to another module of the domain (R135). -/
def ringAway : Nat := 0x10000

/-- The Fjoith port that joins partition p to the next module of its ring (R135, R430): the least bound MOD above this module's, else the
least of all. -/
def ringPort (s : State) (p : Nat) : Option Nat :=
  let ports := (List.range 48).filter (fun k => match s.fjs[k]? with
    | some f => f.bind.getLsbD 63 && decide (f.bind.toNat % 64 = p)
    | none => false)
  let md (k : Nat) : Nat := ((s.fjs[k]?).map (fun f => f.bind.toNat / 2 ^ 48 % 256)).getD 0
  let pm (k : Nat) : Nat := ((s.fjs[k]?).map (fun f => f.bind.toNat / 2 ^ 40 % 256)).getD 0
  let least (l : List Nat) : Option Nat := l.foldl (fun b k => match b with
    | none => some k
    | some x => if pm k < pm x then some k else some x) none
  match least (ports.filter (fun k => decide (md k < pm k))) with
  | some k => some k
  | none => least ports

/-- A module of a lower MOD takes part in the ring of partition p. -/
def ringLower (s : State) (p : Nat) : Bool :=
  s.fjs.any (fun f => f.bind.getLsbD 63 && decide (f.bind.toNat % 64 = p ∧ f.bind.toNat / 2 ^ 40 % 256 < f.bind.toNat / 2 ^ 48 % 256))

/-- Where the ring token of partition p is when it is generated: at the first tile of the lowest MOD (R135). -/
def ringStart (s : State) (p : Nat) (q : Partition) : Nat := if ringLower s p then ringAway else (ringFirst s q).getD ringAway

/-- Passes the ring token on from tile t (R135): to the next live compute tile, after the last one to the next module or back to the first. -/
def passRing (s : State) (p : Nat) (q : Partition) (t : Nat) : State :=
  match ringFrom s q (t + 1) (tileId 131 (4 * q.iy1 + 3) - t) with
  | some n => s.modPart p (fun q => { q with ring := n })
  | none =>
    match ringPort s p with
    | some k => { s.modPart p (fun q => { q with ring := ringAway }) with fjs := s.fjs.modify k (fun f => { f with wait := f.wait ++ [.ring q.cur] }) }
    | none => s.modPart p (fun q => { q with ring := (ringFirst s q).getD ringAway })

/-- The SC operation that the tile performs next: committed SCSTs before SCLDs (R135). -/
def nextSc (c : CTile) : Option ScOp :=
  match c.ch.sc.find? (fun o => o.data.isSome) with
  | some o => some o
  | none => c.ch.sc.head?

/-- The focus tile, holding the ring token, performs one SC operation (R135, R136): in its own tile store at once, elsewhere by a request
whose answer it waits for. -/
def performSc (s : State) (o : ScOp) : State :=
  match addrClass o.a with
  | .store off =>
    (match o.data with
    | some d =>
      let s := s.writeC s.cur off (leBytes 8 d.toNat) o.org.rin
      (scDone (s.modCh (fun c => { c with perf := c.perf.filter (fun p => p.id != o.id) })) o.id).pumpToks
    | none =>
      let v : Word := BitVec.ofNat 64 (leNat (s.bytes (tileKey s.cur off) 8))
      let p := (s.isBad (tileKey s.cur off) 8).isSome
      let s := s.raiseBad (tileKey s.cur off) 8
      landReply (scDone s o.id) o.id (fun x => BitVec.ofNat 64 (leNat (fillBytes x.fwd (leBytes 8 v.toNat)))) p none)
  | _ =>
    let s := s.modCh (fun c => { c with sc := c.sc.map (fun x => if x.id = o.id then { x with sent := true } else x) })
    (match o.data with
    | some d => s.requestAs o.id o.org o.a (fun b => .scst b d) (fun c => .scAck (some c))
    | none => s.requestAs o.id o.org o.a (fun b => .scld b) (fun c => .reply 0 false (some c)))

/-- SC_RING_TOKEN (R135): the token at tile s.cur. One operation is performed, or the token goes on when the queue is empty, 16 operations
have been performed, or the tile has died. -/
def execScRingToken (s : State) : Out :=
  match s.parts.find? (fun q => q.2.ring == s.cur) with
  | none => .next s
  | some (p, q) =>
    if s.live s.cur = false then .next (passRing s p q s.cur)
    else if s.core.ch.sc.any (fun o => o.sent) then .next s
    else if 16 ≤ s.core.ch.scSpent then .next (passRing (s.modCh (fun c => { c with scSpent := 0 })) p q s.cur)
    else match nextSc s.core with
      | some o => .next (performSc s o)
      | none => .next (passRing (s.modCh (fun c => { c with scSpent := 0 })) p q s.cur)

/-- SCST_ACKNOWLEDGE (R135): the SCST has been performed under the ring token, or its home reports an error. -/
def execScstAcknowledge (s : State) : Out :=
  match takeMsg s (fun b => match b with
    | .scAck _ => true
    | _ => false) with
  | none => .next s
  | some (m, s) =>
    match m.body with
    | .scAck err =>
      let a := ((s.core.ch.perf.find? (fun p => p.id == m.id)).map (fun p => p.a)).getD 0
      let s := (scDone s m.id).performed m
      (match err with
      | some c => .next (reportNotice s m c a)
      | none => .next s)
    | _ => .next s

-- Barrier lines

/-- A barrier of the tile holds line l low; a dead site never does (R141, R426). -/
def holdsLine (c : CTile) (l : BitVec 3) : Bool := c.ch.barriers.any (fun b => b.2.line == some l && b.2.holds)

/-- Tile t, standing as c, lies in the region with a given key. -/
def inRegion (k : Nat) (c : CTile) : Bool := c.sys.part.map (fun p => p * 256 + c.sys.region.toNat) == some k

/-- The line has completed: each barrier bound to it increments G, resets A and holds the line again (R141). -/
def lineAgain (c : CTile) (l : BitVec 3) : CTile :=
  { c with ch := { c.ch with barriers := c.ch.barriers.map (fun b =>
      if b.2.line = some l then (b.1, { b.2 with g := b.2.g + 1, a := 0, holds := true }) else b) } }

/-- BARRIER_LINE_COMPLETE (R141, R425): line n of the region of the focus tile, once no live tile of the region holds it. -/
def execBarrierLineComplete (s : State) : Out :=
  let l : BitVec 3 := BitVec.ofNat 3 s.inp.n
  match s.regionKey s.cur with
  | none => .next s
  | some k =>
    if (inRegion k s.core && holdsLine s.core l && s.live s.cur) || s.tiles.any (fun x => inRegion k x.2 && holdsLine x.2 l && s.live x.1) then .next s
    else .next { s with core := lineAgain s.core l, tiles := s.tiles.map (fun x => if inRegion k x.2 then (x.1, lineAgain x.2 l) else x) }

end Sys2Proof.Machine
end

