-- ==== Sys2Proof/Machine/MTileOps.lean ====
section
/-!
DEFINITION. A memory tile: its segments and their modes (R203, R204, R291 to R295), the accesses it serves or holds (R292), the update unit
(R129 to R132), undo capture at its home (R391 to R394) and remote requests to a compute tile (R290).
-/

namespace Sys2Proof.Machine

open Sys2Proof

-- Ownership and errors

/-- The region that a site, or the tile that stands for it, is configured for, by key (R290, R422). -/
def State.siteRegion (s : State) (t : Nat) : Option Nat := if isCTile t then s.regionKey (s.aliasOf t) else (s.mt t).region

/-- R290: the requester's partition owns site t, and the phase resident there belongs to the requester's program image. -/
def ownsSite (s : State) (o : Origin) (t : Nat) : Bool :=
  match s.siteRegion t with
  | none => false
  | some k =>
    k / 256 == o.part && (match mget s.regions k, s.regionOf o.tile with
      | some a, some b => a.img == b.img
      | some _, none => inField o.tile == false
      | none, _ => false)

/-- Answers request m with an error, in the form its kind takes (R123). -/
def answerErr (s : State) (m : Msg) (c : Cause) : State :=
  match m.body with
  | .load _ _ => s.answer m (.reply 0 false (some c))
  | .ldo _ => s.answer m (.reply 0 false (some c))
  | .scld _ => s.answer m (.reply 0 false (some c))
  | .scst _ _ => s.answer m (.scAck (some c))
  | .atomic _ _ _ _ _ true => s.answer m (.atomReply 0 (some c))
  | .engRead e _ _ => s.answer m (.engData e [] false (some c))
  | .engWrite e _ bs => s.answer m (.engDone e bs.length (some c))
  | .aggo g w _ _ sig => s.answer m (.aggoEnd g w sig (some c))
  | .agcfg _ d w => s.answer m (.report c (segAddr w d))
  | _ => s.answer m (.report c 0)

/-- Answers request m with read data (R125): zero-extended, poisoned when the data has an uncorrectable error (R124, R368). -/
def answerData (s : State) (m : Msg) (bs : List Byte) (p : Bool) : State :=
  match m.body with
  | .engRead e _ _ => s.answer m (.engData e bs p none)
  | _ => s.answer m (.reply (BitVec.ofNat 64 (leNat bs)) p none)

/-- A write has been applied at its home: its sender hears of it in the form its kind takes. -/
def answerDone (s : State) (m : Msg) : State :=
  match m.body with
  | .scst _ _ => s.answer m (.scAck none)
  | .engWrite e _ bs => s.answer m (.engDone e bs.length none)
  | _ => s.performed m

/-- A detected uncorrectable error at byte k of agent a, met by a request of tile t (R124, R364, R406). -/
def raiseBad (s : State) (a t k : Nat) : State :=
  { s with agenda := s.agenda ++ [⟨a, .uncorrectable, { Input.none with addr := k, tile := t, flag := true }⟩] }

/-- Reads n bytes at key k at agent a for tile t; an uncorrectable error poisons them and is raised. -/
def readBytes (s : State) (a t k n : Nat) : List Byte × Bool × State :=
  match s.isBad k n with
  | none => (s.bytes k n, false, s)
  | some x => (s.bytes k n, true, raiseBad s a t x)

-- Undo capture at an M-tile

/-- Slots of an M-tile: 1,024 a unit (R391). -/
def MTile.slots (m : MTile) : Nat := 1024 * m.units
def MTile.slotsUsed (m : MTile) : Nat := m.undo.length + m.segUndo.length

/-- The partition of an M-tile. -/
def State.mPart (s : State) (t : Nat) : Nat := ((s.mt t).region.map (fun k => k / 256)).getD 64

/-- The presence bits of a line (R128). -/
def linePres (m : MTile) (line : Nat) : List Bool := (List.range 8).map (fun k => decide (8 * line + k ∈ m.pres))

/-- A write at the home of M-tile t, captured line by line (R392). once: the line lies in a ONCE segment, so that its presence bits are
captured with it. -/
def State.writeM (s : State) (t off : Nat) (bs : List Byte) (i : BitVec 32) (once : Bool) : State :=
  let ls := s.lsealed (s.mPart t)
  (partsOf off bs).foldl (fun s l =>
    let m := s.mt t
    let old := s.bytes (tileKey t (64 * l.1)) 64
    let u := captureLine ls i l.1 l.2.1 l.2.2 old (if once then linePres m l.1 else []) m.tags m.undo
    let s := (s.setMt t { m with tags := u.1, undo := u.2 }).puts (tileKey t (64 * l.1 + l.2.1)) l.2.2
    if decide (3 * (s.mt t).slots ≤ 4 * (s.mt t).slotsUsed) && (((mget s.parts (s.mPart t)).map Partition.pend) == some false) then
      s.askWave (s.mPart t) true
    else s) s

/-- Changes the state of segment k of an M-tile by a request of interval i: its first change in the interval captures the segment's state line in a
slot, a late one goes into the later copies as well (R392). -/
def changeSeg (m : MTile) (i : BitVec 32) (k : Nat) (f : Segment → Segment) : MTile :=
  let segs := m.segs.modify k f
  if m.segUndo.any (fun u => later u.1 i && u.2.1 == k) then
    { m with segs := segs, segUndo := m.segUndo.map (fun u => if later u.1 i && u.2.1 == k then (u.1, k, f u.2.2) else u) }
  else if m.segUndo.any (fun u => u.1 == i && u.2.1 == k) then { m with segs := segs }
  else { m with segUndo := m.segUndo ++ [(i, k, (m.segs[k]?).getD Segment.reset)], segs := segs }

/-- The presence bits of the given ONCE words become v by a request of interval i: a late one goes into the later slots as well (R128, R392). -/
def setPresence (m : MTile) (i : BitVec 32) (ws : List Nat) (v : Bool) : MTile :=
  { m with
    pres := if v then ws ++ m.pres else m.pres.filter (fun w => !decide (w ∈ ws))
    undo := m.undo.map (fun u => if later u.rin i then { u with pres := u.pres.mapIdx (fun k b => if 8 * u.line + k ∈ ws then v else b) } else u) }

/-- M-tile m has taken a slot that m0 did not hold, beyond those it has: the change must wait (R394). -/
def overSlots (m0 m : MTile) : Bool := decide (m0.slotsUsed < m.slotsUsed ∧ m0.slots < m.slotsUsed)

-- Segments

def Segment.lo' (g : Segment) : Nat := g.base * 65536
def Segment.bytes (g : Segment) : Nat := g.size * 65536

/-- The segment of an offset: one whose mode is not OFF (R204, R292). -/
def segOf (m : MTile) (off : Nat) : Option (Nat × Segment) :=
  (m.segs.mapIdx (fun k g => (k, g))).find? (fun x => x.2.mode != .off && decide (x.2.lo' ≤ off ∧ off < x.2.lo' + x.2.bytes))

/-- The bank of an offset (R291). -/
def bankOf (off : Nat) : Nat := off / 64 % 16

/-- The local offset and byte count of a request at an M-tile; none for one that names no bytes. -/
def reqRange (b : Payload) : Option (Nat × Nat) :=
  match b with
  | .load a n => some (a.toNat, n)
  | .ldo a => some (a.toNat, 8)
  | .scld a => some (a.toNat, 8)
  | .store a n _ => some (a.toNat, n)
  | .sto a _ => some (a.toNat, 8)
  | .scst a _ => some (a.toNat, 8)
  | .clro a n => some (a.toNat, 8 * n)
  | .atomic a _ d _ _ _ => some (a.toNat, if d then 8 else 4)
  | .engRead _ a n => some (a.toNat, n)
  | .engWrite _ a bs => some (a.toNat, bs.length)
  | _ => none

/-- The bytes a request writes; none for a read. -/
def reqData (b : Payload) : Option (List Byte) :=
  match b with
  | .store _ n d => some (leBytes n d.toNat)
  | .sto _ d => some (leBytes 8 d.toNat)
  | .scst _ d => some (leBytes 8 d.toNat)
  | .engWrite _ _ bs => some bs
  | _ => none

/-- What an M-tile does with a request: an answer is on its way, or the request must wait. -/
inductive Served where
  | ok (s : State)
  | hold (s : State)

def Served.state (r : Served) : State :=
  match r with
  | .ok s => s
  | .hold s => s

/-- The LAST token of a TSTORE buffer's change (R293). -/
def tstoreToken (s : State) (t : Nat) (g : Segment) (k size : Nat) (free : Bool) (org : Origin) : State :=
  if g.tok then
    s.send t g.cfgTile org (.segToken g.tch g.cfgAct (BitVec.ofNat 64 (0x400000 * (g.cfgWin.toNat + 1) + g.lo' + k * size))
      (BitVec.ofNat 64 (k + (if free then 256 else 0))))
  else s

/-- TSTORE (R293). A byte written again while its buffer is FREE does not count again. -/
def serveTstore (s : State) (t : Nat) (m : Msg) (k : Nat) (g : Segment) (off n : Nat) : Served :=
  let size := g.bytes / g.param / 64 * 64
  let b := (off - g.lo') / size
  let full := (g.full[b]?).getD false
  let here := (List.range n).map (fun i => off + i)
  let new := if full then [] else here.filter (fun x => !decide (x ∈ g.wrote))
  let cnt := (g.moved[b]?).getD 0 + (if full then n else new.length)
  let turn (s : State) (f : Bool) : State :=
    let done := decide (size ≤ cnt)
    let wrote := new ++ g.wrote
    let s := s.setMt t (changeSeg (s.mt t) m.org.rin k (fun g =>
      { g with full := if done then g.full.set b f else g.full, moved := g.moved.set b (if done then 0 else cnt),
               wrote := if done then wrote.filter (fun x => (x - g.lo') / size != b) else wrote }))
    if done then tstoreToken s t g b size (!f) m.org else s
  if size = 0 ∨ g.param ≤ b then .ok (answerErr s m .segmentMode)
  else match reqData m.body with
    | some bs => if full then .hold s else .ok (answerDone (turn (s.writeM t off bs m.org.rin false) true) m)
    | none =>
      if full then
        let r := readBytes s t m.org.tile (tileKey t off) n
        .ok (answerData (turn r.2.2 false) m r.1 r.2.1)
      else .hold s

/-- The FIFO requests of m's direction that were held before it (R294). -/
def fifoEarlier (held : List Msg) (m : Msg) (g : Segment) : Bool :=
  (held.takeWhile (fun x => x.id != m.id)).any (fun x => (reqData x.body).isSome == (reqData m.body).isSome && (match reqRange x.body with
    | some r => decide (g.lo' ≤ r.1 ∧ r.1 < g.lo' + g.bytes)
    | none => false))

/-- The offset of place i of a FIFO's byte queue. -/
def fifoAt (g : Segment) (i : Nat) : Nat := g.lo' + (g.head + i) % g.bytes

/-- FIFO (R294). -/
def serveFifo (s : State) (t : Nat) (m : Msg) (k : Nat) (g : Segment) (n : Nat) : Served :=
  if fifoEarlier (s.mt t).held m g then .hold s
  else match reqData m.body with
    | some bs =>
      if g.bytes < g.count + n then .hold s
      else
        let s := (bs.mapIdx (fun i b => (fifoAt g (g.count + i), b))).foldl (fun s x => s.writeM t x.1 [x.2] m.org.rin false) s
        .ok (answerDone (s.setMt t (changeSeg (s.mt t) m.org.rin k (fun g => { g with count := g.count + n }))) m)
    | none =>
      if g.count < n then .hold s
      else
        let r := (List.range n).foldl (fun (x : List Byte × Bool × State) i =>
          let y := readBytes x.2.2 t m.org.tile (tileKey t (fifoAt g i)) 1
          (x.1 ++ y.1, x.2.1 || y.2.1, y.2.2)) ([], false, s)
        let s := r.2.2
        .ok (answerData (s.setMt t (changeSeg (s.mt t) m.org.rin k (fun g => { g with head := (g.head + n) % g.bytes, count := g.count - n }))) m r.1 r.2.1)

/-- LINE (R295). -/
def serveLine (s : State) (t : Nat) (m : Msg) (k : Nat) (g : Segment) (off n : Nat) : Served :=
  let rows := g.bytes / g.rowlen
  let r := (off - g.lo') / g.rowlen
  let d := (r + rows - g.lo % rows) % rows
  let read (s : State) (g : Segment) : Served :=
    if mgetD g.rows r 0 < g.rowlen then .hold s
    else
      let x := readBytes s t m.org.tile (tileKey t off) n
      .ok (answerData x.2.2 m x.1 x.2.1)
  if g.rowlen = 0 ∨ rows ≤ r then .ok (answerErr s m .segmentMode)
  else match reqData m.body with
    | some bs =>
      if d < g.param then
        let s := s.writeM t off bs m.org.rin false
        .ok (answerDone (s.setMt t (changeSeg (s.mt t) m.org.rin k (fun g => { g with rows := mset g.rows r (mgetD g.rows r 0 + n) }))) m)
      else if d < rows - g.param then .hold s
      else .ok (answerErr s m .segmentMode)
    | none =>
      if d < g.param then read s g
      else if d < rows - g.param then
        let lo := (r + rows - g.param + 1) % rows
        let move (g : Segment) : Segment := { g with lo := lo, rows := g.rows.filter (fun x => decide ((x.1 + rows - lo) % rows < g.param)) }
        read (s.setMt t (changeSeg (s.mt t) m.org.rin k move)) (move g)
      else .ok (answerErr s m .segmentMode)

/-- The words of a byte range. -/
def wordsIn (off n : Nat) : List Nat := (List.range (n / 8 + 2)).filterMap (fun k => if 8 * (off / 8 + k) < off + n then some (off / 8 + k) else none)

/-- ONCE (R125 to R128, R318). -/
def serveOnce (s : State) (t : Nat) (m : Msg) (g : Segment) (off n : Nat) : Served :=
  let mt := s.mt t
  let has (w : Nat) : Bool := decide (w ∈ mt.pres)
  match m.body with
  | .ldo _ =>
    if has (off / 8) then
      let r := readBytes s t m.org.tile (tileKey t off) 8
      .ok (answerData r.2.2 m r.1 r.2.1)
    else .hold s
  | .clro _ _ =>
    if g.lo' + g.bytes < off + n then .ok (answerErr s m .segmentMode)
    else
      let s := s.writeM t off (List.replicate n 0) m.org.rin true
      .ok (answerDone (s.setMt t (setPresence (s.mt t) m.org.rin (wordsIn off n) false)) m)
  | .sto _ d =>
    if has (off / 8) then .ok (answerErr s m .onceDoubleWrite)
    else
      let s := s.writeM t off (leBytes 8 d.toNat) m.org.rin true
      .ok (answerDone (s.setMt t (setPresence (s.mt t) m.org.rin [off / 8] true)) m)
  | .store _ size d =>
    if has (off / 8) then .ok (answerErr s m .onceDoubleWrite)
    else
      let s := s.writeM t off (leBytes size d.toNat) m.org.rin true
      .ok (answerDone (s.setMt t (setPresence (s.mt t) m.org.rin [off / 8] true)) m)
  | _ =>
    match reqData m.body with
    | some bs =>
      let old := s.bytes (tileKey t off) n
      let new := bs.mapIdx (fun i b => if has ((off + i) / 8) then (old[i]?).getD 0 else b)
      let fresh := (wordsIn off n).filter (fun w => !has w)
      if fresh.isEmpty then .ok (answerDone s m)
      else
        let s := s.writeM t off new m.org.rin true
        .ok (answerDone (s.setMt t (setPresence (s.mt t) m.org.rin fresh true)) m)
    | none =>
      let r := readBytes s t m.org.tile (tileKey t off) n
      .ok (answerData r.2.2 m (r.1.mapIdx (fun i b => if has ((off + i) / 8) then b else 0)) r.2.1)

-- The update unit (R129 to R132)

/-- The new value of an n-bit location (R130). -/
def atomNew {n : Nat} (op : BitVec 4) (old v : BitVec n) : BitVec n :=
  match op.toNat with
  | 0 => old + v
  | 1 => old &&& v
  | 2 => old ||| v
  | 3 => old ^^^ v
  | 4 => opMin old v
  | 5 => opMax old v
  | 6 => opMinu old v
  | 7 => opMaxu old v
  | 8 => v
  | 9 => (fAdd 0 (old.setWidth 32) (v.setWidth 32)).1.setWidth n
  | 10 => (fMinMax false (old.setWidth 32) (v.setWidth 32)).1.setWidth n
  | 11 => (fMinMax true (old.setWidth 32) (v.setWidth 32)).1.setWidth n
  | _ => old

/-- The value written by an atomic on n bits: none when a CAS fails (R132). -/
def atomWrite (n : Nat) (op : BitVec 4) (old : Nat) (v : Word) (cas : Option Word) : Option Nat :=
  match cas with
  | some e => if old = e.toNat % 2 ^ n then some (v.toNat % 2 ^ n) else none
  | none => some (atomNew op (BitVec.ofNat n old) (v.setWidth n)).toNat

/-- The bytes of an atomic's location after it. -/
def atomBytes (op : BitVec 4) (dbl : Bool) (old : List Byte) (v : Word) (cas : Option Word) : Option (List Byte) :=
  (atomWrite (if dbl then 64 else 32) op (leNat old) v cas).map (leBytes (if dbl then 8 else 4))

/-- OWNER (R130, R292, R316). -/
def serveOwner (s : State) (t : Nat) (m : Msg) (off n : Nat) : Served :=
  match m.body with
  | .atomic _ op dbl v cas ret =>
    let r := readBytes s t m.org.tile (tileKey t off) n
    let s := match atomBytes op dbl r.1 v cas with
      | some bs => r.2.2.writeM t off bs m.org.rin false
      | none => r.2.2
    .ok (if ret then s.answer m (.atomReply (BitVec.ofNat 64 (leNat r.1)) none) else answerDone s m)
  | .ldo _ => .ok (answerErr s m .segmentMode)
  | .sto _ _ => .ok (answerErr s m .segmentMode)
  | .clro _ _ => .ok (answerErr s m .segmentMode)
  | _ =>
    match reqData m.body with
    | some bs => .ok (answerDone (s.writeM t off bs m.org.rin false) m)
    | none =>
      let r := readBytes s t m.org.tile (tileKey t off) n
      .ok (answerData r.2.2 m r.1 r.2.1)

/-- LDO, STO, CLRO and atomics, which a mode other than theirs answers SEGMENT_MODE (R126, R127, R128, R292). -/
def special (b : Payload) : Bool :=
  match b with
  | .ldo _ => true
  | .sto _ _ => true
  | .clro _ _ => true
  | .atomic _ _ _ _ _ _ => true
  | _ => false

/-- An access as segment k, g serves it by its mode (R292). -/
def serveMode (s : State) (t : Nat) (m : Msg) (k : Nat) (g : Segment) (off n : Nat) : Served :=
  match g.mode with
  | .off => .ok (answerErr s m .segmentMode)
  | .cache => .ok (answerErr s m .segmentMode)
  | .tstore => if special m.body then .ok (answerErr s m .segmentMode) else serveTstore s t m k g off n
  | .fifo => if special m.body then .ok (answerErr s m .segmentMode) else serveFifo s t m k g n
  | .line => if special m.body then .ok (answerErr s m .segmentMode) else serveLine s t m k g off n
  | .once =>
    (match m.body with
    | .atomic _ _ _ _ _ _ => .ok (answerErr s m .segmentMode)
    | _ => serveOnce s t m g off n)
  | .owner => serveOwner s t m off n

/-- Access m, by what the mode of its segment does with it, needs more slots than are free, for a line or for the state of its segment (R392,
R394). -/
def undoShort (s : State) (t : Nat) (m : Msg) (off n : Nat) : Bool :=
  match segOf (s.mt t) off with
  | none => false
  | some (k, g) => overSlots (s.mt t) ((serveMode s t m k g off n).state.mt t)

/-- Request x, held for want of a slot, keeps m behind it: both are handler requests of one tile, whose order its home keeps, or they name a byte in
common (R192, R312, R313, R316). -/
def keepsBehind (x m : Msg) : Bool :=
  let engine (y : Msg) : Bool := match y.body with
    | .engRead _ _ _ => true
    | .engWrite _ _ _ => true
    | _ => false
  (x.org.tile == m.org.tile && !engine x && !engine m) || (match reqRange x.body, reqRange m.body with
    | some a, some b => overlaps a.1 a.2 b.1 b.2
    | _, _ => false)

/-- Of the held accesses l, those that wait for a slot, or behind one that does. -/
def stuckHeld (s : State) (t : Nat) (l : List Msg) : List Msg :=
  l.foldl (fun stuck x =>
    if stuck.any (fun y => keepsBehind y x) || (match reqRange x.body with
      | some r => undoShort s t x r.1 r.2
      | none => false) then stuck ++ [x] else stuck) []

/-- Access m must wait behind one that was held before it for want of a slot, or that waits behind such a one. -/
def behindHeld (s : State) (t : Nat) (m : Msg) : Bool :=
  (stuckHeld s t ((s.mt t).held.takeWhile (fun x => x.id != m.id))).any (fun x => keepsBehind x m)

/-- Serves an access at M-tile t, or holds it (R290 to R296, R394). -/
def serveAccess (s : State) (t : Nat) (m : Msg) (off n : Nat) : Served :=
  let mt := s.mt t
  if ownsSite s m.org t = false ∨ (48 - mt.units) * 65536 < off + n then .ok (answerErr s m .protection)
  else match segOf mt off with
    | none => .ok (answerErr s m .segmentMode)
    | some (k, g) =>
      if behindHeld s t m ∨ undoShort s t m off n then .hold s else serveMode s t m k g off n

-- Configuration and commands

/-- A descriptor's segment, as it enters its mode (R203, R204). -/
def newSegment (d : BitVec 128) (w : BitVec 2) (org : Origin) : Segment :=
  let n := d.toNat
  let mode : SegMode := match n / 2 ^ 32 % 8 with
    | 1 => .tstore | 2 => .fifo | 3 => .line | 4 => .once | 5 => .cache | 6 => .owner | _ => .off
  let param := n / 2 ^ 40 % 256
  { Segment.reset with
    mode := mode, base := n % 64, size := n / 2 ^ 16 % 64, param := param, tok := d.getLsbD 49, tch := d.extractLsb' 50 6, cfgTile := org.tile,
    cfgWin := w, cfgAct := org.act, rowlen := n / 2 ^ 96, full := List.replicate param false, moved := List.replicate param 0 }

/-- The new segment meets the undo units or another segment that is not OFF, or breaks LINE's bound (R204, R291, R295). -/
def segClash (m : MTile) (k : Nat) (g : Segment) : Bool :=
  g.mode != .off &&
    (decide (48 - m.units < g.base + g.size) ||
      (m.segs.mapIdx (fun j x => (j, x))).any (fun x => x.1 != k && x.2.mode != .off && decide (x.2.base < g.base + g.size ∧ g.base < x.2.base + x.2.size)) ||
      (g.mode == .line && decide (g.bytes / g.rowlen < 2 * g.param)))

/-- Address a, in the frame of tile u, lies in segment g of M-tile t. -/
def inSegment (s : State) (t : Nat) (g : Segment) (u : Nat) (a : Word) : Bool :=
  let inside (off : Nat) : Bool := g.mode != .off && decide (g.lo' ≤ off ∧ off < g.lo' + g.bytes)
  match addrClass a with
  | .window w off => neighbour u w == some t && inside off
  | .remote v off => s.aliasOf v == t && inside off
  | _ => false

/-- Some byte of a pattern from byte n on lies in segment g of M-tile t. -/
def patternIn (s : State) (t : Nat) (g : Segment) (u : Nat) (ws : List Word) (n : Nat) : Bool :=
  (List.range (apBytes ws - n)).any (fun i => inSegment s t g u (apAddr ws (n + i)))

/-- The transfers that run: of a tile's ports and copies, and the command that each generator works on. -/
def tileMoves (s : State) (t : Nat) (g : Segment) (x : Nat × CTile) : Bool :=
  x.2.ports.any (fun p => p.active.any (fun b => patternIn s t g x.1 b.ap b.moved)) ||
    x.2.copies.any (fun y => (List.range (y.len - y.moved)).any (fun i =>
      inSegment s t g x.1 (y.src + BitVec.ofNat 64 (y.moved + i)) || inSegment s t g x.1 (y.dst + BitVec.ofNat 64 (y.moved + i))))

def genMoves (s : State) (t : Nat) (g : Segment) (m : MTile) : Bool :=
  (List.range 4).any (fun j => (m.gens.find? (fun x => x.g.toNat == j)).any (fun x => patternIn s t g x.tile x.src x.moved || patternIn s t g x.tile x.dst x.moved))

/-- Segment k of M-tile t has no deferred read and no transfer running (R204): nothing is held in it, and no engine moves bytes of it. -/
def segIdle (s : State) (t k : Nat) : Bool :=
  match (s.mt t).segs[k]? with
  | none => true
  | some g =>
    !((s.mt t).held.any (fun x => match reqRange x.body with
      | some r => g.mode != .off && decide (g.lo' ≤ r.1 ∧ r.1 < g.lo' + g.bytes)
      | none => false)) && !(s.mts.any (fun m => genMoves s t g m.2)) && !(s.allTiles.any (tileMoves s t g))

/-- A home's directory names only lines that a CACHE segment still holds (R302). -/
def tidyDirs (s : State) : State :=
  { s with recvs := s.recvs.map (fun r => (r.1, { r.2 with dir := r.2.dir.filter (fun d =>
      (((s.mt d.2.1).segs[d.2.2]?).map (fun g => g.mode == .cache && g.lines.any (fun x => x.1 == d.1))).getD false) })) }

/-- Applies one AGCFG command (R204). Data bytes are kept; entering ONCE clears the presence bits; the new segment's pointers start afresh, also where the mode
stays the same (DESIGN CHOICE, log entry 167).
A line that leaves CACHE mode is written back: the home's copy is the one copy the model keeps (notes/assumptions). -/
def applyAgcfg (s : State) (t : Nat) (m : Msg) : State :=
  match m.body with
  | .agcfg k d w =>
    let mt := s.mt t
    let g := newSegment d w m.org
    if ownsSite s m.org t = false then answerErr s m .protection
    else if segClash mt k.toNat g then answerErr s m .segmentMode
    else
      let cached := (mt.segs[k.toNat]?).any (fun x => x.mode == .cache)
      let mt := changeSeg mt m.org.rin k.toNat (fun _ => g)
      let s := s.setMt t (if g.mode = .once then { mt with pres := mt.pres.filter (fun x => !decide (g.lo' ≤ 8 * x ∧ 8 * x < g.lo' + g.bytes)) } else mt)
      if cached then tidyDirs s else s
  | _ => s

/-- Command c would capture its segment's state, and no slot is free for it (R392, R394). -/
def cfgShort (s : State) (t : Nat) (c : Msg) : Bool := overSlots (s.mt t) ((applyAgcfg s t c).mt t)

/-- The oldest waiting AGCFG command, once its segment is idle and a slot is free for the segment's state. -/
def readyCfg (s : State) (t : Nat) : Option Msg :=
  match (s.mt t).cfgs with
  | [] => none
  | c :: _ => match c.body with
    | .agcfg k _ _ => if segIdle s t k.toNat && !(cfgShort s t c) then some c else none
    | _ => none

/-- Steps that an M-tile's change makes due. -/
def mtWake (s : State) (t : Nat) : State :=
  let m := s.mt t
  let s := if m.held.isEmpty && m.input.isEmpty then s else s.due t .heldAccessRelease
  if (readyCfg s t).isSome then s.due t .agcfgApply else s

/-- The end of a transfer may let an AGCFG command that waits go on (R204). -/
def wakeCfgs (s : State) : State := s.mts.foldl (fun s m => if m.2.cfgs.isEmpty then s else s.due m.1 .agcfgApply) s

/-- The accesses held at the bank of offset off. -/
def bankHeld (m : MTile) (off : Nat) : Nat :=
  (m.held.filter (fun x => match reqRange x.body with
    | some r => bankOf r.1 == bankOf off
    | none => false)).length

/-- Holds a request at its bank, or at the input when the bank holds 16 (R292). -/
def holdAt (s : State) (t : Nat) (m : Msg) (off : Nat) : State :=
  let mt := s.mt t
  s.setMt t (if 16 ≤ bankHeld mt off then { mt with input := m :: mt.input } else { mt with held := mt.held ++ [m] })

/-- The request at the input waits on: its bank still holds 16 (R292). -/
def inputWaits (m : MTile) : Bool :=
  match m.input with
  | [] => true
  | x :: _ => match reqRange x.body with
    | some r => decide (16 ≤ bankHeld m r.1)
    | none => false

/-- Puts a generator command into a cut's list, in the order of their arrival. -/
def placeGen (x : Gen) (l : List Gen) : List Gen := l.takeWhile (fun y => decide (y.seq < x.seq)) ++ [x] ++ l.dropWhile (fun y => decide (y.seq < x.seq))

/-- A generator command that arrives after its tile's cut, of that cut's interval or an earlier one, belongs to the cut (R398). -/
def noteGen (s : State) (t : Nat) (x : Gen) : State :=
  s.modPart x.org.part (fun q => { q with cuts := q.cuts.map (fun c =>
    if (mget c.2.tiles x.tile).isSome && !(later x.org.rin (BitVec.ofNat 32 c.1)) then (c.1, { c.2 with gens := mset c.2.gens t (placeGen x (mgetD c.2.gens t [])) }) else c) })

/-- A request that stands at the input is served, held, or taken by a generator or the configuration queue (R205, R292). -/
def mtServe (s : State) (t : Nat) (m : Msg) : State :=
  match reqRange m.body with
  | some r =>
    (match serveAccess s t m r.1 r.2 with
    | .ok s => mtWake s t
    | .hold s' =>
      let h := holdAt (if undoShort s t m r.1 r.2 then countStall s' (s.mPart t) else s') t m r.1
      -- a read that is held may have moved its LINE window (R295)
      if (s'.mt t).segs = (s.mt t).segs then h else mtWake h t)
  | none =>
    match m.body with
    | .agcfg _ _ _ =>
      let mt := s.mt t
      let s := if cfgShort s t m then countStall s (s.mPart t) else s
      mtWake (s.setMt t { mt with cfgs := mt.cfgs ++ [m] }) t
    | .aggo g w src dst sig =>
      if ownsSite s m.org t = false then answerErr s m .protection
      else
        let mt := s.mt t
        let x : Gen := { g := g, tile := m.org.tile, w := w, src := src, dst := dst, sig := sig, org := m.org, moved := 0, buf := [], wait := false, seq := s.nextId, cmd := m.id }
        (noteGen { s.setMt t { mt with gens := mt.gens ++ [x] } with nextId := s.nextId + 1 } t x).due t .engineBeat
    | _ => s

/-- A request arrives at M-tile t: behind one that waits at the input, or it is served (R292). -/
def mtArrive (s : State) (t : Nat) (m : Msg) : State :=
  let mt := s.mt t
  if mt.input.isEmpty then mtServe s t m else s.setMt t { mt with input := mt.input ++ [m] }

/-- The messages that an M-tile takes through its one input (R292). -/
def isMReq (b : Payload) : Bool :=
  match b with
  | .engData _ _ _ _ => false
  | .engDone _ _ _ => false
  | .trapGrant => false
  | _ => true

/-- The oldest request at the step's M-tile, if ok accepts it: none passes another (R292, R312). -/
def mtStep (s : State) (ok : Payload → Bool) : State :=
  match takeMsg s isMReq with
  | none => s
  | some (m, s') => if ok m.body then mtArrive s' s'.agent m else s

/-- M_TILE_REQUEST (R292): every request but those with a step of their own. -/
def execMTileRequest (s : State) : Out :=
  .next (mtStep s (fun b => match b with
    | .sto _ _ => false
    | .clro _ _ => false
    | .atomic _ _ _ _ _ _ => false
    | .agcfg _ _ _ => false
    | _ => true))

/-- STO_APPLY (R127). -/
def execStoApply (s : State) : Out :=
  .next (mtStep s (fun b => match b with
    | .sto _ _ => true
    | _ => false))

/-- CLRO_APPLY (R128). -/
def execClroApply (s : State) : Out :=
  .next (mtStep s (fun b => match b with
    | .clro _ _ => true
    | _ => false))

/-- ATOMIC_APPLY (R130 to R132, R316). -/
def execAtomicApply (s : State) : Out :=
  .next (mtStep s (fun b => match b with
    | .atomic _ _ _ _ _ _ => true
    | _ => false))

/-- AGCFG_APPLY (R204): an arriving command joins the waiting ones; the oldest is applied once its segment is idle. -/
def execAgcfgApply (s : State) : Out :=
  let s := mtStep s (fun b => match b with
    | .agcfg _ _ _ => true
    | _ => false)
  let t := s.agent
  match readyCfg s t with
  | none => .next s
  | some c => .next (mtWake (applyAgcfg (s.setMt t { s.mt t with cfgs := (s.mt t).cfgs.drop 1 }) t c) t)

/-- The first held access, in arrival order, that can be served now, with the state after it; a read that stays held may have moved its LINE window
(R295). -/
def firstFree (s : State) (t : Nat) (l : List Msg) : Option Msg × State :=
  match l with
  | [] => (none, s)
  | m :: r =>
    match reqRange m.body with
    | none => firstFree s t r
    | some x =>
      match serveAccess s t m x.1 x.2 with
      | .ok s => (some m, s)
      | .hold s => firstFree s t r

/-- The requests l at the input go on in their order, up to one that must wait there (R292). -/
def drainInput (s : State) (t : Nat) (l : List Msg) : State :=
  match l with
  | [] => s
  | m :: r =>
    let s := mtServe s t m
    if (s.mt t).input.isEmpty then drainInput s t r else s.setMt t { s.mt t with input := (s.mt t).input ++ r }

/-- HELD_ACCESS_RELEASE (R292): the oldest held access that can be served is served. When none can, and a bank that made a request wait at the input
has released an access, that request goes on, and those behind it. -/
def execHeldAccessRelease (s : State) : Out :=
  let t := s.agent
  let x := firstFree s t (s.mt t).held
  let s' := x.2
  match x.1 with
  | some m => .next (mtWake (s'.setMt t { s'.mt t with held := (s'.mt t).held.filter (fun x => x.id != m.id) }) t)
  | none =>
    let s' := if (s'.mt t).segs = (s.mt t).segs then s' else s'.due t .heldAccessRelease
    .next (if inputWaits (s'.mt t) then s' else drainInput (s'.setMt t { s'.mt t with input := [] }) t (s'.mt t).input)

-- Remote requests to a compute tile

/-- Serves a remote request at C-tile t's store (R290, R289). -/
def serveTile (s : State) (t : Nat) (m : Msg) : State :=
  match reqRange m.body with
  | none => s
  | some (off, n) =>
    if ownsSite s m.org t = false ∨ 0x80000 < off + n ∨ touchesUndo off n then answerErr s m .protection
    else if special m.body then answerErr s m .segmentMode
    else match reqData m.body with
      | some bs => answerDone (s.writeC t off bs m.org.rin) m
      | none =>
        let r := readBytes s t m.org.tile (tileKey t off) n
        answerData r.2.2 m r.1 r.2.1

/-- The store of C-tile t has no free slot for a write of interval i (R394). -/
def tileShort (s : State) (t : Nat) (m : Msg) : Bool :=
  match reqRange m.body, reqData m.body, s.tile? t with
  | some (off, n), some _, some c =>
    let need := s.slotsNeeded t m.org.rin ((partsOf off (List.replicate n 0)).map (fun l => l.1))
    decide (1024 < c.recov.slotsUsed + need ∧ 0 < need)
  | _, _, _ => false

/-- The requests of other agents that a compute tile serves. -/
def isTileReq (b : Payload) : Bool := (reqRange b).isSome

/-- REMOTE_TILE_REQUEST (R290): served, answered PROTECTION or SEGMENT_MODE; a write for which no undo slot is free waits until
a seal frees one (R394). -/
def execRemoteTileRequest (s : State) : Out :=
  match takeMsg s isTileReq with
  | none => .next s
  | some (m, s) =>
    if tileShort s s.agent m then
      .next { countStall s (s.partOf s.agent) with waiting := s.waiting ++ [m] }
    else .next (serveTile s s.agent m)

end Sys2Proof.Machine
end

