-- ==== Sys2Proof/Machine/RowArrayOps.lean ====
section
/-!
DEFINITION. The row array at work: the holders of the rows (R331), lane firings (R150 to R157), admission, packing (R159, R160) and the tile
cycle they make up (R330); completion (R165) and the stall notice (R335).
-/

namespace Sys2Proof.Machine

open Sys2Proof

-- Queues

/-- The elements that stand in or fly toward a queue: what room is judged on (R150, R330). -/
def queueLoad (r : RowSlot) (key : Nat) : Nat := (mgetD r.queues key []).length + (r.fly.filter (fun f => f.2.1 == key)).length

def hasRoom (r : RowSlot) (key : Nat) : Bool := decide (queueLoad r key < 8)

/-- Puts an element at the end of a queue. -/
def pushElem (r : RowSlot) (key : Nat) (e : RowElem) : RowSlot := { r with queues := mset r.queues key (mgetD r.queues key [] ++ [e]) }

/-- Takes the oldest element of a queue. -/
def popElem (r : RowSlot) (key : Nat) : RowSlot := { r with queues := mset r.queues key ((mgetD r.queues key []).drop 1) }

/-- Status whose result is produced by cycle cyc goes into the sticky bits (R151). -/
def landMarks (cyc : Nat) (r : RowSlot) : RowSlot :=
  { r with
    sticky := (r.marks.filter (fun m => decide (m.1 ≤ cyc))).foldl (fun b m => b ||| m.2) r.sticky
    marks := r.marks.filter (fun m => !decide (m.1 ≤ cyc)) }

/-- Elements in flight whose latency has ended stand in their queues (R330 step 1), and their status is set. -/
def landRow (cyc : Nat) (r : RowSlot) : RowSlot :=
  let r := landMarks cyc r
  (r.fly.filter (fun f => decide (f.1 ≤ cyc))).foldl (fun r f => pushElem r f.2.1 f.2.2) { r with fly := r.fly.filter (fun f => !decide (f.1 ≤ cyc)) }

-- One lane

/-- The element at the head of queue q of lane n; an immediate is always there (R149). -/
def laneHead (r : RowSlot) (n q : Nat) : Option RowElem :=
  let x := laneAt r.lanes n
  if laneSel x q = 1 then some ⟨laneImm32 x, false, 0, []⟩ else (mgetD r.queues (4 * n + q) []).head?

def trueElem (e : RowElem) : Bool := e.v != 0 || e.p

/-- The queues that lane n takes from in a firing, in the order A to D, once every one holds an element (R150, R154). -/
def laneTakes (r : RowSlot) (n : Nat) : Option (List Nat) :=
  let x := laneAt r.lanes n
  let op := laneOp x
  if op = 0 then none
  else if op = 0x24 then
    match laneHead r n 3 with
    | none => none
    | some d =>
      let q := if trueElem d then 0 else 1
      if (laneHead r n q).isSome then some [q, 3] else none
  else
    let qs := (List.range 4).filter (fun q => laneReads op / 2 ^ q % 2 == 1)
    if qs.all (fun q => (laneHead r n q).isSome) then some qs else none

/-- What a firing makes: its output element and whether it leaves on the secondary output, the new sum of LACC, the generator, status and
tag mismatch. -/
structure LaneDone where
  out : Option (Bool × RowElem)
  acc : BitVec 32 × Nat × Bool
  gen : BitVec 32
  st : Status
  tm : Bool
  deriving DecidableEq, Repr

/-- LCVT (R157). -/
def laneCvt (md : Nat) (rm : BitVec 3) (a : BitVec 32) : BitVec 32 × Status :=
  match md with
  | 0 => let r := cvtFI rm (-2147483648) 2147483647 a; (BitVec.ofInt 32 r.1, r.2)
  | 1 => cvtIF rm a.toInt
  | 2 => let r := cvtFF bf16 rm a; (BitVec.ofNat 32 r.1, r.2)
  | 3 => (widen (bf16.val (a.toNat % 2 ^ 16)), sigNV (bf16.val (a.toNat % 2 ^ 16)))
  | 4 => let r := cvtFF fp16 rm a; (BitVec.ofNat 32 r.1, r.2)
  | _ => (widen (fp16.val (a.toNat % 2 ^ 16)), sigNV (fp16.val (a.toNat % 2 ^ 16)))

/-- LICMP (R152). -/
def laneIcmp (md : Nat) (a b : BitVec 32) : Bool :=
  match md with
  | 0 => opTeq a b
  | 1 => opTne a b
  | 2 => opTlt a b
  | 3 => opTle a b
  | 4 => opTltu a b
  | _ => opTleu a b

/-- The version of decode table t that an element's stamp names (R151, R339). -/
def tableAt (tabs : List DecTable) (t : Nat) (e : RowElem) : List Word32 :=
  match tabs[t]? with
  | none => []
  | some d => if (e.ver[t]?).getD d.ver = d.ver then d.cur else (d.old.getD d.cur)

/-- The target format of LQ8 (R157). -/
def lq8Fmt (i : Nat) : Nat :=
  match i with
  | 0 => 0x3
  | 1 => 0x4
  | 2 => 0x8
  | _ => 0x9

/-- The value and status of the operations whose result is a function of A, B and C alone (R152, R153). e is A's element. -/
def laneValue (tabs : List DecTable) (x : Word) (e : RowElem) (a b c : BitVec 32) (draw : Nat) : BitVec 32 × Status :=
  let rm := laneRm x
  let md := laneMod x
  let im := laneImm x
  match laneOp x with
  | 0x01 => fAdd rm a b
  | 0x02 => fSub rm a b
  | 0x03 => fMul rm a b
  | 0x04 => fFma rm a b c
  | 0x06 => fMinMax true a b
  | 0x07 => fMinMax false a b
  | 0x08 => (a &&& 0x7FFFFFFF, 0)
  | 0x09 => (a ^^^ 0x80000000, 0)
  | 0x0A => (if (fTest md a b).1 then 1 else 0, (fTest md a b).2)
  | 0x0B => fRnd rm a
  | 0x0C => fExp2 rm a
  | 0x0D => fLog2 rm a
  | 0x0E => fDiv rm 0x3F800000 a
  | 0x0F => fRsq rm a
  | 0x10 => (a + b, 0)
  | 0x11 => (a - b, 0)
  | 0x12 => (a * b, 0)
  | 0x13 => (opMin a b, 0)
  | 0x14 => (opMax a b, 0)
  | 0x15 => (opMinu a b, 0)
  | 0x16 => (opMaxu a b, 0)
  | 0x17 => (if laneIcmp md a b then 1 else 0, 0)
  | 0x18 => (a &&& b, 0)
  | 0x19 => (a ||| b, 0)
  | 0x1A => (a ^^^ b, 0)
  | 0x1B => (a &&& ~~~b, 0)
  | 0x1C => (opShl a b, 0)
  | 0x1D => (opShr a b, 0)
  | 0x1E => (opSar a b, 0)
  | 0x1F => (opRol a b, 0)
  | 0x26 => (e.tag.setWidth 32, 0)
  | 0x28 => laneCvt md rm a
  | 0x29 => let q := quant a (b.toNat % 256) (lq8Fmt (im % 4)) (im / 4 % 4) rm draw; (BitVec.ofNat 32 q.1, q.2)
  | 0x2A => scaled (elemVal (im % 16) (a.toNat % 256) (tableAt tabs (im / 16 % 4) e)) (b.toNat % 256)
  | _ => (a, 0)

/-- One firing of lane n on the elements it takes (R151 to R157). -/
def laneResult (tabs : List DecTable) (r : RowSlot) (n : Nat) (qs : List Nat) (gen : BitVec 32) : LaneDone :=
  let x := laneAt r.lanes n
  let op := laneOp x
  let el (q : Nat) : RowElem := (laneHead r n q).getD ⟨0, false, 0, []⟩
  let acc := mgetD r.accs n (0, 0, false)
  let lead := (qs.find? (fun q => laneSel x q != 1)).getD 0
  let p := qs.any (fun q => (el q).p)
  let mk (v : BitVec 32) (tag : BitVec 16) (p : Bool) : RowElem := ⟨v, p, tag, (el lead).ver⟩
  let plain (e : RowElem) : LaneDone := ⟨some (false, e), acc, gen, 0, false⟩
  if op = 0x05 then
    let s := fAdd (laneRm x) acc.1 (el 0).v
    let p := acc.2.2 || (el 0).p
    if acc.2.1 = laneImm x then ⟨some (false, mk s.1 (el 0).tag p), (0, 0, false), gen, s.2, false⟩
    else ⟨none, (s.1, acc.2.1 + 1, p), gen, s.2, false⟩
  else if op = 0x22 then
    let y := if (el 2).v != 0 then el 0 else el 1
    plain (mk y.v y.tag p)
  else if op = 0x23 then ⟨some (!(trueElem (el 3)), mk (el 0).v (el lead).tag p), acc, gen, 0, false⟩
  else if op = 0x24 then
    let y := if trueElem (el 3) then el 0 else el 1
    plain (mk y.v y.tag p)
  else if op = 0x25 then
    let bad := (el 0).tag != (el 1).tag
    ⟨some (false, mk (el 0).v (el 0).tag (p || bad)), acc, gen, 0, bad⟩
  else if op = 0x27 then plain (mk (el 0).v ((el 1).v.setWidth 16) p)
  else
    let sr := op == 0x29 && laneImm x / 4 % 4 == 2
    let gen' := if sr then draw16Next gen else gen
    let v := laneValue tabs x (el 0) (el 0).v (el 1).v (el 2).v (drawBits gen')
    ⟨some (false, mk v.1 (el lead).tag p), acc, gen', v.2, false⟩

/-- The latency of an operation (R152). -/
def laneLat (x : Word) : Nat :=
  let op := laneOp x
  if 0x01 ≤ op ∧ op ≤ 0x05 then 4
  else if op = 0x0B ∨ op = 0x28 ∨ op = 0x29 ∨ op = 0x2A then 2
  else if 0x0C ≤ op ∧ op ≤ 0x0F then 8
  else if op = 0x12 then 3
  else if op = 0x21 then laneDly x + 1
  else 1

/-- Whether lane n of a slot could fire in a cycle if the slot held its row (R150): what it takes and what it makes. -/
def laneFires (tabs : List DecTable) (gens : List (BitVec 32)) (r : RowSlot) (cyc n : Nat) : Option (List Nat × LaneDone) :=
  match laneTakes r n with
  | none => none
  | some qs =>
    let d := laneResult tabs r n qs ((gens[n]?).getD 1)
    let room := match d.out with
      | none => true
      | some o => (feeds r n o.1).all (hasRoom r)
    let spaced := laneOp (laneAt r.lanes n) != 0x05 || (match mget r.last n with
      | some k => decide (k + 4 ≤ cyc)
      | none => true)
    if room && spaced then some (qs, d) else none

/-- The firing takes place: what slot r holds after it. -/
def laneTake (cyc n : Nat) (f : List Nat × LaneDone) (r : RowSlot) : RowSlot :=
  let x := laneAt r.lanes n
  let r := f.1.foldl (fun r q => if laneSel x q = 1 then r else popElem r (4 * n + q)) r
  let r := match f.2.out with
    | none => r
    | some o => { r with fly := r.fly ++ (feeds r n o.1).map (fun key => (cyc + laneLat x, key, o.2)) }
  { r with accs := if laneOp x = 0x05 then mset r.accs n f.2.acc else r.accs, last := mset r.last n cyc,
           marks := r.marks ++ (if rowSticky 0 f.2.st f.2.tm = 0 then [] else [(cyc + laneLat x, rowSticky 0 f.2.st f.2.tm)]) }

-- A tile cycle (R330)

/-- Step 2 for one row of the slot that holds it: every lane is judged on the slot as it stood after step 1. -/
def fireRow (tabs : List DecTable) (cyc row : Nat) (r0 : RowSlot) (x : RowSlot × List (BitVec 32)) : RowSlot × List (BitVec 32) :=
  (List.range 16).foldl (fun x j =>
    let n := 16 * row + j
    match laneFires tabs x.2 r0 cyc n with
    | none => x
    | some f => (laneTake cyc n f x.1, x.2.set n f.2.gen)) x

/-- The entry and exit ports of a slot (R158). -/
def entryPort (r : RowSlot) : Nat := r.desc.toNat % 8
def exitPort (r : RowSlot) : Nat := r.desc.toNat / 16 % 8

/-- The queues that select entry word w (R149). -/
def entryQueues (r : RowSlot) (w : Nat) : List Nat :=
  (List.range 64).flatMap (fun m => (List.range 4).filterMap (fun q => if laneSel (laneAt r.lanes m) q = 2 + w then some (4 * m + q) else none))

/-- Slot r, as it stood at the start of the cycle, would take a record of its port (R160). -/
def canAdmit (ports : List Port) (r : RowSlot) : Bool :=
  r.st == .running && r.allow != some 0 && decide (16 ≤ (((ports[entryPort r]?).getD Port.reset).buf).length) &&
    (List.range 3).all (fun w => (entryQueues r w).all (hasRoom r))

/-- Unpacks a row record into flight toward the selecting queues: they stand there in the next cycle (R159, R160). psn: the places of its bytes
that were read with an uncorrectable error, which poisons their word (R368). -/
def enterSlot (vers : List Nat) (cyc : Nat) (rec : List Byte) (psn : List Nat) (r : RowSlot) : RowSlot :=
  let n := leNat rec
  let tag : BitVec 16 := BitVec.ofNat 16 (n / 2 ^ 96)
  let fly := (List.range 3).flatMap (fun w =>
    let e : RowElem := ⟨BitVec.ofNat 32 (n / 2 ^ (32 * w)), (n / 2 ^ (112 + w)) % 2 == 1 || psn.any (fun i => i / 4 == w), tag, vers⟩
    (entryQueues r w).map (fun key => (cyc + 1, key, e)))
  { r with fly := r.fly ++ fly, entries := r.entries + 1, allow := r.allow.map (fun k => k - 1) }

/-- The enabled exit words of a slot. -/
def exitWords (r : RowSlot) : List Nat := (List.range 3).filter (fun w => (exitSel r.desc w).isSome)

/-- A complete record waits in exit staging (R160). -/
def exitReady (r : RowSlot) : Bool := (exitWords r).all (fun w => !(mgetD r.queues (256 + w) []).isEmpty)

/-- The 16 bytes of the record that the exit packs (R159, R160). -/
def exitRecord (r : RowSlot) : List Byte :=
  let el (w : Nat) : Option RowElem := if (exitSel r.desc w).isSome then (mgetD r.queues (256 + w) []).head? else none
  let word (w : Nat) : Nat := ((el w).map (fun e => e.v.toNat)).getD 0
  let pbit (w : Nat) : Nat := if ((el w).map (fun e => e.p)).getD false then 2 ^ (112 + w) else 0
  let tag := (((exitWords r).head?.bind el).map (fun e => e.tag.toNat)).getD 0
  leBytes 16 (word 0 + word 1 * 2 ^ 32 + word 2 * 2 ^ 64 + tag * 2 ^ 96 + pbit 0 + pbit 1 + pbit 2)

/-- The exit packs a record into its port (R160, R330 step 4). -/
def packExit (r : RowSlot) : RowSlot := { (exitWords r).foldl (fun r w => popElem r (256 + w)) r with exits := r.exits + 1 }

/-- The slot rests: no lane holds every operand it needs (R165). -/
def laneIdle (r : RowSlot) : Bool := (List.range 64).all (fun n => (laneTakes r n).isNone)

/-- R165: a RUNNING slot is complete. -/
def slotComplete (r : RowSlot) : Bool := r.st == .running && r.allow == some 0 && laneIdle r && r.fly.isEmpty && !exitReady r

/-- R335: a RUNNING slot is stalled in this cycle. -/
def slotStalled (c : CTile) (r : RowSlot) : Bool :=
  let full (p : Nat) : Bool := decide (512 < (((c.ports[p]?).getD Port.reset).buf).length + 16)
  r.st == .running && r.allow != some 0 && decide (16 ≤ (((c.ports[entryPort r]?).getD Port.reset).buf).length) && !canAdmit c.ports r &&
    (List.range 64).all (fun n => (laneFires c.tables c.row.gens r c.cyc n).isNone) && r.fly.isEmpty && !(exitReady r && !full (exitPort r))

/-- The tile's region is past the end of its grace: the array only lets elements land (R173). -/
def rowFrozen (s : State) : Bool :=
  match s.regionOf s.cur with
  | some r => r.past
  | none => false

/-- Step 3 for slot q: it admits the oldest record of its port. Where another consumer would take it in the same cycle, which of them does is
not defined (R196). -/
def admitSlot (s : State) (start : List RowSlot) (q : Nat) : State :=
  match start[q]? with
  | none => s
  | some r0 =>
    let c := s.core
    let p := entryPort r0
    let q' := (c.ports[p]?).getD Port.reset
    if canAdmit c.ports r0 = false then s
    else
      let rival := ((start.drop (q + 1)).any (fun r => entryPort r == p && canAdmit c.ports r)) ||
        c.mx.queue.any (fun o => match o.kind with
          | .pass true _ _ da db => (da.toNat % 8 == p || db.toNat % 8 == p) && o.began.isNone
          | _ => false)
      let s := if rival then s.tick else s
      if rival && Config.freeBool s.free then s
      else
        let row := { c.row with slots := c.row.slots.modify q (enterSlot (tableVers c) c.cyc (q'.buf.take 16) q'.psn) }
        { s with core := { c with row := row, ports := c.ports.modify p (fun x => x.drop 16) } }

/-- Step 4 for slot q. -/
def packSlot (c : CTile) (start : List RowSlot) (q : Nat) : CTile :=
  match start[q]? with
  | none => c
  | some r0 =>
    let p := exitPort r0
    let buf := ((c.ports[p]?).getD Port.reset).buf
    if r0.st = .running ∧ exitReady r0 ∧ buf.length + 16 ≤ 512 then
      { c with row := { c.row with slots := c.row.slots.modify q packExit }, ports := c.ports.modify p (fun x => x.push (exitRecord r0) false) }
    else c

/-- Counts a stalled cycle of a slot, or ends its stalled state (R335): judged on the tile as step 1 of the cycle left it, c0. -/
def countStalls (c0 c : CTile) : CTile :=
  { c with row := { c.row with slots := c.row.slots.mapIdx (fun q r =>
      if (c0.row.slots[q]?).any (slotStalled c0) then { r with stall := r.stall + 1 } else { r with stall := 0, stallSent := false }) } }

/-- The steps that slots have become due for; a slot completes in the first cycle that begins with its conditions met (R165). -/
def dueSlots (start : List RowSlot) (s : State) : State :=
  (List.range 4).foldl (fun s q =>
    match s.core.row.slots[q]? with
    | none => s
    | some r =>
      let s := if (start[q]?).any slotComplete then { s with agenda := s.agenda ++ [⟨s.cur, .rowSlotCompletion, { Input.none with n := q }⟩] } else s
      if decide (256 ≤ r.stall) && !r.stallSent then { s with agenda := s.agenda ++ [⟨s.cur, .rowStall, { Input.none with n := q }⟩] } else s) s

/-- ROW_ARRAY_CYCLE (R330). -/
def execRowArrayCycle (s : State) : Out :=
  let c := s.core
  let before := c.row.slots
  let row := { c.row with slots := before.map (fun r => if r.st = .running then landRow c.cyc r else r) }
  let c0 := { c with row := row }
  let s := { s with core := c0 }
  if rowFrozen s then .next s
  else
    let start := row.slots
    let step2 := (List.range 4).foldl (fun (a : RowArray) r =>
      match (a.holders[r]?).getD none with
      | none => a
      | some q =>
        match start[q]?, a.slots[q]? with
        | some r0, some x =>
          if r0.st = .running ∧ ((a.bubble[r]?).getD false = false ∨ c.cyc % 16 ≠ 0) then
            let y := fireRow c.tables c.cyc r r0 (x, a.gens)
            { a with slots := a.slots.set q y.1, gens := y.2 }
          else a
        | _, _ => a) row
    let s : State := (List.range 4).foldl (fun s q => admitSlot s start q) { s with core := { c with row := step2 } }
    let c := (List.range 4).foldl (fun c q => packSlot c start q) s.core
    .next (dueSlots before { s with core := countStalls c0 c })

-- Rounds (R331)

/-- The rows in which the slot has lanes. -/
def inFootprint (r : RowSlot) (row : Nat) : Bool := (List.range 16).any (fun j => laneOp (laneAt r.lanes (16 * row + j)) != 0)

/-- Slot r is a candidate for a row. -/
def isCandidate (ports : List Port) (r : RowSlot) (row : Nat) : Bool :=
  let inRow (key : Nat) : Bool := decide (key < 256 ∧ key / 64 = row)
  r.st == .running && inFootprint r row &&
    (r.queues.any (fun q => inRow q.1 && !q.2.isEmpty) || r.fly.any (fun f => inRow f.2.1) ||
      (r.allow != some 0 && decide (16 ≤ (((ports[entryPort r]?).getD Port.reset).buf).length)))

/-- Records waiting at the slot's entry port. -/
def waitCount (ports : List Port) (r : RowSlot) : Nat := (((ports[entryPort r]?).getD Port.reset).buf).length / 16

/-- The best of a list of slots by a score; of equals the first. -/
def bestSlot (score : Nat → Nat × Nat) (l : List Nat) : Option Nat :=
  l.foldl (fun b q => match b with
    | none => some q
    | some x => if (score x).1 < (score q).1 ∨ ((score x).1 = (score q).1 ∧ (score x).2 < (score q).2) then some q else some x) none

/-- The holder of a row for the round that begins. -/
def chooseHolder (c : CTile) (row : Nat) : Option Nat :=
  let slot (q : Nat) : RowSlot := (c.row.slots[q]?).getD RowSlot.reset
  let age (q : Nat) : Nat := ((slot q).ages[row]?).getD 0
  let cand := (List.range 4).filter (fun q => isCandidate c.ports (slot q) row)
  if cand.any (fun q => decide (60 ≤ age q)) then bestSlot (fun q => (age q, 0)) (cand.filter (fun q => decide (60 ≤ age q)))
  else bestSlot (fun q => (waitCount c.ports (slot q), age q)) cand

/-- The ages of a row after the choice. -/
def ageRow (c : CTile) (row : Nat) (h : Option Nat) (slots : List RowSlot) : List RowSlot :=
  slots.mapIdx (fun q r =>
    if isCandidate c.ports r row then { r with ages := r.ages.set row (if h = some q then 0 else min ((r.ages[row]?).getD 0 + 1) 255) } else r)

/-- ROW_ROUND (R331): at the first cycle of a round. -/
def execRowRound (s : State) : Out :=
  let c := s.core
  if c.cyc % 16 ≠ 0 then .next s
  else
    let hs := (List.range 4).map (chooseHolder c)
    let slots := (List.range 4).foldl (fun l r => ageRow c r ((hs[r]?).getD none) l) c.row.slots
    let bubble := (List.range 4).map (fun r => (hs[r]?).getD none != (c.row.holders[r]?).getD none)
    .next { s with core := { c with row := { c.row with slots := slots, holders := hs, bubble := bubble } } }

/-- ROW_SLOT_COMPLETION (R165): slot inp.n. Sums that LACC lanes still form are discarded, their status is not (R163). RDRAIN delivers in this
same cycle (R169). -/
def execRowSlotCompletion (s : State) : Out :=
  match s.core.row.slots[s.inp.n]? with
  | none => .next s
  | some r =>
    if slotComplete r then
      let s := { s with core := { s.core with row := { s.core.row with slots := s.core.row.slots.set s.inp.n (rowHalt (landMarks (s.core.cyc + 16) r)) } } }
      .next (takePending (landDrains (landDrains s false) true))
    else .next s

/-- ROW_STALL (R335): slot inp.n. -/
def execRowStall (s : State) : Out :=
  match s.core.row.slots[s.inp.n]? with
  | none => .next s
  | some r =>
    if r.st = .running ∧ 256 ≤ r.stall ∧ r.stallSent = false then
      let s := { s with core := { s.core with row := { s.core.row with slots := s.core.row.slots.set s.inp.n { r with stallSent := true } } } }
      .next (tileNotice s .rowStall (BitVec.ofNat 32 s.inp.n) 0)
    else .next s

end Sys2Proof.Machine
end

