-- ==== Sys2Proof/Machine/MatrixEngine.lean ====
section
/-!
DEFINITION. The matrix engine at work: its passes (R174 to R177), what may begin when (R336, R338), what an operation does at its end (R183 to
R187, R337), and ballast (R188).
-/

namespace Sys2Proof.Machine

open Sys2Proof

-- Banks

/-- The 4,096 words of bank b, row by row. -/
def bankVals (m : Matrix) (b : Nat) : List (BitVec 32) :=
  let es := m.banks.filter (fun e => e.1 / 4096 == b)
  (List.range 4096).map (fun k => mgetD es (4096 * b + k) 0)

/-- Bank entries of a list of words, +0 left out. -/
def bankEntries (b : Nat) (vs : List (BitVec 32)) : Map (BitVec 32) :=
  (vs.mapIdx (fun k v => (4096 * b + k, v))).filter (fun e => e.2 != 0)

/-- Replaces bank b. -/
def setBank (m : Matrix) (b : Nat) (es : Map (BitVec 32)) : Matrix :=
  { m with banks := m.banks.filter (fun e => decide (e.1 / 4096 < b)) ++ es ++ m.banks.filter (fun e => decide (b < e.1 / 4096)) }

-- What an operation names

/-- The bank an operation writes (R336). -/
def mxWrites (o : MxKind) : Option Nat :=
  match o with
  | .pass _ _ _ da _ => some (mxDest da)
  | .mclr b => some b.toNat
  | .mlda b _ => some b.toNat
  | _ => none

/-- The bank an operation reads. -/
def mxReads (o : MxKind) : Option Nat :=
  match o with
  | .pass _ _ _ da _ => if mxInit da = 1 ∨ mxInit da = 2 then some (mxSrc da) else none
  | .mdrain _ b _ _ _ => some b.toNat
  | _ => none

def isDrain (o : MxKind) : Bool :=
  match o with
  | .mdrain _ _ _ _ _ => true
  | _ => false

/-- The tile-store bytes an operation reads. -/
def mxSources (o : MxKind) : List (Nat × Nat) :=
  match o with
  | .pass mmas fa fb da db => mxRanges mmas fa (mxK da) da ++ mxRanges mmas fb (mxK da) db
  | .mlda _ a => [(a, 16384)]
  | _ => []

/-- The tile-store bytes an MDRAIN writes. -/
def mxSinks (o : MxKind) : List (Nat × Nat) :=
  match o with
  | .mdrain f _ _ d _ => [(d.toNat % 2 ^ 19, drainBytes f)]
  | _ => []

def rangesMeet (x y : List (Nat × Nat)) : Bool := x.any (fun a => y.any (fun b => overlaps a.1 a.2 b.1 b.2))

/-- Cycles from an operation's beginning to its end (R337). -/
def mxLasts (o : MxKind) : Nat :=
  match o with
  | .pass _ fa _ da _ => passCycles fa (mxK da) + 130
  | .mclr _ => 64
  | .mlda _ _ => 256
  | .mdrain f _ _ _ _ => (drainBytes f + 63) / 64 + 12
  | _ => 1

/-- The last cycle of earlier operation y's hold on x (R336): x may begin from that cycle on, as far as y's hazards go. Y has not ended. -/
def hazardClear (y x : MxOp) (cyc : Nat) : Bool :=
  match y.began with
  | none => false
  | some b =>
    let early := match y.kind with
      | .pass _ fa _ da _ => decide (b + passCycles fa (mxK da) + 5 ≤ cyc)
      | _ => true
    let wr (o : MxKind) (d : Nat) : Bool := mxWrites o == some d
    let rd (o : MxKind) (d : Nat) : Bool := mxReads o == some d
    (List.range 4).all (fun d =>
      (!(isPass y.kind && wr y.kind d && isPass x.kind && rd x.kind d) || early) &&
      !(wr y.kind d && (rd x.kind d || wr x.kind d) && !(isPass y.kind && isPass x.kind)) &&
      !(rd y.kind d && wr x.kind d && !(isPass x.kind)) &&
      !(isDrain y.kind && rd y.kind d && wr x.kind d)) &&
    !(rangesMeet (mxSinks y.kind) (mxSources x.kind ++ mxSinks x.kind)) && !(rangesMeet (mxSources y.kind) (mxSinks x.kind))

/-- A pass whose MMAS form waits for its stages. -/
def isMmas (o : MxKind) : Bool :=
  match o with
  | .pass m _ _ _ _ => m
  | _ => false

/-- Operation x, the oldest that has not begun, may begin (R336, R188). Behind one that waits to end for want of undo space the queue waits (R184). -/
def mayBegin (m : Matrix) (earlier : List MxOp) (x : MxOp) (cyc : Nat) : Bool :=
  (!(isPass x.kind) || (decide (m.edgeFree ≤ cyc) && (m.ballast.all (fun b => decide (b ≤ cyc))))) && (!(isMmas x.kind) || x.staged.isSome) &&
    earlier.all (fun y => hazardClear y x cyc && y.began.any (fun b => decide (cyc < b + mxLasts y.kind)))

-- Beginning

/-- Bytes of the ranges, as the engine reads them for the focus tile; an uncorrectable error among them is raised (R181). -/
def readRanges (s : State) (rs : List (Nat × Nat)) : List Byte × State :=
  rs.foldl (fun x r =>
    let y := readBytes x.2 x.2.cur x.2.cur (tileKey x.2.cur r.1) r.2
    (x.1 ++ y.1, y.2.2)) ([], s)

/-- What operation x reads when it begins: operands and scales of A and of B, or an MLDA's words. -/
def fetchOperands (s : State) (x : MxOp) : Option (List Byte × List Byte) × State :=
  match x.kind with
  | .pass mmas fa fb da db =>
    let a := readRanges s (mxRanges mmas fa (mxK da) da)
    let b := readRanges a.2 (mxRanges mmas fb (mxK da) db)
    let st := x.staged.getD ([], [])
    (some (st.1 ++ a.1, st.2 ++ b.1), b.2)
  | .mlda _ a =>
    let r := readRanges s [(a, 16384)]
    (some (r.1, []), r.2)
  | _ => (none, s)

/-- The bank whose status bits an operation clears when it begins (R186). -/
def mxClears (o : MxKind) : Option Nat :=
  match o with
  | .pass _ _ _ da _ => if mxInit da = 0 then some (mxDest da) else none
  | .mclr b => some b.toNat
  | .mlda b _ => some b.toNat
  | _ => none

/-- The bank whose status bits an operation sets when it ends. -/
def mxStatusBank (o : MxKind) : Option Nat :=
  match o with
  | .pass _ _ _ da _ => some (mxDest da)
  | .mdrain _ b _ _ _ => some b.toNat
  | _ => none

/-- Operation x begins: it latches fade factor, decode table and operands, and a clearing one clears its bank's bits; MFADE and LUTSEL take
effect in queue order (R178, R186, R339). -/
def beginOp (s : State) (x : MxOp) : State :=
  let r := fetchOperands s x
  let s := r.2
  let c := s.core
  let m := c.mx
  let fade := match x.kind with
    | .pass _ _ _ da _ => (m.fade[mxSrc da]?).getD 0x3F800000
    | _ => 0
  let x' := { x with began := some c.cyc, fade := fade, table := m.lut, ver := ((c.tables[m.lut.toNat]?).map (fun t => t.ver)).getD 0, staged := r.1 }
  let clr := mxClears x.kind
  let queue := m.queue.map (fun o =>
    if o.id = x.id then x'
    else if o.began.isSome ∧ clr.isSome ∧ mxStatusBank o.kind = clr then { o with bstVoid := true } else o)
  let m := { m with queue := queue, bst := match clr with
    | some b => bstClear m.bst b
    | none => m.bst }
  let m := match x.kind with
    | .pass mmas fa _ da _ =>
      let free := c.cyc + passCycles fa (mxK da)
      { m with edgeFree := free, stageFree := if mmas then free else m.stageFree }
    | .mfade b f => { m with fade := m.fade.set b.toNat f }
    | .lutsel t => { m with lut := t }
    | _ => m
  { s with core := { c with mx := m } }

/-- Begins every operation that may begin in this cycle, in queue order. -/
def beginOps (s : State) (fuel : Nat) : State :=
  match fuel with
  | 0 => s
  | fuel + 1 =>
    let q := s.core.mx.queue
    match q.find? (fun o => o.began.isNone) with
    | none => s
    | some x => if mayBegin s.core.mx (q.takeWhile (fun o => o.began.isSome)) x s.core.cyc then beginOps (beginOp s x) fuel else s

/-- MATRIX_OP_BEGIN (R336). -/
def execMatrixOpBegin (s : State) : Out := .next (beginOps s 8)

-- Staging (R338)

/-- One staging cycle: up to 64 bytes from each port, no more than the operand needs. A port that both operands name, or that a row slot also
consumes, gives its bytes to either (R196). -/
def stageCycle (s : State) (x : MxOp) : State :=
  match x.kind, s.core.mx.staging with
  | .pass true fa fb da db, some (_, a, b) =>
    let pa := da.toNat % 8
    let pb := db.toNat % 8
    let k := mxK da
    let needA := min 64 (operandBytes fa k - a.length)
    let needB := min 64 (operandBytes fb k - b.length)
    let shared := pa == pb
    let s := if shared then s.tick else s
    let bFirst := shared && Config.freeBool s.free
    let c := s.core
    let buf (ports : List Port) (p : Nat) : List Byte := ((ports[p]?).getD Port.reset).buf
    let takeFrom (ports : List Port) (p n : Nat) : List Port := ports.modify p (fun q => q.drop n)
    let first := if bFirst then (buf c.ports pb).take needB else (buf c.ports pa).take needA
    let rest (n : Nat) : Nat := if shared then min n (64 - first.length) else n
    let ports := takeFrom c.ports (if bFirst then pb else pa) first.length
    let second := if bFirst then (buf ports pa).take (rest needA) else (buf ports pb).take (rest needB)
    let ports := takeFrom ports (if bFirst then pa else pb) second.length
    let a := a ++ (if bFirst then second else first)
    let b := b ++ (if bFirst then first else second)
    let full := decide (operandBytes fa k ≤ a.length ∧ operandBytes fb k ≤ b.length)
    let m := { c.mx with staging := if full then none else some (x.id, a, b)
                         queue := if full then c.mx.queue.map (fun o => if o.id = x.id then { o with staged := some (a, b) } else o) else c.mx.queue }
    { s with core := { c with mx := m, ports := ports } }
  | _, _ => s

/-- MMAS_STAGING_START (R338): the oldest MMAS that has not begun takes the stages when they are free; each cycle brings it bytes from its
ports until both operands are whole. -/
def execMmasStagingStart (s : State) : Out :=
  let m := s.core.mx
  match m.queue.find? (fun o => o.began.isNone && isMmas o.kind) with
  | none => .next s
  | some x =>
    if x.staged.isSome then .next s
    else if m.staging.isSome then .next (stageCycle s x)
    else if m.stageFree ≤ s.core.cyc then .next (stageCycle { s with core := { s.core with mx := { m with staging := some (x.id, [], []) } } } x)
    else .next s

-- A pass (R176)

/-- The codes of the 64 vectors of an operand. -/
def vectors (w k : Nat) (bs : List Byte) : List (List Nat) :=
  (List.range 64).map (fun v => unpackCodes w k (leNat ((bs.drop (v * (k * w / 8))).take (k * w / 8))))

/-- A value under a scale byte (R176). -/
def scaleVal (x : FV) (sc : Nat) : FV :=
  if sc = 0xFF then .nan false
  else match x with
    | .fin n m e => .fin n m (e + sc - 127)
    | y => y

/-- The values of vector v of an operand: codes, decode table, scale bytes. -/
def vectorVals (f : BitVec 4) (k : Nat) (tab : List Word32) (scales : List Byte) (v : Nat) (cs : List Nat) : List FV :=
  cs.mapIdx (fun j c => scaleVal (elemVal f.toNat c tab) (if scales.isEmpty then 127 else ((scales[k / 32 * v + j / 32]?).getD 0).toNat))

/-- The exact sum of values none of which is a NaN or an infinity. -/
def sumFin (xs : List FV) : Bool × Nat × Int :=
  xs.foldl (fun a x => match x with
    | .fin n m e => dyAdd a.1 a.2.1 a.2.2 n m e
    | _ => a) (false, 0, 0)

def FV.isNegZero (x : FV) : Bool := match x with
  | .fin n m _ => n && m == 0
  | _ => false

def FV.infSign (x : FV) : Option Bool := match x with
  | .inf n => some n
  | _ => none

/-- msum (R176): the exact sum of the terms, rounded once under RNE. -/
def msum (xs : List FV) : F32 × Status :=
  let infs := xs.filterMap FV.infSign
  if xs.any FV.isNan ∨ (true ∈ infs ∧ false ∈ infs) then (qnan32, stNV)
  else match infs with
    | n :: _ => (inf32 n, 0)
    | [] =>
      let t := sumFin xs
      if t.2.1 = 0 then (zero32 (xs.all FV.isNegZero), 0) else res32 0 t.1 t.2.1 t.2.2

/-- The products of a row and a column, one list of terms for each step: pairs in rate group 2. -/
def stepTerms (pairs : Bool) (ps : List FV) : List (List FV) :=
  match ps with
  | [] => []
  | [p] => [[p]]
  | p :: q :: r => if pairs then [p, q] :: stepTerms pairs r else [p] :: stepTerms pairs (q :: r)

/-- One element of the DEST bank. -/
def dotProduct (pairs : Bool) (init : F32) (xs ys : List FV) : F32 × Status :=
  (stepTerms pairs ((xs.zip ys).map (fun p => (fvMul p.1 p.2).1))).foldl (fun a ts =>
    let r := msum (val32 a.1 :: ts)
    (r.1, a.2 ||| r.2)) (init, 0)

/-- init(i, j) with its status (R177). -/
def passInit (init : Nat) (fade x : F32) : F32 × Status :=
  match init with
  | 1 => (x, 0)
  | 2 => fMul 0 x fade
  | _ => (0, 0)

/-- The words of the DEST bank after a pass, and the status conditions (R176). -/
def passResult (fa fb : BitVec 4) (da db : Word) (tab : List Word32) (a b : List Byte) (fade : F32) (src : List F32) : List F32 × Status :=
  let k := mxK da
  let sizeA := operandBytes fa k
  let sizeB := operandBytes fb k
  let rows := (vectors (fmtWidth fa) k (a.take sizeA)).mapIdx (fun v cs => vectorVals fa k tab (if mxHasScale da then a.drop sizeA else []) v cs)
  let cols := (vectors (fmtWidth fb) k (b.take sizeB)).mapIdx (fun v cs => vectorVals fb k tab (if mxHasScale db then b.drop sizeB else []) v cs)
  let pairs := decide (fmtWidth fa ≤ 6)
  let out := rows.mapIdx (fun i xs => cols.mapIdx (fun j ys =>
    let z := passInit (mxInit da) fade ((src[64 * i + j]?).getD 0)
    let r := dotProduct pairs z.1 xs ys
    (r.1, z.2 ||| r.2)))
  let flat := out.flatten
  (flat.map (fun x => x.1), flat.foldl (fun st x => st ||| x.2) 0)

-- Ends (R337)

/-- Bank writes of interval i: a KEEP bank is copied first when the operation is the first of its interval to change it (R187). -/
def needsBankCopy (c : CTile) (i : BitVec 32) (b : Nat) : Bool :=
  c.mx.keep.getLsbD b && !(c.recov.bankUndo.any (fun u => u.1 == i && u.2.1 == b && u.2.2.isSome))

/-- Bank b is about to change in interval i: a KEEP bank is copied, of a RECOMP bank it is remembered that no copy was made. -/
def copyBank (c : CTile) (i : BitVec 32) (b : Nat) : CTile :=
  if needsBankCopy c i b then
    { c with recov := { c.recov with bankUndo := c.recov.bankUndo ++ [(i, b, some (c.mx.banks.filter (fun e => e.1 / 4096 == b)))] } }
  else if c.recov.bankUndo.any (fun u => u.1 == i && u.2.1 == b) then c
  else { c with recov := { c.recov with bankUndo := c.recov.bankUndo ++ [(i, b, none)] } }

/-- Writes bank b and ORs status bits, unless a later clearing operation has voided them (R186). lost: the bank's LOST bit is cleared. -/
def writeBank (s : State) (x : MxOp) (b : Nat) (es : Map (BitVec 32)) (st : Status) (lost : Bool) : State :=
  let c := copyBank s.core x.rin b
  let m := setBank c.mx b es
  let m := { m with bst := if x.bstVoid then m.bst else bstOr m.bst b (bankBits st), lost := if lost then m.lost &&& ~~~((1 : BitVec 4) <<< b) else m.lost }
  { s with core := { c with mx := m } }

/-- The bytes and status of an MDRAIN (R184). -/
def drainResult (f : BitVec 4) (rm : BitVec 3) (factor : F32) (vs : List F32) : List Byte × Status :=
  let zs := vs.map (fun v => fMul rm v factor)
  let zst := zs.foldl (fun st z => st ||| z.2) 0
  let w := fmtWidth f
  if f = 0 then ((zs.map (fun z => leBytes 4 z.1.toNat)).flatten, zst)
  else if w = 16 then
    let hs := zs.map (fun z => cvtFF (if f = 1 then fp16 else bf16) rm z.1)
    ((hs.map (fun h => leBytes 2 h.1)).flatten, hs.foldl (fun st h => st ||| h.2) zst)
  else
    let blocks := (List.range 128).map (fun h => qblkCodes f.toNat 0 rm (((zs.drop (32 * h)).take 32).map (fun z => z.1)) [])
    (leBytes (512 * w) (packCodes w ((blocks.map (fun q => q.1)).flatten)) ++ blocks.map (fun q => BitVec.ofNat 8 q.2.1),
      blocks.foldl (fun st q => st ||| q.2.2) zst)

/-- The undo space that the end of an operation needs is free (R184, R394). -/
def endHasSpace (s : State) (x : MxOp) : Bool :=
  let c := s.core
  let bank := match mxWrites x.kind with
    | some b => if needsBankCopy c x.rin b then 256 else 0
    | none => 0
  let lines := match mxSinks x.kind with
    | [(a, n)] => s.slotsNeeded s.cur x.rin (linesOf a n)
    | _ => 0
  bank + lines == 0 || decide (c.recov.slotsUsed + bank + lines ≤ 1024)

/-- What operation x does (R176, R183, R184). -/
def opEffect (s : State) (x : MxOp) : State :=
  match x.kind with
  | .pass _ fa fb da db =>
    let st := x.staged.getD ([], [])
    let tab := match s.core.tables[x.table.toNat]? with
      | some d => if x.ver = d.ver then d.cur else d.old.getD d.cur
      | none => []
    let r := passResult fa fb da db tab st.1 st.2 x.fade (bankVals s.core.mx (mxSrc da))
    writeBank s x (mxDest da) (bankEntries (mxDest da) r.1) r.2 false
  | .mclr b => writeBank s x b.toNat [] 0 true
  | .mlda b _ =>
    writeBank s x b.toNat (bankEntries b.toNat (words32 (x.staged.getD ([], [])).1 4096)) 0 true
  | .mdrain f b rm d factor =>
    let r := drainResult f (rm2 rm) factor (bankVals s.core.mx b.toNat)
    let s := s.writeC s.cur (d.toNat % 2 ^ 19) r.1 x.rin
    let m := s.core.mx
    { s with core := { s.core with mx := { m with bst := if x.bstVoid then m.bst else bstOr m.bst b.toNat (bankBits r.2) } } }
  | .mfade _ _ => s
  | .lutsel _ => s

/-- The SIG tokens whose earlier operations have all ended leave (R185). -/
def sendSigs (s : State) : State :=
  let live (w : Nat) : Bool := s.core.mx.queue.any (fun o => o.id == w)
  let ready := s.core.mx.sigs.filter (fun g => !(g.waits.any live))
  let s := { s with core := { s.core with mx := { s.core.mx with sigs := s.core.mx.sigs.filter (fun g => g.waits.any live) } } }
  ready.foldl (fun s g =>
    emit s g.org g.org.act g.k { kind := 1, len := 2, words := [g.a, 0, 0, 0], psn := 0, stag := g.org.tag, rin := g.org.rin, ch := 0 }) s

/-- Operation x ends: its effect, and its SIG token once those before it have ended. -/
def endOp (s : State) (x : MxOp) : State :=
  let s := opEffect s x
  let m := s.core.mx
  let before := ((m.queue.takeWhile (fun o => o.id != x.id)).map (fun o => o.id))
  let sigs := match x.sig, x.kind with
    | some k, .mdrain _ _ _ d _ => m.sigs ++ [⟨before, x.org, k, BitVec.ofNat 64 (d.toNat % 2 ^ 19)⟩]
    | _, _ => m.sigs
  sendSigs { s with core := { s.core with mx := { m with queue := m.queue.filter (fun o => o.id != x.id), sigs := sigs } } }

/-- The operations that end by this cycle, in queue order. One that finds no undo space waits (R184). -/
def endOps (s : State) (q : List MxOp) : State :=
  match q with
  | [] => s
  | x :: r =>
    match x.began with
    | none => s
    | some b =>
      if s.core.cyc < b + mxLasts x.kind then endOps s r
      else if endHasSpace s x then
        (match s.core.mx.queue.find? (fun o => o.id == x.id) with
        | some x => endOps (endOp s x) r
        | none => endOps s r)
      else
        let p := s.core.sys.part.getD 64
        (if ((mget s.parts p).map (fun q => q.pend)) = some false then (countStall s p).askWave p true else s)

/-- MATRIX_OP_END (R337). -/
def execMatrixOpEnd (s : State) : Out := .next (endOps s s.core.mx.queue)

/-- The energy of a ballast pass at V mV (R359): 80 nJ x (V / 750)^2, in units of 1 / 562,500 nJ. -/
def passEnergy (v : Nat) : Nat := 80 * v * v

/-- BALLAST_PASS (R188, R359): K = 64 on zero E4M3 operands while the queue is empty; the edges are taken for 64 cycles and nothing else of the
tile changes. The pass counts toward the tree's deficit and is charged to house. -/
def execBallastPass (s : State) : Out :=
  let m := s.core.mx
  if s.head.ballast ≠ 0 ∧ m.queue.isEmpty ∧ (m.ballast.all (fun b => decide (b ≤ s.core.cyc))) then
    let i := islandNo s.cur
    let v := (s.island i).v
    .next { s with
      core := { s.core with mx := { m with ballast := some (s.core.cyc + 64) } }
      head := { s.head with ballast := s.head.ballast - passEnergy v, islands := mset s.head.islands i { s.island i with ball := (s.island i).ball + 1 } } }
  else .next s

end Sys2Proof.Machine
end

