-- ==== Sys2Proof/Machine/Engines.lean ====
section
/-!
DEFINITION. The engines at work: address generators and stream ports (R192 to R198), bulk copies and barrier objects (R199 to R202), and the
generators of a memory tile (R205). A transfer has at most one beat under way (notes/assumptions).
-/

namespace Sys2Proof.Machine

open Sys2Proof

-- Patterns (R194)

/-- The length of the run of consecutive addresses from byte n within one 64-byte line, at most k. -/
def apRun (ws : List Word) (n k : Nat) : Nat :=
  let a := apAddr ws n
  let top := min k (64 - a.toNat % 64)
  ((List.range top).takeWhile (fun i => apAddr ws (n + i) == a + BitVec.ofNat 64 i)).length

/-- What an engine of the focus tile writes or sends carries the tile's current interval (R389). -/
def nowOrg (s : State) (o : Origin) : Origin := { o with rin := s.core.recov.rin }

-- Last-beat tokens (R191)

/-- The last-beat token of a transfer, on output k of the actor that started it: word 0 names the transfer, word 1 is 0 or a cause number. -/
def lastBeat (s : State) (org : Origin) (k : BitVec 3) (w0 : Word) (err : Option Cause) : State :=
  let e : Word := BitVec.ofNat 64 ((err.map Cause.code).getD 0)
  emit s org org.act k { lastToken org.rin org.tag w0 e with ch := 0 }

-- Stream ports

/-- Changes port p of the focus tile. -/
def State.modPort (s : State) (p : Nat) (f : Port → Port) : State := { s with core := { s.core with ports := s.core.ports.modify p f } }

/-- A request of a tile that ok accepts is held on a faulting page. -/
def faultHeld (s : State) (ok : Msg → Bool) : Bool := s.recvs.any (fun r => r.2.faults.any (fun f => f.reqs.any ok))

/-- The ports of tile t whose request a page fault holds: each stops the address generator that serves it (R196, R305). -/
def stuckPorts (s : State) (t : Nat) (c : CTile) : Nat :=
  (c.ports.zipIdx.filter (fun q => q.1.active.any (fun b => b.wait && faultHeld s (fun m => m.org.tile == t && (match m.body with
    | .engRead x _ _ => x == .port q.2 b.id
    | .engWrite x _ _ => x == .port q.2 b.id
    | _ => false))))).length

/-- Port p has a beat to move: a generator waits while the buffer of an IN port is full or that of an OUT port is empty (R196). -/
def portWork (s : State) (p : Nat) : Bool :=
  let q := s.port p
  q.active.any (fun b => !b.wait && decide (b.moved < apBytes b.ap) && (if b.out then !q.buf.isEmpty else decide (q.buf.length < 512)))

/-- A write of the focus tile's current interval to the given lines of its own store needs undo slots, and too few are free (R394). -/
def tileFull (s : State) (lines : List Nat) : Bool :=
  let need := s.slotsNeeded s.cur s.core.recov.rin lines
  decide (1024 < s.core.recov.slotsUsed + need) && decide (0 < need)

/-- An engine's write is held for want of undo space (R394): the hold counts once, and note remembers that it has. -/
def engineHold (s : State) (held : Bool) (note : State → State) : State :=
  if held then s
  else
    let p := s.core.sys.part.getD 64
    let s := countStall (note s) p
    if ((mget s.parts p).map (fun q => q.pend)) = some false then s.askWave p true else s

/-- One beat of the active binding of port p (R194, R196). The focus tile's own store is reached at once; other homes by a request. -/
def portBeat (s : State) (p : Nat) : State :=
  let q := s.port p
  match q.active with
  | none => s
  | some b =>
    let total := apBytes b.ap
    if b.wait ∨ total ≤ b.moved then s
    else
      let a := apAddr b.ap b.moved
      let room := if b.out then q.buf.length else 512 - q.buf.length
      let n := apRun b.ap b.moved (min room (total - b.moved))
      let e : Eng := .port p b.id
      let wait (s : State) : State := s.modPort p (fun q => { q with active := some { b with wait := true } })
      if room = 0 then s
      else match addrClass a with
        | .store off =>
          if touchesUndo off n then (wait s).bounce (nowOrg s b.org) (.engData e [] false (some .protection))
          else if b.out then
            let lines := [off / 64]
            if tileFull s lines then engineHold s b.held (fun s => s.modPort p (fun q => { q with active := some { b with held := true } }))
            else
              let s := s.writeC s.cur off (q.buf.take n) s.core.recov.rin
              s.modPort p (fun q => { q.drop n with active := some { b with moved := b.moved + n, held := false } })
          else
            let r := readBytes s s.cur s.cur (tileKey s.cur off) n
            r.2.2.modPort p (fun q => { q.push r.1 r.2.1 with active := some { b with moved := b.moved + n } })
        | _ =>
          if b.out then (wait s).request (nowOrg s b.org) a (fun x => .engWrite e x (q.buf.take n)) (fun c => .engDone e n (some c))
          else (wait s).request (nowOrg s b.org) a (fun x => .engRead e x n) (fun c => .engData e [] false (some c))

/-- The two address generators each serve the next port with work, in round-robin order; one whose port's request a page fault holds stands still
(R196). -/
def serveGens (s : State) : State :=
  let next := s.core.agNext
  let ps := ((((List.range 8).map (fun i => (next + i) % 8)).filter (portWork s)).take (2 - stuckPorts s s.cur s.core))
  let s := ps.foldl portBeat s
  { s with core := { s.core with agNext := match ps.getLast? with
    | some p => (p + 1) % 8
    | none => next } }

/-- The bindings that have moved every byte end next (R197). -/
def portEnds (s : State) : State :=
  (List.range 8).foldl (fun s p =>
    match (s.port p).active with
    | some b => if apBytes b.ap ≤ b.moved then { s with agenda := s.agenda ++ [⟨s.cur, .strmBindingEnd, { Input.none with n := p }⟩] } else s
    | none => s) s

/-- STRM_BINDING_END (R197): port inp.n; its pending binding becomes active, and the SIG token leaves. -/
def execStrmBindingEnd (s : State) : Out :=
  let p := s.inp.n
  match (s.port p).active with
  | none => .next s
  | some b =>
    if b.moved < apBytes b.ap then .next s
    else
      let s := wakeCfgs (s.modPort p (fun q => { q with active := q.pending, pending := none }))
      match b.sig with
      | some k => .next (lastBeat s (nowOrg s b.org) k (BitVec.ofNat 64 p) none)
      | none => .next s

/-- STREAM_ERROR_REPLY (R197): the binding ends in error and so does the pending one; FAULT is set; both send their tokens. What an OUT port still
held is dropped (DESIGN CHOICE, log entry 165). -/
def execStreamErrorReply (s : State) : Out :=
  match takeMsg s (fun b => match b with
    | .engData (.port _ _) _ _ (some _) => true
    | .engDone (.port _ _) _ (some _) => true
    | _ => false) with
  | none => .next s
  | some (m, s) =>
    let fail (p id : Nat) (c : Cause) : Out :=
      match (s.port p).active with
      | none => .next s
      | some b =>
        if b.id ≠ id then .next s
        else
          let tok (s : State) (x : Binding) : State := match x.sig with
            | some k => lastBeat s (nowOrg s x.org) k (BitVec.ofNat 64 p) (some c)
            | none => s
          let pend := (s.port p).pending
          let s := tok (wakeCfgs (s.modPort p (fun q => { q with buf := if b.out then [] else q.buf, active := none, pending := none, fault := true, psn := if b.out then [] else q.psn, lost := b.out }))) b
          .next (match pend with
            | some y => tok s y
            | none => s)
    match m.body with
    | .engData (.port p id) _ _ (some c) => fail p id c
    | .engDone (.port p id) _ (some c) => fail p id c
    | _ => .next s

-- Bulk copies

/-- Changes copy id of the focus tile. -/
def State.modCopy (s : State) (id : Nat) (f : Copy → Copy) : State :=
  { s with core := { s.core with copies := s.core.copies.map (fun x => if x.id = id then f x else x) } }

/-- Where a byte of a tile address stands: the site and the offset, in the focus tile's frame (R290). -/
def placeOf (s : State) (a : Word) : Option (Nat × Nat) :=
  match addrClass a with
  | .store off => some (s.cur, off)
  | .window w off => (neighbour s.cur w).map (fun t => (t, off))
  | .remote t off => some (s.aliasOf t, off)
  | _ => none

/-- The n bytes at offset off of site t become free values, captured as a write of the tile's current interval; those of an undo region, which no copy
reaches, stay as they are (R289, R291). -/
def blurBytes (s : State) (t off n : Nat) : State :=
  let free (s : State) (lo hi : Nat) : State :=
    let bs := (List.range (hi - lo)).map (fun i => Config.freeByte (s.free + i))
    { (if isCTile t then s.writeC t lo bs s.core.recov.rin else s.writeM t lo bs s.core.recov.rin false) with free := s.free + (hi - lo) }
  if isCTile t then free (free s off (min (off + n) 0x60000)) (max off 0x70000) (off + n)
  else free s off (min (off + n) ((48 - (s.mt t).units) * 65536))

/-- Bytes that lie in both ranges of one copy are undefined afterwards, however it ends (R199): free values. -/
def blurOverlap (s : State) (x : Copy) : State :=
  match placeOf s x.src, placeOf s x.dst with
  | some a, some b =>
    if a.1 = b.1 ∧ overlaps a.2 x.len b.2 x.len then blurBytes s a.1 (max a.2 b.2) (min a.2 b.2 + x.len - max a.2 b.2) else s
  | _, _ => s

/-- The receiver of a copy (R200). -/
def copyReceiver (s : State) (dst : Word) : Nat :=
  match addrClass dst with
  | .remote t _ => if isCTile t then t else s.cur
  | _ => s.cur

/-- A copy ends (R199 to R202): every byte performed, or in error; a signalling copy updates its receiver's barrier object. -/
def endCopy (s : State) (x : Copy) (err : Option Cause) : State :=
  let s := wakeCfgs { s with core := { s.core with copies := s.core.copies.filter (fun y => y.id != x.id) } }
  let s := blurOverlap s x
  match x.sig with
  | some b => s.send s.cur (copyReceiver s x.dst) (nowOrg s x.org) (.bobj b err.isSome)
  | none => s

/-- The chunk of a copy at its present place: within one line at either end. -/
def copyChunk (x : Copy) : Nat :=
  let a := x.src + BitVec.ofNat 64 x.moved
  let b := x.dst + BitVec.ofNat 64 x.moved
  min (x.len - x.moved) (min (64 - a.toNat % 64) (64 - b.toNat % 64))

/-- One beat of a copy (R202): it reads its next bytes, or writes those it has read. -/
def copyBeat (s : State) (x : Copy) : State :=
  let n := copyChunk x
  let e : Eng := .copy x.id
  if x.wait then s
  else if x.len ≤ x.moved then endCopy s x none
  else if x.buf.isEmpty then
    let a := x.src + BitVec.ofNat 64 x.moved
    match addrClass a with
    | .store off =>
      if touchesUndo off n then endCopy s x (some .protection)
      else
        let r := readBytes s s.cur s.cur (tileKey s.cur off) n
        r.2.2.modCopy x.id (fun y => { y with buf := r.1 })
    | _ => (s.modCopy x.id (fun y => { y with wait := true })).request (nowOrg s x.org) a (fun b => .engRead e b n) (fun c => .engData e [] false (some c))
  else
    let a := x.dst + BitVec.ofNat 64 x.moved
    match addrClass a with
    | .store off =>
      if touchesUndo off n then endCopy s x (some .protection)
      else if tileFull s [off / 64] then engineHold s x.held (fun s => s.modCopy x.id (fun y => { y with held := true }))
      else
        let s := s.writeC s.cur off x.buf s.core.recov.rin
        let y := { x with moved := x.moved + x.buf.length, buf := [], held := false }
        if x.len ≤ y.moved then endCopy s y none else s.modCopy x.id (fun _ => y)
    | _ => (s.modCopy x.id (fun y => { y with wait := true })).request (nowOrg s x.org) a (fun b => .engWrite e b x.buf) (fun c => .engDone e x.buf.length (some c))

-- Replies to engines

/-- Port q after a reply to the beat of its binding id. -/
def portReply (id : Nat) (r : Payload) (q : Port) : Port :=
  match q.active, r with
  | some b, .engData _ bs p _ =>
    if b.id = id ∧ b.wait then { q.push bs p with active := some { b with wait := false, moved := b.moved + bs.length } } else q
  | some b, .engDone _ n _ => if b.id = id ∧ b.wait then { q.drop n with active := some { b with wait := false, moved := b.moved + n } } else q
  | _, _ => q

/-- A copy after a reply to its beat. -/
def copyReply (r : Payload) (x : Copy) : Copy :=
  match r with
  | .engData _ bs _ _ => { x with wait := false, buf := bs }
  | .engDone _ n _ => { x with wait := false, buf := [], moved := x.moved + n }
  | _ => x

/-- A generator's command after a reply to its beat. -/
def genTaken (r : Payload) (x : Gen) : Gen :=
  match r with
  | .engData _ bs _ _ => { x with wait := false, buf := bs }
  | .engDone _ n _ => { x with wait := false, buf := [], moved := x.moved + n }
  | _ => x

/-- A reply to one of the focus tile's own transfers. -/
def engineReply (s : State) (m : Msg) : State :=
  match m.body with
  | .engData (.port p id) _ _ none => s.modPort p (portReply id m.body)
  | .engDone (.port p id) _ none => s.modPort p (portReply id m.body)
  | .engData (.copy id) _ _ err =>
    (match s.core.copies.find? (fun x => x.id == id) with
    | none => s
    | some x => match err with
      | some c => endCopy s x (some c)
      | none => s.modCopy id (copyReply m.body))
  | .engDone (.copy id) _ err =>
    (match s.core.copies.find? (fun x => x.id == id) with
    | none => s
    | some x =>
      match err with
      | some c => endCopy s x (some c)
      | none =>
        let y := copyReply m.body x
        if x.len ≤ y.moved then endCopy s y none else s.modCopy id (fun _ => y))
  | _ => s

/-- A reply to a beat that was under way at a cut belongs to the cut's record, as the request carries its interval or an earlier one (R219, R398). -/
def noteReply (s : State) (t : Nat) (m : Msg) : State :=
  let tile (c : CTile) : CTile := match m.body with
    | .engData (.port p id) _ _ none => { c with ports := c.ports.modify p (portReply id m.body) }
    | .engDone (.port p id) _ none => { c with ports := c.ports.modify p (portReply id m.body) }
    | .engData (.copy id) _ _ none => { c with copies := c.copies.map (fun x => if x.id = id then copyReply m.body x else x) }
    | .engDone (.copy id) _ none => { c with copies := c.copies.map (fun x => if x.id = id then copyReply m.body x else x) }
    | _ => c
  let gens (l : List Gen) : List Gen := match m.body with
    | .engData (.gen g) _ _ none => l.map (fun x => if x.g.toNat = g ∧ x.wait then genTaken m.body x else x)
    | .engDone (.gen g) _ none => l.map (fun x => if x.g.toNat = g ∧ x.wait then genTaken m.body x else x)
    | _ => l
  s.modPart m.org.part (fun q => { q with cuts := q.cuts.map (fun c =>
    if later m.org.rin (BitVec.ofNat 32 c.1) then c
    else (c.1, { c.2 with tiles := mmod c.2.tiles t tile, gens := mmod c.2.gens t gens })) })

def isEngReply (b : Payload) : Bool :=
  match b with
  | .engData _ _ _ _ => true
  | .engDone _ _ _ => true
  | _ => false

-- Generators of an M-tile

/-- Changes command id of M-tile t's generators. -/
def State.modGen (s : State) (t g : Nat) (f : Gen → Option Gen) : State :=
  let m := s.mt t
  match m.gens.findIdx? (fun x => x.g.toNat == g) with
  | none => s
  | some k =>
    match m.gens[k]? with
    | none => s
    | some x => s.setMt t { m with gens := match f x with
      | some y => m.gens.set k y
      | none => m.gens.eraseIdx k }

/-- What a generator writes or sends carries the current interval of the tile that issued its command (R389). -/
def genOrg (s : State) (x : Gen) : Origin := { x.org with rin := ((s.tile? (s.aliasOf x.tile)).map (fun c => c.recov.rin)).getD x.org.rin }

/-- A generator's command ends (R205): its tile hears of it, and the next command starts. -/
def endGen (s : State) (t : Nat) (x : Gen) (err : Option Cause) : State :=
  let s := s.modGen t x.g.toNat (fun _ => none)
  (wakeCfgs (s.send t x.tile (genOrg s x) (.aggoEnd x.g x.w x.sig err))).due t .engineBeat

/-- Message id has come to its home: it stands in an inbox, at an M-tile or among the writes that wait for undo space. -/
def arrived (s : State) (id : Nat) : Bool :=
  s.inbox.any (fun x => x.2.any (fun m => m.id == id)) || s.waiting.any (fun m => m.id == id) ||
    s.mts.any (fun x => x.2.held.any (fun m => m.id == id) || x.2.input.any (fun m => m.id == id))

/-- A store that the tile committed before it started this command is on its way to another site: no read there goes ahead of it (R192, R319). At the
generator's own M-tile the order of arrival sees to it. -/
def storeAhead (s : State) (t : Nat) (x : Gen) : Bool :=
  ((s.tile? (s.aliasOf x.tile)).map (fun c => c.ch.perf.any (fun p => decide (p.id < x.cmd) && !(c.ch.sc.any (fun o => o.id == p.id)) && (match addrClass p.a with
    | .window w _ => neighbour x.tile w != some t
    | .remote u _ => u != t
    | _ => false) && !(arrived s p.id)))).getD false

/-- One beat of generator g of M-tile t: addresses are read in the issuing tile's frame (R205). -/
def genBeat (s : State) (t : Nat) (x : Gen) : State :=
  let n := min (apRun x.src x.moved (apBytes x.src - x.moved)) (apRun x.dst x.moved (apBytes x.dst - x.moved))
  let e : Eng := .gen x.g.toNat
  let wait (s : State) : State := s.modGen t x.g.toNat (fun y => some { y with wait := true })
  if x.wait then s
  else if apBytes x.src ≤ x.moved then endGen s t x none
  else if x.buf.isEmpty then
    if storeAhead s t x then s
    else (wait s).requestFrom t x.tile (genOrg s x) (apAddr x.src x.moved) (fun b => .engRead e b n) (fun c => .engData e [] false (some c))
  else
    (wait s).requestFrom t x.tile (genOrg s x) (apAddr x.dst x.moved) (fun b => .engWrite e b x.buf) (fun c => .engDone e x.buf.length (some c))

/-- A reply to a generator of M-tile t. -/
def genReply (s : State) (t : Nat) (m : Msg) : State :=
  let gen (g : Nat) : Option Gen := (s.mt t).gens.find? (fun x => x.g.toNat == g)
  match m.body with
  | .engData (.gen g) _ _ err =>
    (match gen g with
    | none => s
    | some x => match err with
      | some c => endGen s t x (some c)
      | none => s.modGen t g (fun y => some (genTaken m.body y)))
  | .engDone (.gen g) n err =>
    (match gen g with
    | none => s
    | some x => match err with
      | some c => endGen s t x (some c)
      | none =>
        if apBytes x.src ≤ x.moved + n then endGen s t x none
        else s.modGen t g (fun y => some (genTaken m.body y)))
  | _ => s

/-- The command that each generator runs: the oldest of its own. -/
def genBeats (s : State) (t : Nat) : State :=
  (List.range 4).foldl (fun s g =>
    match (s.mt t).gens.find? (fun x => x.g.toNat == g) with
    | some x => genBeat s t x
    | none => s) s

/-- The engines of the tile are stopped: its region's context is being saved or is saved (R219). -/
def enginesStopped (s : State) (t : Nat) : Bool :=
  match s.siteRegion t with
  | none => false
  | some k => match mget s.regions k with
    | some r => r.st == .suspended
    | none => false

/-- ENGINE_BEAT (R192, R194, R202, R205): a reply to a transfer of the step's agent is taken; otherwise each of its running transfers moves
its next beat of up to 64 bytes. -/
def execEngineBeat (s : State) : Out :=
  let t := s.agent
  match takeMsg s isEngReply with
  | some (m, s) =>
    let s := noteReply s t m
    .next (if t = s.cur then portEnds (engineReply s m) else (genReply s t m).due t .engineBeat)
  | none =>
    if enginesStopped s t then .next s
    else if t = s.cur then
      let s := serveGens s
      .next (portEnds (s.core.copies.foldl copyBeat s))
    else .next (genBeats s t)

/-- AGGO_DONE (R205): generator g of window w of the focus tile is free again; a SIG token leaves. -/
def execAggoDone (s : State) : Out :=
  match takeMsg s (fun b => match b with
    | .aggoEnd _ _ _ _ => true
    | _ => false) with
  | none => .next s
  | some (m, s) =>
    match m.body with
    | .aggoEnd g w sig err =>
      let n := 4 * w.toNat + g.toNat
      let s := { s with core := { s.core with aggs := s.core.aggs.erase n } }
      (match sig with
      | some k => .next (lastBeat s (nowOrg s m.org) k (BitVec.ofNat 64 n) err)
      | none => .next s)
    | _ => .next s

-- Barrier objects (R200, R201)

/-- The object after one update: its new 16 bytes, and the GEN of a completion with the channel that hears of it. -/
def bobjUpdate (old : Nat) (err : Bool) : Nat × Option (BitVec 6 × Word) :=
  let arr := (old + 1) % 2 ^ 32
  let ex := old / 2 ^ 32 % 2 ^ 32
  let gen := old / 2 ^ 64 % 2 ^ 32
  let hi := old / 2 ^ 96 * 2 ^ 96
  let hi := if err ∧ old / 2 ^ 104 % 2 = 0 then hi + 2 ^ 104 else hi
  if ex ≠ 0 ∧ arr = ex then
    let gen := (gen + 1) % 2 ^ 32
    (hi + gen * 2 ^ 64 + ex * 2 ^ 32, if old / 2 ^ 105 % 2 = 1 then some (BitVec.ofNat 6 (old / 2 ^ 106), BitVec.ofNat 64 gen) else none)
  else (hi + gen * 2 ^ 64 + ex * 2 ^ 32 + arr, none)

/-- BARRIER_OBJECT_UPDATE (R201): one indivisible update; it waits for undo space (R394). -/
def execBarrierObjectUpdate (s : State) : Out :=
  match takeMsg s (fun b => match b with
    | .bobj _ _ => true
    | _ => false) with
  | none => .next s
  | some (m, s) =>
    match m.body with
    | .bobj b err =>
      let off := 0x7FC00 + 16 * b.toNat
      let need := s.slotsNeeded s.cur m.org.rin [off / 64]
      if decide (1024 < s.core.recov.slotsUsed + need) && decide (0 < need) then
        .next { countStall s (s.core.sys.part.getD 64) with waiting := s.waiting ++ [m] }
      else
        let r := bobjUpdate (leNat (s.bytes (tileKey s.cur off) 16)) err
        let s := s.writeC s.cur off (leBytes 16 r.1) m.org.rin
        (match r.2 with
        | none => .next s
        | some (ch, gen) =>
          .next (acceptToken (noteArrival s) ch.toNat { lastToken m.org.rin 0 (BitVec.ofNat 64 off) gen with ch := ch }))
    | _ => .next s

end Sys2Proof.Machine
end

