-- ==== Sys2Proof/Machine/Interfaces.lean ====
section
/-!
DEFINITION. The interfaces that translate (R298 to R307, R373, R374): requests at virtual addresses, walks, page faults, recovery classes, the
outbound hold queues (R15, R304, R322), cached lines (R302), shore actor ports (R306), and host output streams (R438).
-/

namespace Sys2Proof.Machine

open Sys2Proof

-- Notices of interfaces

/-- A notice of interface or M-tile a for the supervisor of a tile (R238, R364, R381). -/
def ifNotice (s : State) (a part tile : Nat) (cause : Cause) (use : Option Use) (info : BitVec 32) (detail : Word) : State :=
  let rin := s.oldest part
  let w := trapWords (BitVec.ofNat 64 tile) ⟨0, cause, use, info, detail, false, false⟩ 0 true false 0
  let n : Notice := ⟨w, 0, 0, rin, none, false, false⟩
  if (supvOf s n).toNat % 2 ^ 16 = 0xFFFF then faultRecord s part w 4 rin
  else if 8 ≤ (noticesOf s a).length then faultRecord s part w 1 rin
  else faultRecord (setNotices s a (noticesOf s a ++ [n])) part w 0 rin

-- Undo at a shore stack (R391, R392, R394)

/-- Undo slots of a stack: fifteen sixteenths of its undo region, 64 bytes a slot. -/
def State.shoreSlots (s : State) : Nat := s.stackUndo * 15 / 1024

/-- A LOGGED write of partition p's interval i to one line: a slot it needs, if none is held for the line in i or later. -/
def shoreNeeds (r : Recv) (p : Nat) (i : BitVec 32) (line : Nat) : Bool :=
  !(r.undo.any (fun u => u.line == line && u.part == p && (u.rin == i || later u.rin i)))

/-- Captures the line of a write of partition p at stack home a (R392): the first write of an interval; a late write also goes into the later slot. -/
def shoreCapture (s : State) (a p : Nat) (i : BitVec 32) (l : Nat × Nat × List Byte) : State :=
  let r := s.recv a
  let late (u : UndoSlot) : Bool := u.line == l.1 && u.part == p && later u.rin i
  if r.undo.any late then
    s.setRecv a { r with undo := r.undo.map (fun u => if late u then { u with old := patchLine u.old l.2.2 l.2.1 } else u) }
  else if shoreNeeds r p i l.1 then
    s.setRecv a { r with undo := r.undo ++ [⟨i, l.1, s.bytes (64 * l.1) 64, [], mget s.lineKey l.1, p⟩] }
  else s

/-- Partition p has rolled back since it was created: lines of VOLATILE pages are undefined until they are written (R304). -/
def rolledBack (s : State) (p : Nat) : Bool := ((mget s.parts p).map (fun q => q.rbk != 0)).getD false

/-- The lines of a write of partition p through a leaf of another class than VOLATILE: they bear data, which a VOLATILE page of those lines does
not lose (R304). -/
def volLeave (s : State) (a p : Nat) (ls : List Nat) : State :=
  let r := s.recv a
  let new := if rolledBack s p then ls else ls.filter (fun x => (mget r.vols x).isSome)
  if new.isEmpty then s else s.setRecv a { r with vols := new.foldl (fun m x => mset m x false) r.vols }

/-- The same at the home of a shore line (R302); host memory has none. -/
def volWritten (s : State) (k p n : Nat) : State :=
  if shoreKey 0 ≤ k ∧ k < hostKey 0 then volLeave s (shoreIf ((k - shoreKey 0) / 2 ^ 36 % 32)) p (linesOf k n) else s

-- Outbound hold queues (R304, R322, R438)

/-- Interval i of partition p has sealed (R386). -/
def State.sealedIn (s : State) (p : Nat) (i : BitVec 32) : Bool :=
  match mget s.parts p with
  | none => true
  | some q => decide (0 ≤ (q.sealed - i).toInt)

/-- The host port of an interface is up; a shore actor needs none. -/
def State.portUp (s : State) (a : Nat) : Bool := decide (a < 0x10050) || ((s.ports[a - 0x10050]?).map HostPort.up).getD false

/-- A held write is performed; that of a queue entry advances the queue's TAIL (R438). -/
def performHeld (s : State) (h : Held) : State :=
  let s := match h.encKey with
    | some e => encWrite (volWritten s h.key h.part h.bytes.length) h.key h.bytes e
    | none => s.puts h.key h.bytes
  match h.queue with
  | some q => { s with queues := mmod s.queues q (fun x => { x with tail := x.tail + 1 }) }
  | none => s

/-- Interface a performs the held writes of sealed intervals, all of one interval before any of the next and in queue order within it (R322); those
of a port that is down wait (R438). -/
def releaseHeld (s : State) (a : Nat) : State :=
  if s.portUp a then
    let r := s.recv a
    let go := r.hold.filter (fun h => s.sealedIn h.part h.rin)
    (go.insertionSort (fun x y => later x.rin y.rin = false)).foldl performHeld (s.setRecv a { r with hold := r.hold.filter (fun h => !s.sealedIn h.part h.rin) })
  else s

/-- A write enters the hold queue of interface a. -/
def holdWrite (s : State) (a : Nat) (h : Held) : State := releaseHeld (s.setRecv a { s.recv a with hold := (s.recv a).hold ++ [h] }) a

/-- What the held writes make of bytes read at key k (R304). -/
def heldOver (r : Recv) (k : Nat) (bs : List Byte) : List Byte :=
  fillBytes (r.hold.foldl (fun o h => overlay k (h.key, h.bytes) o) (bs.map some)) bs

-- Cached lines (R296, R302)

/-- The members of CACHE subset n of partition p, by tile ID and then segment number. -/
def cacheMembers (s : State) (p n : Nat) : List (Nat × Nat) :=
  (s.mts.filter (fun m => s.mPart m.1 == p)).flatMap (fun m =>
    (m.2.segs.zipIdx.filter (fun g => g.1.mode == .cache && g.1.param == n)).map (fun g => (m.1, g.2)))

/-- The Manhattan distance between two sites. -/
def siteDist (t u : Nat) : Nat :=
  (tileX t - tileX u) + (tileX u - tileX t) + ((tileY t - tileY u) + (tileY u - tileY t))

/-- The least member by distance from tile t, the first among equals. -/
def nearest (t : Nat) (l : List (Nat × Nat)) : Option (Nat × Nat) :=
  l.foldl (fun b m => match b with
    | none => some m
    | some x => if siteDist m.1 t < siteDist x.1 t then some m else some x) none

/-- The bank that a leaf's PLC names for a shore line (R302). -/
def bankFor (s : State) (l : CLeaf) (pa : Nat) : Option (Nat × Nat) :=
  let ms := cacheMembers s l.part l.sub
  match l.plc.toNat with
  | 0 => ms[pa / 64 % (max ms.length 1)]?
  | 1 => ms.head?
  | 2 => l.bank.filter (fun b => decide (b ∈ ms))
  | _ => none

/-- Changes segment g of M-tile t without undo capture: what a CACHE segment holds is no program state. -/
def modLines (s : State) (t g : Nat) (f : List (Nat × Nat × Bool) → List (Nat × Nat × Bool)) : State :=
  s.setMt t { s.mt t with segs := (s.mt t).segs.modify g (fun x => { x with lines := f x.lines }) }

/-- An access to shore line pa / 64 passes its bank (R302): a read that no bank holds fills the line into the leaf's bank; a write marks the
bank's copy dirty. A full bank writes its oldest line back. The line's bytes are those of the stack's key throughout (notes/assumptions). -/
def touchBank (s : State) (l : CLeaf) (pa : Nat) (wr : Bool) : State :=
  let line := pa / 64
  let home := shoreIf (pa / 2 ^ 36 % 32)
  let r := s.recv home
  match r.dir.find? (fun d => d.1 == line) with
  | some d => if wr then modLines s d.2.1 d.2.2 (fun ls => ls.map (fun x => if x.1 = line then (x.1, x.2.1, true) else x)) else s
  | none =>
    if wr then s
    else match bankFor s l pa with
      | none => s
      | some b =>
        let ls := (((s.mt b.1).segs[b.2]?).map Segment.lines).getD []
        let cap := (((s.mt b.1).segs[b.2]?).map Segment.bytes).getD 0 / 64
        let drop := if cap ≤ ls.length then ls.take (ls.length + 1 - cap) else []
        let s := modLines (s.setRecv home { r with dir := r.dir ++ [(line, b.1, b.2)] }) b.1 b.2 (fun ls => ls.drop drop.length ++ [(line, 0, false)])
        if drop.isEmpty then s else tidyDirs s

-- Requests

/-- The address, access (00 read, 01 write, 10 atomic; R373) and byte count of a request at a virtual address. -/
def virtReq (b : Payload) : Option (Word × BitVec 2 × Nat) :=
  match b with
  | .engRead _ a n => some (a, 0, n)
  | .engWrite _ a bs => some (a, 1, bs.length)
  | .irst a _ => some (a, 1, 8)
  | .atomic a _ dbl _ _ _ => some (a, 2, if dbl then 8 else 4)
  | .shoreTok _ t =>
    let c := ((t.words[1]?).getD 0).toNat
    some ((t.words[0]?).getD 0, BitVec.ofNat 2 (c % 4), 8 * (c / 4 % 8 + 1))
  | _ => none

/-- The partition of a request. -/
def reqPart (m : Msg) : Nat :=
  match m.body with
  | .shoreTok port _ => port / 4
  | _ => m.org.part

/-- Returns one credit to the producer of a channel that ends at an interface (R276). -/
def creditSource (s : State) (a : Nat) (src : Source) (org : Origin) : State :=
  match src with
  | .port t act k => s.send a t org (.credit act k)
  | .border t c => s.send a t org (.borderCredit c)
  | _ => s

/-- A shore actor's reply to the request at the head of a port (R306): it leaves on the reply port, and the request's slot is freed. -/
def shoreReply (s : State) (a port : Nat) (t : Token) : State :=
  let r := s.recv a
  let org : Origin := { s.origin 0 0 with tile := a, part := port / 4, rin := t.rin }
  let s := match mget r.outs port with
    | none => s
    | some o =>
      sendOver (s.setRecv a { r with outs := mset r.outs port { o with credits := o.credits - 1, pos := o.pos + 1 } }) a org o.dest o.pos t
  match mget (s.recv a).ins port with
  | none => s
  | some i => creditSource (s.setRecv a { s.recv a with ins := mset (s.recv a).ins port { i with queue := i.queue.drop 1, taken := 0 } }) a i.src org

/-- A LAST reply with a cause number, 0 for none (R306, R365). -/
def shoreLast (s : State) (a port : Nat) (t : Token) (code : Nat) : State :=
  shoreReply s a port (lastToken t.rin 0 ((t.words[0]?).getD 0) (BitVec.ofNat 64 code))

/-- Answers a virtual request with an error. -/
def virtErr (s : State) (a : Nat) (m : Msg) (c : Cause) : State :=
  match m.body with
  | .shoreTok port t => shoreLast s a port t c.code
  | _ => answerErr s m c

/-- Where the leaf is reached: at a host port its frame is a host bus address (R301). A request keeps the span entry by which it was sent (R439); one
from another module is sent on by this one's. -/
def kindAt (a : Nat) (p : PartMem) (v : Nat) : Option IfKind :=
  if 0x10050 ≤ a then some .host
  else if a < 0x10020 then some .shore
  else match spanOf p v with
    | .shore _ => some .shore
    | .host _ => some .host
    | _ => none

/-- Free bytes in each of the given lines: their contents are undefined (R14, R304). -/
def blurLines (ls : List Nat) (s : State) : State :=
  ls.foldr (fun x s => { (s.puts (64 * x) ((List.range 64).map (fun i => Config.freeByte (s.free + i)))) with free := s.free + 64 }) s

/-- The lines of an access through a leaf of class VOLATILE at home a: once partition p has rolled back, a line not accessed so since then is
undefined (R14, R304). wr: the access writes. -/
def volTouch (s : State) (a p : Nat) (ls : List Nat) (wr : Bool) : State :=
  let r := s.recv a
  let new := ls.filter (fun x => (mget r.vols x).isNone)
  let again := rolledBack s p
  let s := s.setRecv a { r with vols := ls.foldl (fun m x => if wr || (mget m x).isNone then mset m x true else m) r.vols }
  if again then blurLines new s else s

/-- The interface whose hold queue takes a write through an EXTERNAL leaf (R304, R311): the line's home, or the host port. -/
def holdHome (a : Nat) (kind : IfKind) (pa : Nat) : Nat := if kind = .shore then shoreIf (pa / 2 ^ 36 % 32) else a

/-- Writes bytes through a leaf at physical address pa, by its recovery class (R304); none: no undo slot is free (R394). -/
def classWrite (s : State) (a : Nat) (kind : IfKind) (l : CLeaf) (pa : Nat) (bs : List Byte) (rin : BitVec 32) : Option State :=
  let k := if kind = .shore then shoreKey pa else hostKey pa
  match l.rcl.toNat with
  | 0 =>
    let home := shoreIf (pa / 2 ^ 36 % 32)
    let ls := partsOf k bs
    let need := (ls.filter (fun x => shoreNeeds (s.recv home) l.part rin x.1)).length
    if 0 < need ∧ s.shoreSlots < (s.recv home).undo.length + need then none
    else
      let s : State := encWrite (ls.foldl (fun s x => shoreCapture s home l.part rin x) (volLeave s home l.part (ls.map (fun x => x.1)))) k bs l.key
      let full := decide (3 * s.shoreSlots ≤ 4 * (s.recv home).undo.length) && (((mget s.parts l.part).map Partition.pend) == some false)
      some (if full then s.askWave l.part true else s)
  | 1 => some (holdWrite s (holdHome a kind pa) ⟨rin, l.part, k, bs, some l.key, none⟩)
  | _ => some (encWrite (volTouch s (shoreIf (pa / 2 ^ 36 % 32)) l.part (linesOf k bs.length) true) k bs l.key)

/-- Reads n bytes through a leaf for tile t (R304, R368): held bytes first; an uncorrectable error poisons and is raised. -/
def classRead (s : State) (a t : Nat) (kind : IfKind) (l : CLeaf) (pa n : Nat) : List Byte × Bool × State :=
  let k := if kind = .shore then shoreKey pa else hostKey pa
  let s := if l.rcl = 2 then volTouch s (shoreIf (pa / 2 ^ 36 % 32)) l.part (linesOf k n) false else s
  let bs := heldOver (s.recv (holdHome a kind pa)) k (encBytes s k n l.key)
  match s.isBad k n with
  | none => (bs, false, s)
  | some x => (bs, true, raiseBad s a t x)

/-- Which of n words of a token are poisoned. -/
def poisoned (t : Token) (i n : Nat) : Bool := (List.range n).any (fun j => t.psn.getLsbD (i + j))

/-- Where a repeated STORE use of a request or of a stream position is known again (R370). -/
def usePlace (a port pos : Nat) : Nat := 2 ^ 80 + (a * 2 ^ 20 + port) * 2 ^ 40 + pos

/-- A STORE use of a poisoned word in a committed token (R306, R369, R370): a rollback the first time (left); in the replay, a notice. -/
def storeUse (s : State) (a part tile place : Nat) : State ⊕ State :=
  let w := trapWords (BitVec.ofNat 64 tile) ⟨0, .poisonUse, some .store, 0, 0, false, false⟩ 0 true false 0
  match raiseClassB s part .poisonUse place w (s.oldest part) with
  | some s' => .inl s'
  | none => .inr (ifNotice s a part tile .poisonUse (some .store) 0 0)

/-- The tile that the requests of a shore request port come from. -/
def portTile (s : State) (a port : Nat) : Nat :=
  match (mget (s.recv a).ins port).map (fun i => i.src) with
  | some (Source.port t _ _) => t
  | some (Source.border t _) => t
  | _ => 0

/-- The tile that made a request. -/
def reqTile (s : State) (a : Nat) (m : Msg) : Nat :=
  match m.body with
  | .shoreTok port _ => portTile s a port
  | _ => m.org.tile

/-- A shore port WRITE of n words at pa (R306). -/
def shoreWrite (s : State) (a port : Nat) (t : Token) (l : CLeaf) (pa n pos : Nat) : Option State :=
  let word (j : Nat) : List Byte := leBytes 8 ((t.words[2 + j]?).getD 0).toNat
  let put (j : Nat) (o : Option State) : Option State :=
    o.bind (fun s => if t.psn.getLsbD (2 + j) then some s else classWrite s a .shore l (pa + 8 * j) (word j) t.rin)
  let wr (s : State) : Option State := (List.range n).foldl (fun s j => put j s) (some s)
  if poisoned t 2 n then
    match storeUse s a (port / 4) (portTile s a port) (usePlace a port pos) with
    | .inl s => some s
    | .inr s => (wr s).map (fun s => shoreLast s a port t (Cause.code .poisonUse))
  else (wr s).map (fun s => shoreLast s a port t 0)

/-- A translated request is performed at its home (R302 to R307); none: it must wait for undo space. -/
def performVirt (s : State) (a : Nat) (m : Msg) (kind : IfKind) (l : CLeaf) (v : Nat) : Option State :=
  let pa := l.pa + (v - l.base)
  if s.keyUsable l.key = false then some (virtErr s a m .protection)
  else if kind = .shore ∧ s.head.hbmok.getLsbD (pa / 2 ^ 36 % 32) = false then some (virtErr s a m .nodeDead)
  else
    let touch (wr : Bool) (s : State) : State := if kind = .shore then touchBank s l pa wr else s
    match m.body with
    | .engRead _ _ n =>
      let r := classRead (touch false s) a m.org.tile kind l pa n
      some (answerData r.2.2 m r.1 r.2.1)
    | .engWrite _ _ bs => (classWrite s a kind l pa bs m.org.rin).map (fun s => answerDone (touch true s) m)
    | .irst _ d =>
      if kind = .shore ∧ l.rcl ≠ 1 then some (answerErr s m .irstClass)
      else
        let k := if kind = .shore then shoreKey pa else hostKey pa
        let s := encWrite (volWritten (touch true s) k l.part 8) k (leBytes 8 d.toNat) l.key
        some (answerDone s m)
    | .atomic _ op dbl x cas ret =>
      let r := classRead (touch false s) a m.org.tile kind l pa (if dbl then 8 else 4)
      let w : Option State := match atomBytes op dbl r.1 x cas with
        | some bs => (classWrite r.2.2 a kind l pa bs m.org.rin).map (touch true)
        | none => some r.2.2
      w.map (fun s => if ret then s.answer m (.atomReply (BitVec.ofNat 64 (leNat r.1)) none) else answerDone s m)
    | .shoreTok port t =>
      let n := ((t.words[1]?).getD 0).toNat / 4 % 8 + 1
      if ((t.words[1]?).getD 0).getLsbD 0 then (shoreWrite s a port t l pa n m.id).map (touch true)
      else
        let r := classRead (touch false s) a (portTile s a port) .shore l pa (8 * n)
        let psn : BitVec 4 := (List.range n).foldl (fun p j => if (s.isBad (shoreKey (pa + 8 * j)) 8).isSome then p ||| (1#4 <<< j) else p) 0
        some (shoreReply r.2.2 a port { kind := 0, len := n, words := wordsOf r.1 n ++ List.replicate (4 - n) 0, psn := psn, stag := 0, rin := t.rin, ch := 0 })
    | _ => some s

-- Translation caches, walks and faults (R305, R373)

def leafCap (a : Nat) : Nat := if a < 0x10020 then 4096 else 1024
def walkCap (a : Nat) : Nat := if a < 0x10020 then 256 else 64

/-- Requests that occupy the miss queue of 1,024 entries: those waiting for a walk, and those held on faulting pages (R373). -/
def missLoad (r : Recv) : Nat := r.missq.length + (r.faults.map (fun f => f.reqs.length)).sum

/-- Requests of partition p held on faulting pages. -/
def faultLoad (r : Recv) (p : Nat) : Nat := ((r.faults.filter (fun f => f.part == p)).map (fun f => f.reqs.length)).sum

/-- A cached leaf covers partition virtual address v. -/
def CLeaf.covers (l : CLeaf) (p v : Nat) : Bool := l.part == p && decide (l.base ≤ v ∧ v < l.base + 2 ^ l.bits)

/-- The leaf lets an access through (R301). -/
def CLeaf.permits (l : CLeaf) (acc : BitVec 2) : Bool := if acc = 0 then l.r else if acc = 1 then l.w else l.r && l.w

/-- INFO of a PAGE_FAULT notice (R373): WHY at 43:42, ACC at 41:40, IFN at 39:34, IFK at 33:32 of word 1. -/
def faultInfo (a : Nat) (why acc : BitVec 2) : BitVec 32 :=
  let ifn := if a < 0x10020 then a - 0x10000 else if a < 0x10050 then a - 0x10020 else a - 0x10050
  let ifk := if a < 0x10020 then 0 else if a < 0x10050 then 2 else 1
  BitVec.ofNat 32 (why.toNat * 2 ^ 10 + acc.toNat * 2 ^ 8 + ifn * 4 + ifk)

/-- Requests that the interface cannot hold stay with their senders, at the head of its input; a shore port's request waits in its port (R373). -/
def returnReqs (s : State) (a : Nat) (ms : List Msg) : State :=
  ms.foldr (fun m s => match m.body with
    | .shoreTok port _ => s.setRecv a { s.recv a with ins := mmod (s.recv a).ins port (fun i => { i with taken := 0 }) }
    | _ => { s with inbox := mset s.inbox a (m :: mgetD s.inbox a []) }) s

/-- How many more requests of partition p the interface may hold on faulting pages (R373). -/
def faultRoom (r : Recv) (p : Nat) : Nat := min (256 - faultLoad r p) (1024 - missLoad r)

/-- A page enters the fault table with the requests that it may hold, and sends one notice (R373); with the table full, the walk keeps its slot. -/
def enterFault (s : State) (a : Nat) (w : PageWait) (why : BitVec 2) : State :=
  let r := s.recv a
  if 64 ≤ r.faults.length then s.setRecv a { r with walks := r.walks ++ [{ w with why := why, noticed := true }] }
  else
    let n := faultRoom r w.part
    let s := returnReqs (s.setRecv a { r with faults := r.faults ++ [{ w with reqs := w.reqs.take n, why := why, noticed := true }] }) a (w.reqs.drop n)
    match w.reqs with
    | [] => s
    | m :: _ =>
      (match virtReq m.body with
      | some x => ifNotice s a w.part (reqTile s a m) .pageFault none (faultInfo a why x.2.1) x.1
      | none => s)

/-- A request waits at the interface input, with its leaf, behind those that wait for undo space. -/
def waitLate (s : State) (a : Nat) (m : Msg) (kind : IfKind) (l : CLeaf) : State :=
  s.setRecv a { s.recv a with late := (s.recv a).late ++ [⟨m, kind == .host, l⟩] }

/-- Some request waits at the input of interface a. -/
def inputBlocked (s : State) (a : Nat) : Bool := !(s.recv a).late.isEmpty

/-- The requests that wait at the input of interface a are tried again in order, each under its leaf, until one finds no undo slot (R305, R394). -/
def retryLate (s : State) (a : Nat) : State :=
  ((s.recv a).late.foldl (fun (x : State × Bool) y =>
    if x.2 then x
    else match virtReq y.m.body with
      | none => (x.1.setRecv a { x.1.recv a with late := (x.1.recv a).late.drop 1 }, false)
      | some r => (match performVirt (x.1.setRecv a { x.1.recv a with late := (x.1.recv a).late.drop 1 }) a y.m (if y.host then .host else .shore) y.leaf
          (r.1.toNat - 0x0100000000000000) with
        | some s => (s, false)
        | none => (x.1, true))) (s, false)).1

-- The page of an address (R300, R305)

/-- The size of the page that holds v: the level of its leaf (R300). -/
def leafBits (s : State) (p : PartMem) (v : Nat) : Nat :=
  let t4 := p.root.toNat / 4096 % 2 ^ 30 * 4096
  let e (t sh bits : Nat) : Nat := leNat (s.bytes (shoreKey (t + v / 2 ^ sh % 2 ^ bits * 8)) 8)
  let t3 := e t4 48 9 / 256 % 2 ^ 34 * 256
  let t2 := e t3 39 9 / 256 % 2 ^ 34 * 256
  let e2 := e t2 30 9
  if e2 / 8 % 2 = 1 then 30 else if e (e2 / 256 % 2 ^ 34 * 256) 21 9 / 8 % 2 = 1 then 21 else 16

/-- The number of the 64 KiB page at which the page of v begins: requests to one page, whatever its size, have it in common (R305). -/
def pageNo (s : State) (p : PartMem) (v : Nat) : Nat := v / 2 ^ leafBits s p v * 2 ^ leafBits s p v / 65536

/-- A handler's request: it is applied in the order in which its tile sent it (R312). -/
def handlerReq (b : Payload) : Bool :=
  match b with
  | .irst _ _ => true
  | .atomic _ _ _ _ _ _ => true
  | _ => false

/-- The home of partition p's address a, where its page is in a stack: the stack, by the tables as they stand, or none while the page faults (R302). -/
def stackOf (s : State) (p : Nat) (a : Word) : Option (Option Nat) :=
  match mget s.parts p with
  | none => none
  | some q =>
    let v := a.toNat - 0x0100000000000000
    match addrClass a, spanOf q.mem v with
    | .virt _, .shore _ => some (match walk s q.mem .shore v with
      | .leaf l => some (l.pa / 2 ^ 36 % 32)
      | .fault _ => none)
    | _, _ => none

/-- An answer to message id is on its way: its home has performed it. -/
def answeredId (s : State) (id : Nat) : Bool :=
  let is (m : Msg) : Bool := m.id == id && (match m.body with
    | .atomReply _ _ => true
    | .report _ _ => true
    | _ => false)
  s.net.any is || s.inbox.any (fun x => x.2.any is) || s.fabric.ifs.any (fun i => i.2.retry.any (fun r => is r.2.2))

/-- The handler requests of m's tile that no home has performed, as far as the tile knows: identity, invocation and address. -/
def openReqs (s : State) (m : Msg) : List (Nat × Nat × Word) :=
  match s.tile? (s.aliasOf m.org.tile) with
  | none => []
  | some c =>
    let owed (l : Level) : List (Nat × Nat × Word) := match l.blk, l.inv with
      | some b, some i => (b.owed.filter (fun o => o.lsid.isSome)).map (fun o => (o.id, i.id, o.a))
      | _, _ => []
    c.ch.perf.map (fun p => (p.id, p.inv, p.a)) ++ owed c.l0 ++ owed c.l1

/-- m is a handler's request to the given stack, and its tile sent an earlier one to the same home through whichever actor, which is still to be
performed; or the invocation sent one whose page faults, so that its home is not known yet (R131, R302, R312). -/
def behindHome (s : State) (m : Msg) (home : Nat) : Bool :=
  handlerReq m.body && decide (m.src < 0x10000) && (openReqs s m).any (fun x => decide (x.1 < m.id) && (match stackOf s m.org.part x.2.2 with
    | some (some h) => h == home
    | some none => x.2.1 == m.org.inv
    | none => false) && !(answeredId s x.1))

/-- A request that leaf l forbids finds no place: its partition holds what it may, or neither the fault table nor a walk slot has room (R373). -/
def noFaultRoom (a : Nat) (r : Recv) (l : CLeaf) : Bool :=
  faultRoom r l.part == 0 ||
    (decide (64 ≤ r.faults.length ∧ walkCap a ≤ r.walks.length) && !(r.faults.any (fun f => f.part == l.part && f.page == l.base / 65536)))

/-- A request with its leaf: performed, or its page faults because the leaf forbids the access (R301). One that finds no undo slot waits at the input,
counts one STALL and lets nothing pass (R394); one that an earlier request to its home goes ahead of waits with the misses. -/
def useLeaf (s : State) (a : Nat) (m : Msg) (kind : IfKind) (l : CLeaf) (v : Nat) (acc : BitVec 2) : State :=
  let r := s.recv a
  if l.permits acc then
    (if kind = .shore ∧ behindHome s m ((l.pa + (v - l.base)) / 2 ^ 36 % 32) then s.setRecv a { r with missq := r.missq ++ [m] }
     else if inputBlocked s a then waitLate s a m kind l
     else match performVirt s a m kind l v with
      | some s => s
      | none => countStall (waitLate s a m kind l) (reqPart m))
  else
    let page := l.base / 65536
    if noFaultRoom a r l then returnReqs s a [m]
    else if r.faults.any (fun f => f.part == l.part && f.page == page) then
      s.setRecv a { r with faults := r.faults.map (fun f => if f.part = l.part ∧ f.page = page then { f with reqs := f.reqs ++ [m] } else f) }
    else enterFault s a ⟨l.part, page, 0, [m], false, 1⟩ 1

/-- An earlier request of m's tile waits for its walk, or one of m's invocation on a faulting page: m, a handler's request, waits behind it (R131,
R312). -/
def behindEarlier (r : Recv) (m : Msg) : Bool :=
  let before (x : Msg) : Bool := handlerReq x.body && x.org.tile == m.org.tile
  handlerReq m.body && (r.missq.any before || r.walks.any (fun w => w.reqs.any before) ||
    r.faults.any (fun w => w.reqs.any (fun x => before x && x.org.inv == m.org.inv)))

/-- A request at its receiving interface (R305, R307, R373): none when it must wait at the input or in its sender's retry buffer. -/
def serveVirt (s : State) (a : Nat) (m : Msg) : Option State :=
  match virtReq m.body, mget s.parts (reqPart m) with
  | none, _ => some s
  | _, none => some (virtErr s a m .protection)
  | some (ad, acc, _), some q =>
    let p := reqPart m
    let v := ad.toNat - 0x0100000000000000
    if ad.toNat < 0x0100000000000000 ∨ 2 ^ 57 ≤ v then some (virtErr s a m .protection)
    else match kindAt a q.mem v with
      | none => some (virtErr s a m .protection)
      | some kind =>
        if kind = .host ∧ acc = 2 then some (virtErr s a m .segmentMode)
        else
          let r := s.recv a
          let page := pageNo s q.mem v
          -- the page of a request that waits may have become a larger one since
          let here (f : PageWait) : Bool := f.part == p && (f.page == page || pageNo s q.mem (f.page * 65536) == page)
          let add (f : PageWait) : PageWait := if here f then { f with reqs := f.reqs ++ [m] } else f
          if behindEarlier r m then
            if 1024 ≤ missLoad r then none else some (s.setRecv a { r with missq := r.missq ++ [m] })
          else if r.faults.any here then
            if 256 ≤ faultLoad r p ∨ 1024 ≤ missLoad r then none else some (s.setRecv a { r with faults := r.faults.map add })
          else if r.walks.any here then some (s.setRecv a { r with walks := r.walks.map add })
          else if r.missq.any (fun x => reqPart x == p && ((virtReq x.body).map (fun y => pageNo s q.mem (y.1.toNat - 0x0100000000000000))) == some page) then
            if 1024 ≤ missLoad r then none else some (s.setRecv a { r with missq := r.missq ++ [m] })
          else match r.leaves.find? (fun l => l.covers p v) with
            | some l => if !(l.permits acc) && noFaultRoom a r l then none else some (useLeaf s a m kind l v acc)
            | none =>
              if r.walks.length < walkCap a then some (s.setRecv a { r with walks := r.walks ++ [⟨p, page, q.mem.root, [m], false, 0⟩] })
              else if 1024 ≤ missLoad r then none
              else some (s.setRecv a { r with missq := r.missq ++ [m] })

-- Shore actor ports (R306)

/-- The control word of a request is well formed, and its words lie in one line. -/
def shoreReqOk (t : Token) : Bool :=
  let a := ((t.words[0]?).getD 0).toNat
  let c := ((t.words[1]?).getD 0).toNat
  let n := c / 4 % 8 + 1
  t.kind == 0 && decide (c < 32) && decide (c % 4 < 2) && decide (a % 8 = 0) && decide (a % 64 + 8 * n ≤ 64) &&
    (if c % 4 = 0 then decide (n ≤ 4) else decide (n ≤ 2))

/-- Serves request port `port` of shore actor a as far as it goes: one request under way at a time, so that replies keep the order of the
requests; a TIDE passes in its place (R399). -/
def pumpShore (s : State) (a port fuel : Nat) : State :=
  match fuel with
  | 0 => s
  | fuel + 1 =>
    let r := s.recv a
    match mget r.ins port with
    | none => s
    | some i =>
      match i.queue with
      | [] => s
      | (pos, t) :: rest =>
        let out := mget r.outs port
        if i.taken ≠ 0 ∨ inputBlocked s a then s
        else if t.kind = 9 then
          let s := s.setRecv a { r with ins := mset r.ins port { i with queue := rest }, rin := mset r.rin port (t.rin + 1)
                                        poss := r.poss ++ [(port, t.rin, pos, (out.map (fun o => o.pos)).getD 0)] }
          let org : Origin := { s.origin 0 0 with tile := a, part := port / 4, rin := t.rin }
          let s := match out with
            | some o => sendOver s a org o.dest o.pos t
            | none => s
          pumpShore ({ s with agenda := s.agenda ++ [⟨a, .agentCut, { Input.none with p := BitVec.ofNat 6 (port / 4) }⟩] }) a port fuel
        else if (out.map (fun o => o.credits == 0)).getD false then s
        else if t.kind = 8 then
          pumpShore (shoreReply s a port { t with kind := 8, len := 0, words := [0, 0, 0, 0], psn := 0, stag := 0 }) a port fuel
        else if shoreReqOk t = false then pumpShore (shoreLast s a port t (Cause.code .addressRange)) a port fuel
        else
          let s' := s.setRecv a { r with ins := mset r.ins port { i with taken := 1 } }
          let org : Origin := { s.origin 0 0 with tile := a, part := port / 4, rin := t.rin }
          match serveVirt s' a ⟨pos, a, a, org, .shoreTok port t⟩ with
          | some s => pumpShore s a port fuel
          | none => s

/-- Every request port of interface a goes on. -/
def pumpPorts (s : State) (a : Nat) : State := (s.recv a).ins.foldl (fun s i => pumpShore s a i.1 600) s

/-- SHORE_REQUEST (R306). -/
def execShoreRequest (s : State) : Out :=
  match takeMsg s (fun b => match b with
    | .shoreTok _ _ => true
    | _ => false) with
  | none => .next s
  | some (m, s) =>
    match m.body with
    | .shoreTok port t =>
      let r := s.recv s.agent
      (match mget r.ins port with
      | none => .next s
      | some i =>
        let i := { i with queue := i.queue ++ [(i.pos, t)], pos := if t.kind = 9 then i.pos else i.pos + 1 }
        let s := tallyTok s (port / 4) (Dest.code (.shore (s.agent - 0x10000) port) 0) t
        .next (pumpShore (s.setRecv s.agent { r with ins := mset r.ins port i }) s.agent port 600))
    | _ => .next s

-- Arrival and walk end

/-- The request takes the place of those a Fjoith port forwards to the other module (R307, R430). -/
def forwardFj (s : State) (p : Nat) (m : Msg) : State :=
  match s.fjs[p]? with
  | none => s
  | some f =>
    if f.bind.getLsbD 63 = false ∨ f.bind.toNat % 64 ≠ m.org.part then answerErr s m .protection
    else match m.body with
      | .atomic _ _ _ _ _ _ => answerErr s m .segmentMode
      | _ => { s with fjs := s.fjs.modify p (fun f => { f with wait := f.wait ++ [.msg 1 m] }) }

/-- The requests of the miss queue try again, and so do the shore ports (R305). -/
def pumpMisses (s : State) (a : Nat) : State :=
  let ms := (s.recv a).missq
  let s := s.setRecv a { s.recv a with missq := [] }
  pumpPorts (ms.foldl (fun s m => match serveVirt s a m with
    | some s => s
    | none => s.setRecv a { s.recv a with missq := (s.recv a).missq ++ [m] }) s) a

/-- A handler's request that waited with the misses of interface a for an earlier one to its home can go on. -/
def missReady (s : State) (a : Nat) : Bool := (s.recv a).missq.any (fun m => handlerReq m.body) && pumpMisses s a != s

/-- VIRTUAL_REQUEST_ARRIVAL (R298, R302 to R307): requests among the misses that may go on, else the oldest arrived request that need not wait. While one waits for undo space, nothing
passes it (R394); requests of a partition with 256 held on faults let the others pass (R373). -/
def execVirtualRequestArrival (s : State) : Out :=
  let a := s.agent
  if missReady s a then .next (pumpMisses s a)
  else if inputBlocked s a ∨ s.portUp a = false then .next s
  else
    let isV (m : Msg) : Bool := (virtReq m.body).isSome && (match m.body with
      | .shoreTok _ _ => false
      | _ => true)
    let r := s.recv a
    match (mgetD s.inbox a []).find? (fun m => isV m && !(decide (256 ≤ faultLoad r (reqPart m)))) with
    | none =>
      -- a message that is no request, a void one among them, is accepted and discarded
      (match takeMsg s (fun b => (virtReq b).isNone) with
      | some (_, s) => .next s
      | none => .next s)
    | some m =>
      let q := (mgetD s.inbox a []).erase m
      let s' := { s with inbox := if q.isEmpty then mdel s.inbox a else mset s.inbox a q }
      if 0x10020 ≤ a ∧ a < 0x10050 ∧ m.src < 0x20000 then .next (forwardFj s' (a - 0x10020) m)
      else match serveVirt s' a m with
        | some s => .next s
        | none => .next s

/-- Requests with the leaf that a walk found for their page: the leaf enters the cache, and the requests go on in arrival order. -/
def mapPage (s : State) (a : Nat) (kind : IfKind) (w : PageWait) (l : Leaf) (bits : Nat) : State :=
  let v := w.page * 65536
  let base := v / 2 ^ bits * 2 ^ bits
  let first := match w.reqs with
    | m :: _ => reqTile s a m
    | [] => 0
  let c : CLeaf := { part := w.part, base := base, bits := bits, rcl := l.rcl, sub := l.sub, plc := l.plc, key := l.key, pa := l.pa - (v - base),
                     w := l.w, r := l.r, bank := if l.plc = 2 then nearest first (cacheMembers s w.part l.sub) else none }
  let r := s.recv a
  let s := s.setRecv a { r with leaves := (r.leaves ++ [c]).drop (r.leaves.length + 1 - leafCap a) }
  w.reqs.foldl (fun s m => match virtReq m.body with
    | some x =>
      if c.covers w.part (x.1.toNat - 0x0100000000000000) then useLeaf s a m kind c (x.1.toNat - 0x0100000000000000) x.2.1
      else (serveVirt s a m).getD s
    | none => s) s

/-- The end of a walk may let an invalidation complete (R305). -/
def wakeInval (s : State) (p : Nat) : State :=
  if ((mget s.parts p).map (fun q => !q.inval.isEmpty)).getD false then
    { s with agenda := s.agenda ++ [⟨headIf, .invalidationDone, { Input.none with p := BitVec.ofNat 6 p }⟩] }
  else s

/-- The walk of a page in partition memory p, with the size of the page found. -/
def walkPage (s : State) (a : Nat) (q : PartMem) (w : PageWait) : Option (IfKind × Walk × Nat) :=
  (kindAt a q (w.page * 65536)).map (fun k => (k, walk s q k (w.page * 65536), leafBits s q (w.page * 65536)))

/-- TRANSLATION_WALK_END (R300, R301, R305, R373): walk inp.n of the interface ends, under the root it began with (R439). -/
def execTranslationWalkEnd (s : State) : Out :=
  let a := s.agent
  let r := s.recv a
  match r.walks[s.inp.n]? with
  | none => .next s
  | some w =>
    if w.noticed then .next s
    else
      let s := wakeInval (s.setRecv a { r with walks := r.walks.eraseIdx s.inp.n }) w.part
      match mget s.parts w.part with
      | none => .next (pumpMisses (w.reqs.foldl (fun s m => virtErr s a m .protection) s) a)
      | some q =>
        match walkPage s a { q.mem with root := w.root } w with
        | none => .next (pumpMisses (w.reqs.foldl (fun s m => virtErr s a m .protection) s) a)
        | some (k, .leaf l, bits) => .next (pumpMisses (mapPage s a k w l bits) a)
        | some (_, .fault why, _) => .next (pumpMisses (enterFault s a w why) a)

/-- Walks that ended in a fault while the table was full move into it as entries free (R373). -/
def refillFaults (s : State) (a fuel : Nat) : State :=
  match fuel with
  | 0 => s
  | fuel + 1 =>
    let r := s.recv a
    match r.walks.find? (fun w => w.noticed) with
    | none => s
    | some w => if 64 ≤ r.faults.length then s else refillFaults (enterFault (s.setRecv a { r with walks := r.walks.erase w }) a w w.why) a fuel

/-- The faulting pages of partition p that a write of FRETRY names: every page, or one. -/
def fretryNames (s : State) (p : Nat) (f : PageWait) : Bool :=
  f.part == p && (s.inp.flag || f.page == s.inp.addr || ((mget s.parts p).map (fun q => pageNo s q.mem (s.inp.addr * 65536))) == some f.page)

/-- The requests of a page that leaf l still forbids, and the later ones of the same sources, whose order is kept (R301, R305, R374). -/
def stillFaults (s : State) (a : Nat) (l : Leaf) (ms : List Msg) : List Msg :=
  ms.foldl (fun stay m =>
    let acc := ((virtReq m.body).map (fun x => x.2.1)).getD 0
    let ok := if acc = 0 then l.r else if acc = 1 then l.w else l.r && l.w
    if !ok || stay.any (fun y => reqTile s a y == reqTile s a m) then stay ++ [m] else stay) []

/-- One named page is walked again (R374): it releases its requests, or stays, with those that its leaf forbids, without a second notice. -/
def retryPage (p : Nat) (s : State) (a : Nat) (f : PageWait) : State :=
  match mget s.parts p with
  | none => s
  | some q =>
    let keep (s : State) (ms : List Msg) : State := s.setRecv a { s.recv a with faults := (s.recv a).faults ++ [{ f with reqs := ms }] }
    match walkPage s a q.mem f with
    | some (k, .leaf l, bits) =>
      let stay := stillFaults s a l f.reqs
      let s := mapPage s a k { f with reqs := f.reqs.filter (fun m => !decide (m ∈ stay)) } l bits
      if stay.isEmpty then s else keep s stay
    | _ => keep s f.reqs

/-- Applies FRETRY of partition inp.p at every interface: the pages named leave the table, and op deals with each. -/
def fretry (s : State) (op : State → Nat → PageWait → State) : State :=
  let p := s.inp.p.toNat
  s.recvs.foldl (fun s x =>
    let a := x.1
    let r := s.recv a
    let named := r.faults.filter (fretryNames s p)
    let s := s.setRecv a { r with faults := r.faults.filter (fun f => !fretryNames s p f) }
    pumpMisses (refillFaults (named.foldl (fun s f => op s a f) s) a 256) a) s

/-- FRETRY_RETRY (R374, R439): partition inp.p; inp.flag is ALL, inp.addr the page number, v bits 56:16. -/
def execFretryRetry (s : State) : Out := .next (fretry s (retryPage s.inp.p.toNat))

/-- FRETRY_ABORT (R374): every request held on the named pages is answered PROTECTION. -/
def execFretryAbort (s : State) : Out := .next (fretry s (fun s a f => f.reqs.foldl (fun s m => virtErr s a m .protection) s))

-- Invalidation (R305, R439)

/-- Drops the leaves of partition p that cover a page, or all of them. -/
def dropLeaves (s : State) (p : Nat) (page : Option Nat) : State :=
  { s with recvs := s.recvs.map (fun x => (x.1, { x.2 with leaves := x.2.leaves.filter (fun l => !(match page with
    | some g => l.covers p (g * 65536)
    | none => l.part == p)) })) }

/-- A write of INVAL: it starts, or waits while BUSY is set. -/
def invalidate (s : State) (page : Option Nat) : State :=
  let p := s.inp.p.toNat
  match mget s.parts p with
  | none => s
  | some q =>
    let s := s.modPart p (fun q => { q with inval := q.inval ++ [page] })
    if q.inval.isEmpty then
      { dropLeaves s p page with agenda := s.agenda ++ [⟨headIf, .invalidationDone, { Input.none with p := s.inp.p }⟩] }
    else s

/-- INVAL_PAGE: partition inp.p, page inp.addr (v bits 56:16). -/
def execInvalPage (s : State) : Out := .next (invalidate s (some s.inp.addr))

/-- INVAL_ALL: partition inp.p. -/
def execInvalAll (s : State) : Out := .next (invalidate s none)

/-- A walk of partition p that began before the last PTROOT write is still under way: its leaf would be the old one (R305, R439). -/
def oldWalk (s : State) (p : Nat) (q : PartMem) : Bool :=
  s.recvs.any (fun r => r.2.walks.any (fun w => w.part == p && !w.noticed && w.root != q.root))

/-- INVALIDATION_DONE (R305, R439): once no walk under an old root is left, BUSY clears, or the next write that waits begins. -/
def execInvalidationDone (s : State) : Out :=
  let p := s.inp.p.toNat
  match mget s.parts p with
  | none => .next s
  | some q =>
    if q.inval.isEmpty ∨ oldWalk s p q.mem then .next s
    else
    let s := dropLeaves s p (q.inval.head?.getD none)
    let s := s.modPart p (fun q => { q with inval := q.inval.drop 1 })
    match q.inval.drop 1 with
    | [] => .next s
    | g :: _ => .next { dropLeaves s p g with agenda := s.agenda ++ [⟨headIf, .invalidationDone, { Input.none with p := s.inp.p }⟩] }

-- Host output streams (R438)

/-- The 64-byte image of a token (R274). -/
def tokenImage (t : Token) : List Byte :=
  ((t.words.take 4).map (fun w => leBytes 8 w.toNat)).flatten ++
    leBytes 8 (t.rin.toNat * 2 ^ 32 + t.psn.toNat * 2 ^ 21 + t.len * 2 ^ 18 + t.kind.toNat * 2 ^ 14 + t.stag.toNat * 2 ^ 6 + t.ch.toNat) ++ leBytes 24 0

/-- N of a queue, 2^LOG2N entries (R437). -/
def Queue.n (q : Queue) : Nat := 2 ^ (q.ctl.extractLsb' 8 5).toNat

/-- The type of a queue. -/
def Queue.typ (q : Queue) : Option QType :=
  match (q.ctl.extractLsb' 0 2).toNat with
  | 0 => some .launch
  | 1 => some .input
  | 2 => some .output
  | _ => none

/-- The queue is enabled (R437). -/
def Queue.en (q : Queue) : Bool := q.ctl.getLsbD 63

/-- Entry k of a queue's ring, as a memory key. -/
def Queue.entry (q : Queue) (k : BitVec 32) : Nat := hostKey (q.base.toNat + 64 * (k.toNat % q.n))

/-- Writes the waiting tokens of output queue key k as entries of its ring, while the ring has room (R438). A TIDE is dropped (R399). -/
def pumpOut (s : State) (k fuel : Nat) : State :=
  match fuel with
  | 0 => s
  | fuel + 1 =>
    match mget s.queues k with
    | none => s
    | some q =>
      match q.chan with
      | none => s
      | some c =>
        match c.queue with
        | [] => s
        | (pos, t) :: rest =>
          let a := hostIf (s.queuePort k)
          let drop (s : State) : State := { s with queues := mmod s.queues k (fun q => { q with chan := some { c with queue := rest } }) }
          let org : Origin := { s.origin 0 0 with tile := a, part := k / 4096, rin := t.rin }
          if t.kind = 9 then pumpOut (drop s) k fuel
          else if q.n ≤ (q.placed - q.head).toNat ∨ q.en = false then s
          else
            let write (s : State) : State :=
              let s := drop s
              let s := { s with queues := mmod s.queues k (fun q => { q with placed := q.placed + 1 }) }
              creditSource (holdWrite s a ⟨t.rin, k / 4096, q.entry q.placed, tokenImage t, none, some k⟩) a c.src org
            if t.psn = 0 then pumpOut (write s) k fuel
            else
              let tile := match c.src with
                | .port t _ _ => t
                | .border t _ => t
                | _ => 0
              match storeUse s a (k / 4096) tile (usePlace a k pos) with
              | .inl s => s
              | .inr s => pumpOut (write s) k fuel

/-- A token reaches a host output stream. -/
def hostToken (s : State) (k : Nat) (t : Token) : State :=
  match mget s.queues k with
  | none => s
  | some q =>
    match q.chan with
    | none => s
    | some c =>
      let c := { c with queue := c.queue ++ [(c.pos, t)], pos := if t.kind = 9 then c.pos else c.pos + 1 }
      let s := tallyTok s (k / 4096) (Dest.code (.hostOut k) 0) t
      pumpOut { s with queues := mset s.queues k { q with chan := some c } } k 600

/-- TOKEN_ARRIVAL (R224, R226, R277, R278, R438): at a compute tile or at a host port. -/
def execTokenArrival (s : State) : Out :=
  if s.agent < 0x10000 then .next (tokenArrivalTile s)
  else
    match takeMsg s (fun b => match b with
      | .hostTok _ _ => true
      | _ => false) with
    | none => .next s
    | some (m, s) =>
      match m.body with
      | .hostTok k t => .next (hostToken s k t)
      | _ => .next s

end Sys2Proof.Machine
end

