-- ==== Sys2Proof/Machine/Collective.lean ====
section
/-!
DEFINITION. The collective units of the Fjoith ports (R207, R399, R431), and credits that return to an agent (R276).
-/

namespace Sys2Proof.Machine

open Sys2Proof

-- Arithmetic (R207)

/-- round_rne of a sum in a 16-bit or 32-bit format, with no status (R98 to R100). -/
def fmtAdd (f : Fmt) (a b : Nat) : Nat :=
  match f.val a, f.val b with
  | .nan _, _ => f.qnan
  | _, .nan _ => f.qnan
  | .inf x, .inf y => if x = y then f.signBit x + f.infCode else f.qnan
  | .inf x, _ => f.signBit x + f.infCode
  | _, .inf y => f.signBit y + f.infCode
  | .fin n1 m1 e1, .fin n2 m2 e2 =>
    let t := dyAdd n1 m1 e1 n2 m2 e2
    if t.2.1 = 0 then f.signBit (m1 = 0 ∧ m2 = 0 ∧ n1 ∧ n2) else (f.result 0 t.1 t.2.1 t.2.2).1

/-- FMIN and FMAX in a format (R101): -0 is below +0, a NaN yields to a number. -/
def fmtMinMax (f : Fmt) (isMax : Bool) (a b : Nat) : Nat :=
  let x := f.val a
  let y := f.val b
  if x.isNan && y.isNan then f.qnan
  else if x.isNan then b
  else if y.isNan then a
  else
    let less := decide (fvCmp x y < 0) || (fvCmp x y == 0 && a.testBit (f.width - 1) && !b.testBit (f.width - 1))
    if less == isMax then b else a

/-- One step of the combination of R207: operation op, format code fmt (0 FP32, 1 BF16, 2 FP16, 3 INT32). -/
def collStep (op fmt : Nat) (acc c : Nat) : Nat :=
  let f : Fmt := if fmt = 0 then fp32 else if fmt = 1 then bf16 else fp16
  if fmt = 3 then
    let x : BitVec 32 := BitVec.ofNat 32 acc
    let y : BitVec 32 := BitVec.ofNat 32 c
    (if op = 0 then x + y else if op = 1 then (if x.slt y then y else x) else if y.slt x then y else x).toNat
  else if op = 0 then fmtAdd f acc c
  else fmtMinMax f (op == 1) acc c

-- Rounds

/-- The fields of a control word (R206). -/
def ctlOp (c : Word) : Nat := c.toNat % 16
def ctlFmt (c : Word) : Nat := c.toNat / 16 % 4
def ctlCount (c : Word) : Nat := c.toNat / 2 ^ 16 % 2 ^ 32
/-- Elements in a payload word: 2 for 32-bit formats, 4 for 16-bit formats. -/
def ctlPer (c : Word) : Nat := if ctlFmt c = 0 ∨ ctlFmt c = 3 then 2 else 4

/-- This module's number and the peer's in a port's binding register (R430). -/
def fjMod (f : FjPort) : Nat := f.bind.toNat / 2 ^ 48 % 256
def fjPmod (f : FjPort) : Nat := f.bind.toNat / 2 ^ 40 % 256
def fjEn (f : FjPort) : Bool := f.bind.getLsbD 63

/-- The order of ranks (R431): the lower MOD first, then the producing tile, then the output port. -/
def rankLt (a b : Contributor) : Bool :=
  decide (a.mod < b.mod) || (a.mod == b.mod && (decide (a.tile < b.tile) || (a.tile == b.tile && decide (a.port < b.port))))

/-- Puts a contributor in rank order; one that is bound already stays. -/
def addContrib (l : List Contributor) (c : Contributor) : List Contributor :=
  match l with
  | [] => [c]
  | x :: r => if x.mod = c.mod ∧ x.tile = c.tile ∧ x.port = c.port then x :: r else if rankLt c x then c :: x :: r else x :: addContrib r c

/-- Payload words that a contributor of rank k owes for a control word. -/
def owedWords (ctl : Word) (k : Nat) : Nat := if ctlOp ctl = 3 ∧ k ≠ 0 then 0 else (ctlCount ctl + ctlPer ctl - 1) / ctlPer ctl

def Contribution.done (c : Contribution) : Bool := decide (c.need ≤ c.words.length)

/-- Element e of a contribution. -/
def elemOf (c : Contribution) (per e : Nat) : Nat × Bool :=
  let w := (c.words[e / per]?).getD (0, false)
  (w.1.toNat / 2 ^ (64 / per * (e % per)) % 2 ^ (64 / per), w.2)

/-- Result element e of a round (R207). -/
def collElem (l : List Contribution) (ctl : Word) (e : Nat) : Nat × Bool :=
  let per := ctlPer ctl
  match l with
  | [] => (0, false)
  | c :: r =>
    let x := elemOf c per e
    if ctlOp ctl = 3 then x
    else r.foldl (fun a d => (collStep (ctlOp ctl) (ctlFmt ctl) a.1 (elemOf d per e).1, a.2 || (elemOf d per e).2)) x

/-- Result word j of a round, packed as the contributions are; positions beyond COUNT are 0. -/
def collWord (l : List Contribution) (ctl : Word) (j : Nat) : Word × Bool :=
  let per := ctlPer ctl
  (List.range per).foldl (fun w i =>
    let e := per * j + i
    if ctlCount ctl ≤ e then w
    else
      let x := collElem l ctl e
      (w.1 + BitVec.ofNat 64 (x.1 * 2 ^ (64 / per * i)), w.2 || x.2)) (0, false)

/-- Result tokens of 4 payload words, the last one shorter. -/
def collTokens (rin : BitVec 32) (ws : List (Word × Bool)) (fuel : Nat) : List Token :=
  match fuel with
  | 0 => []
  | fuel + 1 =>
    if ws.isEmpty then []
    else
      let g := ws.take 4
      let psn : BitVec 4 := (List.range 4).foldl (fun p j => if ((g[j]?).map (fun x => x.2)).getD false then p ||| (1#4 <<< j) else p) 0
      { kind := 0, len := g.length, words := g.map (fun x => x.1) ++ List.replicate (4 - g.length) 0, psn := psn, stag := 0, rin := rin, ch := 0 } ::
        collTokens rin (ws.drop 4) fuel

-- The unit

def State.modColl (s : State) (p : Nat) (f : CollUnit → CollUnit) : State := { s with fjs := s.fjs.modify p (fun x => { x with coll := f x.coll }) }

/-- Sends what waits for the results channels as far as their credits go; a TIDE takes none. -/
def pumpColl (s : State) (p fuel : Nat) : State :=
  match fuel with
  | 0 => s
  | fuel + 1 =>
    match s.fjs[p]? with
    | none => s
    | some f =>
      let can (x : Nat × Token) : Bool := (f.coll.queue.find? (fun y => y.1 == x.1) == some x) &&
        (x.2.kind == 9 || ((f.coll.outs[x.1]?).map (fun o => decide (0 < o.credits))).getD false)
      match f.coll.queue.find? can with
      | none => s
      | some x =>
        match f.coll.outs[x.1]? with
        | none => s
        | some o =>
          let o' := if x.2.kind = 9 then o else { o with credits := o.credits - 1, pos := o.pos + 1 }
          let s := s.modColl p (fun c => { c with queue := c.queue.erase x, outs := c.outs.set x.1 o' })
          pumpColl (sendOver s (fjIf p) { s.origin 0 0 with tile := 0, part := f.bind.toNat % 64, rin := x.2.rin } o.dest o.pos x.2) p fuel

/-- Queues tokens for every results channel in use; one that its phase has left has no capacity. -/
def collOut (s : State) (p : Nat) (ts : List Token) : State :=
  pumpColl (s.modColl p (fun c => { c with queue := c.queue ++ c.outs.zipIdx.flatMap (fun o => if o.1.cap = 0 then [] else ts.map (fun t => (o.2, t))) })) p 4096

/-- COLL_MISMATCH to the supervisor of each partition that contributes from this module (R207, R366). -/
def collMismatch (s : State) (p : Nat) : State :=
  match s.fjs[p]? with
  | none => s
  | some f =>
    let mine := f.coll.contribs.filter (fun c => c.mod == fjMod f)
    let parts := (mine.map (fun c => c.part)).dedup
    parts.foldl (fun s q =>
      ifNotice s (fjIf p) q (((mine.find? (fun c => c.part == q)).map (fun c => c.tile)).getD 0) .collMismatch none (BitVec.ofNat 32 p) 0) s

/-- The contributor takes part: one of this end, or of the peer's while the port is bound (R431). -/
def fjTakes (f : FjPort) (c : Contributor) : Bool := fjEn f || c.mod == fjMod f

/-- The two ends of the unit are known (R385): of a bound port, the peer has told its contributors and this end has bound a channel (notes/assumptions). -/
def collKnown (f : FjPort) : Bool :=
  !(fjEn f) || (f.coll.far && (f.coll.contribs.any (fun c => c.mod == fjMod f) || f.coll.outs.any (fun o => o.cap != 0)))

/-- The unit of a bound port tells the peer the contributors of its end (R431). -/
def announce (s : State) (p : Nat) : State :=
  { s with fjs := s.fjs.modify p (fun f =>
      if fjEn f then { f with wait := f.wait ++ [.binds ((f.coll.contribs.filter (fun c => c.mod == fjMod f)).map (fun c => (c.tile, c.port)))] } else f) }

/-- Completes rounds while the first round of every contributor is complete (R207): the result leaves, or a disagreement discards the round. -/
def collRounds (s : State) (p fuel : Nat) : State :=
  match fuel with
  | 0 => s
  | fuel + 1 =>
    match s.fjs[p]? with
    | none => s
    | some f =>
      let cs := f.coll.contribs.filter (fjTakes f)
      if cs.isEmpty ∨ collKnown f = false ∨ cs.any (fun c => !((c.rounds.head?.map Contribution.done).getD false)) then s
      else
        let rs := cs.filterMap (fun c => c.rounds.head?)
        let s := s.modColl p (fun u => { u with contribs := u.contribs.map (fun c => if fjTakes f c then { c with rounds := c.rounds.drop 1 } else c) })
        match rs with
        | [] => s
        | r :: t =>
          let s : State := if t.any (fun x => ctlOp x.ctl != ctlOp r.ctl || ctlFmt x.ctl != ctlFmt r.ctl || ctlCount x.ctl != ctlCount r.ctl) then collMismatch s p
            else
              let n := (ctlCount r.ctl + ctlPer r.ctl - 1) / ctlPer r.ctl
              collOut s p (collTokens f.coll.rin ((List.range n).map (collWord rs r.ctl)) (n + 1))
          collRounds s p fuel

/-- The unit takes one token of contributor k: a control token opens its next round, a data token feeds its open round or is discarded. -/
def collTake (s : State) (p k : Nat) (t : Token) : State :=
  match (s.fjs[p]?).bind (fun f => (f.coll.contribs[k]?).map (fun c => (c, ((f.coll.contribs.take k).filter (fjTakes f)).length))) with
  | none => s
  | some (c, rank) =>
    let put (s : State) (c : Contributor) : State := s.modColl p (fun u => { u with contribs := u.contribs.set k c })
    let w0 := (t.words[0]?).getD 0
    if t.kind = 3 then collRounds (put s { c with rounds := c.rounds ++ [⟨w0, owedWords w0 rank, []⟩] }) p 64
    else if isData t then
      match c.rounds.findIdx? (fun r => !r.done) with
      | none => collMismatch s p
      | some i =>
        let ws := (List.range t.len).map (fun j => ((t.words[j]?).getD 0, t.psn.getLsbD j))
        collRounds (put s { c with rounds := c.rounds.modify i (fun r => { r with words := (r.words ++ ws).take r.need }) }) p 64
    else s

/-- Tokens that came before both ends of the unit were known go on once they are (R385). -/
def wakeColl (s : State) (p : Nat) : State :=
  match s.fjs[p]? with
  | none => s
  | some f =>
    if collKnown f = false then s
    else f.coll.contribs.zipIdx.foldl (fun s c =>
      c.1.early.foldl (fun s t => collTake s p c.2 t) (s.modColl p (fun u => { u with contribs := u.contribs.modify c.2 (fun c => { c with early := [] }) }))) s

/-- A token of a contributor's channel in order: behind a TIDE it is held (R399), and so is one that comes before both ends are known. -/
def collFeed (s : State) (p md tile key : Nat) (t : Token) : State :=
  match (s.fjs[p]?).bind (fun f => f.coll.contribs.findIdx? (fun c => c.mod == md && c.tile == tile && c.port == key)) with
  | none => s
  | some k =>
    let held := ((((s.fjs[p]?).bind (fun f => f.coll.contribs[k]?)).map (fun c => c.tide.isSome))).getD false
    if held then s.modColl p (fun u => { u with contribs := u.contribs.modify k (fun c => { c with behind := c.behind ++ [t] }) })
    else if t.kind = 9 then
      let s := s.modColl p (fun u => { u with contribs := u.contribs.modify k (fun c => { c with tide := some t.rin }) })
      { s with agenda := s.agenda ++ [⟨fjIf p, .agentCut, Input.none⟩] }
    else if ((s.fjs[p]?).map collKnown).getD false then collTake s p k t
    else s.modColl p (fun u => { u with contribs := u.contribs.modify k (fun c => { c with early := c.early ++ [t] }) })

/-- COLL_TOKEN_ARRIVAL (R207, R431): a token of a local contributor; its slot is free at once, and it crosses the link to the other end. -/
def execCollTokenArrival (s : State) : Out :=
  match takeMsg s (fun b => match b with
    | .collTok _ _ => true
    | _ => false) with
  | none => .next s
  | some (m, s) =>
    let p := s.agent - 0x10020
    match m.body, s.fjs[p]? with
    | .collTok key t, some f =>
      if 0x20000 ≤ m.src then .next (collFeed s p (fjPmod f) (m.src % 0x20000) key t)
      else
        let s := if fjEn f then { s with fjs := s.fjs.modify p (fun x => { x with wait := x.wait ++ [.msg 0 m] }) } else s
        let s := if t.kind = 9 then s else s.send s.agent m.src m.org (.credit (key / 8) (key % 8))
        let tile := s.homeOf m.src
        .next (collFeed (tallyTok s m.org.part (Dest.code (.coll p key) tile) t) p (fjMod f) tile key t)
    | _, _ => .next s

-- Credits

/-- CREDIT_RETURN (R139, R276, R278): to a compute tile's output or border buffer, a host input stream, a shore reply port or a results
channel. -/
def execCreditReturn (s : State) : Out :=
  if s.agent < 0x10000 then .next (creditReturnTile s)
  else
    let a := s.agent
    match takeMsg s (fun b => match b with
      | .credit _ _ => true
      | .borderCredit _ => true
      | .creditTo _ => true
      | _ => false) with
    | none => .next s
    | some (m, s) =>
      match m.body with
      | .creditTo (.hostIn _ q) =>
        .next { s with queues := mmod s.queues q (fun x => { x with port := x.port.map (fun o => { o with credits := o.credits + 1 }) }) }
      | .creditTo (.shore _ port) =>
        let r := s.recv a
        .next (pumpShore (s.setRecv a { r with outs := mmod r.outs port (fun o => { o with credits := o.credits + 1 }) }) a port 600)
      | .creditTo (.coll p i) =>
        .next (pumpColl (s.modColl p (fun c => { c with outs := c.outs.modify i (fun o => { o with credits := o.credits + 1 }) })) p 4096)
      | _ => .next s

end Sys2Proof.Machine
end

