-- ==== Sys2Proof/Machine/Fabric.lean ====
section
/-!
DEFINITION. The wafer fabric (R409 to R422): turn lists, flits and their hops, sequence numbers, acknowledgements and retries, dead
destinations, link and site deaths, and the route version flip.
-/

namespace Sys2Proof.Machine

open Sys2Proof

-- Sites, links and interfaces

/-- The link of site t in direction w, known by its west or south end and its axis (R423). -/
def linkKey (t w : Nat) : Nat :=
  match w with
  | 0 => 2 * t
  | 1 => 2 * t + 1
  | 2 => 2 * (t - 256)
  | _ => 2 * (t - 1) + 1

/-- A link with nothing recorded of it. -/
def Link.fresh : Link := ⟨false, 0, []⟩

def State.link (s : State) (k : Nat) : Link := mgetD s.fabric.links k Link.fresh

/-- A flit may stand in site t: it is no hole and has not died (R5, R414). -/
def State.enterable (s : State) (t : Nat) : Bool := inField t && ((s.site t).st != .hole) && !(s.site t).dead

/-- The interface that stands at the far end of a connection toward b. -/
def State.landing (s : State) (b : Nat) : Nat := if b < 0x10000 then s.aliasOf b else b

/-- The site a flit reaches from t in direction w over a live link. -/
def State.hop? (s : State) (t w : Nat) : Option Nat :=
  match neighbour t w with
  | none => none
  | some u => if s.enterable u && !(s.link (linkKey t w)).dead then some u else none

/-- The two sites an edge interface attaches to: the listed one and the next along the edge (R416). -/
def edgeSites (a : Nat) : Nat × Nat :=
  if a < 0x10020 then
    let k := (a - 0x10000) % 8
    match (a - 0x10000) / 8 with
    | 0 => (tileId (16 * k + 8) 127, tileId (16 * k + 9) 127)
    | 1 => (tileId 131 (16 * k + 8), tileId 131 (16 * k + 9))
    | 2 => (tileId (16 * k + 8) 0, tileId (16 * k + 9) 0)
    | _ => (tileId 0 (16 * k + 8), tileId 0 (16 * k + 9))
  else if a < 0x10050 then
    let k := (a - 0x10020) % 12
    match (a - 0x10020) / 12 with
    | 0 => (tileId 0 (10 * k + 13), tileId 0 (10 * k + 14))
    | 1 => (tileId (11 * k + 9) 127, tileId (11 * k + 10) 127)
    | 2 => (tileId 131 (10 * k + 13), tileId 131 (10 * k + 14))
    | _ => (tileId (11 * k + 9) 0, tileId (11 * k + 10) 0)
  else if a < 0x10060 then (tileId (32 * (a - 0x10050) + 2) 0, tileId (32 * (a - 0x10050) + 3) 0)
  else (tileId 0 0, tileId 1 0)

/-- The site at which routes to interface a end: the listed site, or the second when the listed one is dead (R416). -/
def ifSite (s : State) (a : Nat) : Nat :=
  if a < 0x10000 then a
  else if s.enterable (edgeSites a).1 then (edgeSites a).1 else (edgeSites a).2

/-- Every edge interface in rank order: Headland, host ports, shore actors, Fjoith ports (R416). -/
def edgeIfs : List Nat := headIf :: (List.range 4).map hostIf ++ (List.range 32).map shoreIf ++ (List.range 48).map fjIf

/-- The number of an edge interface at a site (R413, R416). -/
def edgeSel (t a : Nat) : Nat := ((edgeIfs.filter (fun b => (edgeSites b).1 == t || (edgeSites b).2 == t)).findIdx (fun b => b == a))

/-- The edge interface n of a site. -/
def edgeAt (t n : Nat) : Option Nat := (edgeIfs.filter (fun b => (edgeSites b).1 == t || (edgeSites b).2 == t))[n]?

-- Turn lists (R413, R414)

/-- Bits that a segment's codes fill: a run of 1 to 3 hops 5, to 127 hops 10, a longer one a long code and the rest. -/
def segBits (run : Nat) : Nat := if run ≤ 3 then 5 else if run ≤ 127 then 10 else if run - 127 ≤ 3 then 15 else 20

/-- A path of the search: where it stands and its segments, the last one first. -/
structure Path where
  site : Nat
  segs : List (Nat × Nat)
  deriving DecidableEq, Repr

def Path.bits (p : Path) (tail : Nat) : Nat := (p.segs.map (fun g => segBits g.2)).sum + tail

/-- The list's directions in order compare lower first. -/
def dirsLt (a b : List Nat) : Bool :=
  match a, b with
  | x :: r, y :: t => decide (x < y) || (x == y && dirsLt r t)
  | [], _ :: _ => true
  | _, [] => false

/-- The choice among equally long lists (R414): fewest segments, then a horizontal first segment, then lower directions. -/
def Path.better (p q : Path) : Bool :=
  let a := (p.segs.map (fun g => g.1)).reverse
  let b := (q.segs.map (fun g => g.1)).reverse
  let ha := (a.head?.map (fun d => d % 2 == 1)).getD true
  let hb := (b.head?.map (fun d => d % 2 == 1)).getD true
  decide (a.length < b.length) || (a.length == b.length && ((ha && !hb) || (ha == hb && dirsLt a b)))

/-- One hop more in direction w. -/
def Path.step (p : Path) (u w : Nat) : Path :=
  match p.segs with
  | (d, n) :: r => if d = w then ⟨u, (d, n + 1) :: r⟩ else ⟨u, (w, 1) :: (d, n) :: r⟩
  | [] => ⟨u, [(w, 1)]⟩

/-- Two paths that any continuation treats alike: same site, last segment and bits of the earlier segments. -/
def Path.alike (p q : Path) : Bool :=
  p.site == q.site && p.segs.head? == q.segs.head? && (p.segs.drop 1).length == (q.segs.drop 1).length &&
    (⟨p.site, p.segs.drop 1⟩ : Path).bits 0 == (⟨q.site, q.segs.drop 1⟩ : Path).bits 0

/-- Adds a path to a layer, keeping the better of two that are alike. -/
def addPath (l : List Path) (p : Path) : List Path :=
  match l with
  | [] => [p]
  | q :: r => if p.alike q then (if p.better q then p :: r else q :: r) else q :: addPath r p

/-- A straight run from t in direction d can end at u. -/
def aimsAt (t d u : Nat) : Bool :=
  match d with
  | 0 => tileX t == tileX u && decide (tileY t ≤ tileY u)
  | 1 => tileY t == tileY u && decide (tileX t ≤ tileX u)
  | 2 => tileX t == tileX u && decide (tileY u ≤ tileY t)
  | _ => tileY t == tileY u && decide (tileX u ≤ tileX t)

/-- The path can still become a packable list to dst of m segments and left more hops. -/
def Path.hopeful (p : Path) (dst tail m left : Nat) : Bool :=
  decide (p.bits tail ≤ 46 ∧ siteDist p.site dst ≤ left ∧ p.segs.length ≤ m) &&
    (decide (p.segs.length < m) || (match p.segs with
      | (d, _) :: _ => aimsAt p.site d dst
      | [] => true))

/-- The paths of one hop more, with left hops to go after it. -/
def nextLayer (s : State) (dst tail m left : Nat) (l : List Path) : List Path :=
  (l.flatMap (fun p => (List.range 4).filterMap (fun w => (s.hop? p.site w).map (fun u => p.step u w)))).foldl
    (fun acc p => if p.hopeful dst tail m left then addPath acc p else acc) []

/-- The best packable list to dst of exactly left more hops and at most m segments, by layers of hops. -/
def findPath (s : State) (dst tail m left : Nat) (l : List Path) : Option Path :=
  match left with
  | 0 => match l.filter (fun p => p.site == dst) with
    | p :: r => some (r.foldl (fun b q => if q.better b then q else b) p)
    | [] => none
  | left + 1 => if l.isEmpty then none else findPath s dst tail m left (nextLayer s dst tail m left l)

/-- The turn list from interface a to interface b (R414), as (DIR, RUN) segments: the shortest packable list, of these one with the fewest
segments; an entry holds at most 8. -/
def turnList (s : State) (a b : Nat) : Option (List (BitVec 2 × Nat)) :=
  let tail := if b < 0x10000 then 0 else 5
  let src := ifSite s a
  let dst := ifSite s b
  if s.enterable dst = false then none
  else ((List.range 133).findSome? (fun k => (List.range 9).findSome? (fun m => findPath s dst tail m (siteDist src dst + 2 * k) [⟨src, []⟩]))).map
    (fun p => p.segs.reverse.map (fun g => (BitVec.ofNat 2 g.1, g.2)))

/-- The codes of one segment, low bits first: (value, bits). -/
def segCode (d : BitVec 2) (run : Nat) : Nat × Nat :=
  if run ≤ 3 then (d.toNat + 8 * run, 5)
  else if run ≤ 127 then (d.toNat + 4 + 8 * run, 10)
  else if run - 127 ≤ 3 then (d.toNat + 4 + 8 * 127 + 2 ^ 10 * (d.toNat + 8 * (run - 127)), 15)
  else (d.toNat + 4 + 8 * 127 + 2 ^ 10 * (d.toNat + 4 + 8 * (run - 127)), 20)

/-- ROUTE of a flit (R413): the packed codes, then the end code, which is 0 for a site's own interface. -/
def packRoute (turns : List (BitVec 2 × Nat)) (edge : Option (BitVec 1)) : BitVec 46 :=
  let r := turns.foldl (fun (acc : Nat × Nat) g => let c := segCode g.1 g.2; (acc.1 + c.1 * 2 ^ acc.2, acc.2 + c.2)) (0, 0)
  let e := match edge with
    | none => 0
    | some b => b.toNat + 1
  BitVec.ofNat 46 (r.1 + e * 2 ^ r.2)

/-- The links a turn list crosses from a site. -/
def turnLinks (t : Nat) (turns : List (BitVec 2 × Nat)) : List Nat :=
  (turns.foldl (fun (acc : Nat × List Nat) g =>
    (List.range g.2).foldl (fun (a : Nat × List Nat) _ => ((neighbour a.1 g.1.toNat).getD a.1, a.2 ++ [linkKey a.1 g.1.toNat])) acc) (t, [])).2

/-- XSLOT summed over the route between two interfaces (R284, R424). -/
def routeSlots (s : State) (a b : Nat) : Nat := ((turnLinks (ifSite s a) ((turnList s a b).getD [])).map (fun k => (s.link k).xslot)).sum

-- Route tables (R414)

def Iface.fresh : Iface := ⟨[], [], [], false⟩
def State.iface (s : State) (a : Nat) : Iface := mgetD s.fabric.ifs a Iface.fresh
def State.setIface (s : State) (a : Nat) (i : Iface) : State := { s with fabric := { s.fabric with ifs := mset s.fabric.ifs a i } }
def State.modEntry (s : State) (a n : Nat) (f : Entry → Entry) : State := s.setIface a { s.iface a with ents := mmod (s.iface a).ents n f }

/-- DST and EDGE of an entry that leads to interface b. -/
def endOf (s : State) (b : Nat) : Nat × Option (BitVec 1) :=
  if b < 0x10000 then (b, none) else (ifSite s b, some (BitVec.ofNat 1 (edgeSel (ifSite s b) b)))

/-- The interface that an entry's DST, EDGE and ESEL name (R416). -/
def Entry.names (e : Entry) : Nat :=
  match e.edge with
  | none => e.dst
  | some n => (edgeAt e.dst n.toNat).getD e.dst

/-- The OUT entry of interface a toward interface b. -/
def outEntry (s : State) (a b : Nat) : Option (Nat × Entry) := (s.iface a).ents.find? (fun e => e.2.typ == .out && e.2.names == b)

/-- Flits of entry n that are not acknowledged. -/
def unacked (e : Entry) : Nat := (e.nseq - e.aseq).toNat

/-- The retry buffer of an interface: 512 flits, 8,192 at the edge (R417). -/
def retryCap (a : Nat) : Nat := if a < 0x10000 then 512 else 8192

/-- The route version of interface a: that of its tile's region (R420). -/
def verOf (s : State) (a : Nat) : BitVec 4 :=
  match (s.siteRegion (if a < 0x10000 then a else 0)).bind (fun k => mget s.regions k) with
  | some g => if a < 0x10000 then g.rver else 0
  | none => 0

/-- The version of a connection: its site end's. -/
def connVer (s : State) (a b : Nat) : BitVec 4 := if a < 0x10000 then verOf s a else verOf s (s.landing b)

/-- The far end is dead (R418): a site that is a hole, has died, or names no site. -/
def deadEnd (s : State) (b : Nat) : Bool := decide (b < 0x10000) && !(s.enterable b)

/-- The interface at which a connection toward b ends: a dead site's live neighbour of the lowest tile ID (R418). -/
def proxyFor (s : State) (b : Nat) : Option Nat :=
  ((List.range 4).filterMap (fun w => neighbour b w)).foldl (fun m u => if s.enterable u then (match m with
    | none => some u
    | some x => if u < x then some u else some x) else m) none

/-- The interface toward which an entry's connection leads; for a PROXY entry the dead site. -/
def farOf (s : State) (e : Entry) : Nat :=
  match e.typ, e.edge with
  | .proxy, _ => e.dst
  | _, none => s.landing e.dst
  | _, some _ => e.names

/-- The site at which a turn list from site t ends. -/
def walkEnd (t : Nat) (turns : List (BitVec 2 × Nat)) : Nat :=
  turns.foldl (fun t g => (List.range g.2).foldl (fun t _ => (neighbour t g.1.toNat).getD t) t) t

/-- The interface at which the other end of the entry of interface a stands: an OUT entry's proxy where its destination is dead, and a PROXY entry's
sender, to which its TURNS lead back (R414, R418). -/
def partnerOf (s : State) (a : Nat) (e : Entry) : Nat :=
  match e.typ with
  | .out => if deadEnd s (farOf s e) then (proxyFor s (farOf s e)).getD (farOf s e) else farOf s e
  | .inn => farOf s e
  | .proxy => match e.edge with
    | none => walkEnd (ifSite s a) e.turns
    | some n => (edgeAt (walkEnd (ifSite s a) e.turns) n.toNat).getD (walkEnd (ifSite s a) e.turns)

/-- No flit of the entry waits for an acknowledgement, at its end (R415, R417). -/
def Entry.settled (e : Entry) : Bool := if e.typ = .out then unacked e == 0 else e.fresh == 0

/-- The entry may be evicted: it is not pinned, and no flit of its connection is unacknowledged at either end (R415). -/
def evictable (s : State) (a : Nat) (e : Entry) : Bool :=
  !e.pin && e.settled && (mget (s.iface (partnerOf s a e)).ents e.peer.toNat).all Entry.settled

/-- The index of a free entry of interface a, or of the least recently used one that may be evicted (R415). -/
def freeIndex (s : State) (a : Nat) : Option Nat :=
  let i := s.iface a
  match (List.range 256).find? (fun n => (mget i.ents n).isNone) with
  | some n => some n
  | none => (i.ents.filter (fun e => evictable s a e.2)).foldl (fun b e => match b with
    | none => some e.1
    | some n => if e.2.used < ((mget i.ents n).map (fun x => x.used)).getD 0 then some e.1 else some n) none

/-- Evicts entry n of interface a together with the entry at the other end. -/
def evict (s : State) (a n : Nat) : State :=
  match mget (s.iface a).ents n with
  | none => s
  | some e =>
    let far := partnerOf s a e
    let s := s.setIface a { s.iface a with ents := mdel (s.iface a).ents n }
    let f := s.iface far
    match mget f.ents e.peer.toNat with
    | some x => if x.peer.toNat = n ∧ x.typ ≠ e.typ then s.setIface far { f with ents := mdel f.ents e.peer.toNat } else s
    | none => s

/-- Makes a new connection from interface a to interface b (R414, R418). -/
def newConnection (s : State) (a b : Nat) (pin : Bool) : State :=
  let c := s.landing b
  let dead := deadEnd s c
  let at' := if dead then proxyFor s c else some c
  match freeIndex s a with
  | none => s
  | some n =>
    let s := evict s a n
    let d := endOf s b
    let blank : Entry := ⟨.out, pin, false, 0, d.1, d.2, connVer s a b, 0, 0, [], 0, none, none, s.time, s.time⟩
    match at'.bind (fun x => (turnList s a x).map (fun t => (x, t))) with
    | none => s.setIface a { s.iface a with ents := mset (s.iface a).ents n { blank with dead := true } }
    | some (x, turns) =>
      match freeIndex s x with
      | none => s
      | some k =>
        let s := evict s x k
        let back := (turnList s x a).getD []
        let src := endOf s a
        let inn : Entry := { blank with typ := if dead then .proxy else .inn, peer := BitVec.ofNat 8 n, dst := if dead then c else src.1, edge := src.2, turns := back }
        let s := s.setIface x { s.iface x with ents := mset (s.iface x).ents k inn }
        s.setIface a { s.iface a with ents := mset (s.iface a).ents n { blank with peer := BitVec.ofNat 8 k, turns := turns } }

/-- Entry n of interface a has its partner at the interface where its connection ends now. -/
def paired (s : State) (a n : Nat) (e : Entry) : Bool :=
  match mget (s.iface (farOf s e)).ents e.peer.toNat with
  | some x => x.typ == .inn && x.peer.toNat == n && farOf s x == a
  | none => false

/-- The connection from interface a to interface b stands (R415). Configuration pins one that stands already and writes its route anew; one
whose ends no longer name each other is made again (R354 step 2). -/
def connect (s : State) (a b : Nat) (pin : Bool) : State :=
  match outEntry s a b with
  | none => newConnection s a b pin
  | some (n, e) =>
    if pin = false then s
    else if paired s a n e then
      let far := farOf s e
      let v := connVer s a b
      let s := s.modEntry far e.peer.toNat (fun x => { x with pin := true, ver := v, turns := (turnList s far a).getD x.turns })
      s.modEntry a n (fun x => { x with pin := true, ver := v, turns := (turnList s a far).getD x.turns })
    else newConnection (s.setIface a { s.iface a with ents := mdel (s.iface a).ents n }) a b true

/-- CONNECTION_CREATE (R415): Headland creates the connection that has waited longest. -/
def execConnectionCreate (s : State) : Out :=
  match s.fabric.setups with
  | [] => .next s
  | x :: r => .next (connect { s with fabric := { s.fabric with setups := r } } x.1 x.2 false)

-- Flits (R409 to R413, R417)

/-- Counts a flit between two sites of one region (R352), sent (true) or received: those of its phase only. -/
def countFlit (s : State) (m : Msg) (sent : Bool) : State :=
  let d := s.landing m.dst
  let t := if sent then m.src else d
  if m.src < 0x10000 ∧ d < 0x10000 ∧ s.siteRegion m.src = s.siteRegion d ∧ ((s.siteRegion m.src).bind (mget s.regions)).any (fun g => decide (g.born ≤ m.id)) then
    let c := mgetD s.fabric.traffic t (0, 0)
    { s with fabric := { s.fabric with traffic := mset s.fabric.traffic t (if sent then (c.1 + 1, c.2) else (c.1, c.2 + 1)) } }
  else s

/-- A flit of message m, 64 bytes, moves through shared unit u: 1,056 up the interfaces that are no site, 1,140 the links of the mesh (R451). -/
def countBytes (s : State) (m : Msg) (u : Nat) : State :=
  if m.org.part < 64 ∧ u ≤ 1140 then
    { s with fabric := { s.fabric with bytes := mset s.fabric.bytes (u * 64 + m.org.part) (mgetD s.fabric.bytes (u * 64 + m.org.part) 0 + 64) } }
  else s

/-- The shared unit that an interface is; none for that of a site. -/
def ifUnit (a : Nat) : Nat := if a < 0x10000 then 4096 else 1056 + (a - 0x10000)

/-- What a dead destination's flit becomes (R123, R418): a request is answered NODE_DEAD, a write reported, a token discarded. -/
def answerDead (s : State) (m : Msg) : State :=
  match m.body with
  | .load _ _ => answerErr s m .nodeDead
  | .ldo _ => answerErr s m .nodeDead
  | .store _ _ _ => answerErr s m .nodeDead
  | .sto _ _ => answerErr s m .nodeDead
  | .clro _ _ => answerErr s m .nodeDead
  | .atomic _ _ _ _ _ _ => answerErr s m .nodeDead
  | .scld _ => answerErr s m .nodeDead
  | .scst _ _ => answerErr s m .nodeDead
  | .irst _ _ => answerErr s m .nodeDead
  | .agcfg _ _ _ => answerErr s m .nodeDead
  | .aggo _ _ _ _ _ => answerErr s m .nodeDead
  | .engRead _ _ _ => answerErr s m .nodeDead
  | .engWrite _ _ _ => answerErr s m .nodeDead
  | _ => s

/-- The flit of sequence number q of entry e. -/
def flitOf (s : State) (a : Nat) (e : Entry) (q : BitVec 6) (body : FlitBody) : Flit :=
  { ver := e.ver, peer := e.peer, seq := q, route := packRoute e.turns e.edge, body := body, place := ifSite s a, came := none }

/-- Sends one waiting message, if its connection allows (R417): none when it must wait. -/
def inject (s : State) (m : Msg) : Option State :=
  match outEntry s m.src m.dst with
  | none =>
    if (m.src, m.dst) ∈ s.fabric.setups then none else some { s with net := m :: s.net, fabric := { s.fabric with setups := s.fabric.setups ++ [(m.src, m.dst)] } }
  | some (n, e) =>
    if e.dead then some (answerDead s m)
    else if 32 ≤ unacked e ∨ retryCap m.src ≤ (s.iface m.src).retry.length then none
    else
      let e' := { e with nseq := e.nseq + 1, used := s.time, prog := if unacked e = 0 then s.time else e.prog }
      let i := s.iface m.src
      let s := s.setIface m.src { i with ents := mset i.ents n e', retry := i.retry ++ [(n, e.nseq, m)] }
      let f := flitOf s m.src e e.nseq (.msg m)
      let s := countBytes (countFlit s m true) m (ifUnit m.src)
      some { s with fabric := { s.fabric with flits := s.fabric.flits ++ [f] } }

/-- Messages leave their interfaces in order, each as its connection allows; one that must wait holds back those behind it to the same
interface. -/
def injectAll (s : State) (l : List Msg) (blocked : List (Nat × Nat)) : State :=
  match l with
  | [] => s
  | m :: r =>
    if (m.src, m.dst) ∈ blocked then injectAll { s with net := s.net ++ [m] } r blocked
    else match inject s m with
      | none => injectAll { s with net := s.net ++ [m] } r ((m.src, m.dst) :: blocked)
      | some s' =>
        if s'.net.length = s.net.length + 1 then injectAll { s' with net := s'.net.drop 1 ++ [m] } r ((m.src, m.dst) :: blocked)
        else injectAll s' r blocked

/-- What a router does with a flit (R413): its next place, the direction it came by and the rest of its route; none discards it. -/
def steer (s : State) (f : Flit) : Option Flit :=
  let r := f.route.toNat
  let d := r % 4
  let long := r / 4 % 2 = 1
  let run := if long then r / 8 % 128 else r / 8 % 4
  if !long ∧ run = 0 then
    if d = 3 then none
    else if d = 0 then some { f with place := 0x40000 + f.place }
    else (edgeAt f.place (d - 1)).map (fun a => { f with place := 0x40000 + a })
  else if run = 0 then none
  else match s.hop? f.place d with
    | none => none
    | some u => some { f with place := u, came := some (BitVec.ofNat 2 d), route := if run = 1 then f.route >>> (if long then 10 else 5) else f.route - 8 }

/-- A link CRC failure at the router that receives in direction d from site t (R410, R432): the flit is discarded; that router's 16th within 1 µs kills
the link. -/
def crcFail (s : State) (t d : Nat) : State :=
  let k := linkKey t d
  let l := s.link k
  let c := (l.crc ++ [(d, s.time)]).filter (fun x => decide (s.time ≤ x.2 + 1))
  let s := { s with fabric := { s.fabric with links := mset s.fabric.links k { l with crc := c }, crce := s.fabric.crce + 1 } }
  if 16 ≤ (c.filter (fun x => x.1 == d)).length then { s with agenda := s.agenda ++ [⟨headIf, .linkDead, { Input.none with addr := k }⟩] } else s

/-- The FIFO of the link by which flit g has come has a place for it, besides those in which flits stand (R409). -/
def roomFor (s : State) (g : Flit) : Bool :=
  decide (0x40000 ≤ g.place ∨ (s.fabric.flits.filter (fun f => f.place == g.place && f.came == g.came)).length < 8)

/-- Flit f is the oldest of its FIFO, and the router delivers it, discards it, or has a credit of the link that it takes next (R409). -/
def movable (s : State) (f : Flit) : Bool :=
  decide (f.place < 0x40000) && s.fabric.flits.find? (fun g => g.place == f.place && g.came == f.came) == some f && (steer s f).all (roomFor s)

/-- FLIT_HOP (R409, R413): waiting messages leave their interfaces, then the oldest flit in the mesh that can goes one hop or is delivered. inp.flag: it
fails the link CRC. -/
def execFlitHop (s : State) : Out :=
  let s := injectAll { s with net := [] } s.net []
  match s.fabric.flits.find? (movable s) with
  | none => .next s
  | some f =>
    let fs := s.fabric.flits.erase f
    let s := { s with fabric := { s.fabric with flits := fs } }
    match steer s f with
    | none => .next s
    | some g =>
      if s.inp.flag ∧ g.place < 0x40000 then .next (crcFail s f.place (f.route.toNat % 4))
      else
        let s := { s with fabric := { s.fabric with flits := s.fabric.flits ++ [g] } }
        let s := match g.body with
          | .msg m => if g.place < 0x40000 then countBytes s m 1140 else s
          | .ack _ => s
        if g.place < 0x40000 then .next s
        else .next (s.due (g.place - 0x40000) (match g.body with
          | .msg _ => .flitReceive
          | .ack _ => .ackReceive))

/-- Takes the oldest flit delivered to interface a that ok accepts. -/
def takeFlit (s : State) (a : Nat) (ok : FlitBody → Bool) : Option (Flit × State) :=
  (s.fabric.flits.find? (fun f => f.place == 0x40000 + a && ok f.body)).map (fun f =>
    (f, { s with fabric := { s.fabric with flits := s.fabric.flits.erase f } }))

/-- Sends the ACK flit of IN entry n of interface a (R417). -/
def sendAck (s : State) (a n : Nat) (nak : Bool) : State :=
  match mget (s.iface a).ents n with
  | none => s
  | some e =>
    let s := s.modEntry a n (fun e => { e with aseq := e.nseq - 1, fresh := 0, since := none, nakAt := if nak then some s.time else e.nakAt })
    { s with fabric := { s.fabric with flits := s.fabric.flits ++ [flitOf s a e (e.nseq - 1) (.ack nak)] } }

/-- The version of a flit is one its entry n accepts (R420): its own, or during the grace of a flip the one it had. -/
def verOk (i : Iface) (n : Nat) (e : Entry) (v : BitVec 4) : Bool := v == e.ver || (i.grace && (mget i.shadow n).any (fun x => x.ver == v))

/-- A message comes out of its interface at its destination. A void one, whose interval a rollback discarded, does nothing. -/
def arrive (s : State) (m : Msg) : State :=
  let d := s.landing m.dst
  match m.body with
  | .void => s
  | _ => { countBytes (countFlit s m false) m (ifUnit d) with inbox := mset s.inbox d (mgetD s.inbox d [] ++ [{ m with dst := d }]) }

/-- FLIT_RECEIVE (R417, R418, R420): an IN or PROXY entry accepts the flit in order, or discards it and acknowledges. -/
def execFlitReceive (s : State) : Out :=
  let a := s.agent
  match takeFlit s a (fun b => match b with
    | .msg _ => true
    | .ack _ => false) with
  | none => .next s
  | some (f, s) =>
    let n := f.peer.toNat
    match f.body, mget (s.iface a).ents n with
    | .msg m, some e =>
      if e.typ = .out ∨ verOk (s.iface a) n e f.ver = false then .next s
      else if f.seq = e.nseq then
        let s := s.modEntry a n (fun e => { e with nseq := e.nseq + 1, fresh := e.fresh + 1, since := some (e.since.getD s.core.elapsed), used := s.time })
        let s := if e.typ = .proxy then answerDead (if m.body = .void then s else countFlit s m false) m else arrive s m
        .next (if 8 ≤ e.fresh + 1 then sendAck s a n false else s)
      else if (f.seq - e.nseq).toNat < 32 then
        -- a gap
        (if (e.nakAt.map (fun t => decide (t + 1 ≤ s.time))).getD true then .next (sendAck s a n true) else .next s)
      else .next (sendAck s a n false)
    | _, _ => .next s

/-- 0.5 µs have passed since the entry accepted a flit that it has not acknowledged (R417). -/
def ackDue (s : State) (e : Entry) : Bool := e.typ != .out && e.fresh != 0 && e.since.any (fun t => decide (500000000 ≤ s.core.elapsed - t))

/-- ACK_TIMER (R417): entry inp.n acknowledges what it has accepted since its last ACK, 0.5 µs after the first of it. -/
def execAckTimer (s : State) : Out :=
  match mget (s.iface s.agent).ents s.inp.n with
  | none => .next s
  | some e => if ackDue s e then .next (sendAck s s.agent s.inp.n false) else .next s

/-- OUT entry n of interface a is marked DEAD: its interface answers every flit that is not acknowledged (R418). -/
def deadOut (s : State) (a n : Nat) : State :=
  let i := s.iface a
  let ms := i.retry.filter (fun r => r.1 == n)
  let s := s.setIface a { i with retry := i.retry.filter (fun r => r.1 != n), ents := mmod i.ents n (fun e => { e with dead := true, aseq := e.nseq }) }
  ms.foldl (fun s r => answerDead (if r.2.2.body = .void then s else countFlit s r.2.2 false) r.2.2) s

/-- OUT entry n of interface a resends every unacknowledged flit, oldest first (R417). -/
def resend (s : State) (a n : Nat) : State :=
  match mget (s.iface a).ents n with
  | none => s
  | some e =>
    let fs := ((s.iface a).retry.filter (fun r => r.1 == n)).map (fun r => flitOf s a e r.2.1 (.msg r.2.2))
    let s := s.modEntry a n (fun e => { e with prog := s.time })
    { s with fabric := { s.fabric with flits := s.fabric.flits ++ fs } }

/-- ACK_RECEIVE (R417): an ACK outside the window is ignored; a NAK makes the entry resend. -/
def execAckReceive (s : State) : Out :=
  let a := s.agent
  match takeFlit s a (fun b => match b with
    | .msg _ => false
    | .ack _ => true) with
  | none => .next s
  | some (f, s) =>
    let n := f.peer.toNat
    match f.body, mget (s.iface a).ents n with
    | .ack nak, some e =>
      let adv := (f.seq + 1 - e.aseq).toNat
      if e.typ ≠ .out ∨ unacked e < adv then .next s
      else
        let i := s.iface a
        let keep := i.retry.filter (fun r => !(r.1 == n && decide ((r.2.1 - e.aseq).toNat < adv)))
        let e' := { e with aseq := f.seq + 1, prog := if adv = 0 then e.prog else s.time }
        let s := s.setIface a { i with retry := keep, ents := mset i.ents n e' }
        .next (if nak then resend s a n else s)
    | _, _ => .next s

/-- RESEND_TIMEOUT (R417): OUT entry inp.n has made no progress for 8 µs. -/
def execResendTimeout (s : State) : Out :=
  match mget (s.iface s.agent).ents s.inp.n with
  | none => .next s
  | some e => if e.typ = .out ∧ unacked e ≠ 0 ∧ e.prog + 8 ≤ s.time then .next (resend s s.agent s.inp.n) else .next s

-- Deaths and flips (R410, R418 to R422)

/-- The domain of a region: partitions that a flip covers (R420). -/
def regionsOf (s : State) (p : Nat) : List (Nat × Region) := s.regions.filter (fun g => g.1 / 256 == p)

/-- The partition of the site end of an interface's connection. -/
def connPart (s : State) (a : Nat) (e : Entry) : Option Nat :=
  match s.siteRegion (if a < 0x10000 then a else s.landing e.dst) with
  | some k => some (k / 256)
  | none => none

/-- The partitions that hold a connection whose route crosses link k (R420). -/
def affected (s : State) (k : Nat) : List Nat :=
  ((s.fabric.ifs.flatMap (fun i => i.2.ents.filterMap (fun e =>
    if k ∈ turnLinks (ifSite s i.1) e.2.turns then connPart s i.1 e.2 else none)))).dedup

/-- Starts the flip of the regions given, or adds them to one that has not been sent; that of a move covers its own region only (R420 to R422).
remote: the peer's Headland asks for it. -/
def startFlip (s : State) (rs : List (Nat × BitVec 4)) (moved : Option (Nat × Nat)) (remote : Bool) : State :=
  let tell := if moved.isSome ∨ remote then [] else rs.map (fun x => x.1)
  match s.fabric.flips.getLast? with
  | some j =>
    if j.sent.isNone ∧ moved.isNone then
      let j' := { j with regions := j.regions ++ rs.filter (fun x => !(j.regions.any (fun y => y.1 == x.1))), tell := (j.tell ++ tell).dedup }
      { s with fabric := { s.fabric with flips := s.fabric.flips.dropLast ++ [j'] } }
    else { s with fabric := { s.fabric with flips := s.fabric.flips ++ [⟨rs, s.time, none, moved, tell⟩] } }
  | none => ({ s with fabric := { s.fabric with flips := [⟨rs, s.time, none, moved, tell⟩] } }).due headIf .flip

/-- The regions of the domains whose routes cross one of the given links, with their next versions (R420). -/
def crossed (s : State) (ks : List Nat) : List (Nat × BitVec 4) :=
  ((ks.flatMap (affected s)).dedup).flatMap (fun p => (regionsOf s p).map (fun g => (g.1, g.2.rver + 1)))

/-- LINK_DEAD (R410, R420, R432): link inp.addr is dead in both directions from now to the next boot. -/
def execLinkDead (s : State) : Out :=
  let k := s.inp.addr
  if (s.link k).dead then .next s
  else
    let rs := crossed s [k]
    let s := { s with fabric := { s.fabric with links := mset s.fabric.links k { s.link k with dead := true }, deadl := s.fabric.deadl + 1 } }
    if rs.isEmpty then .next s else .next (startFlip s rs none false)

/-- Site t holds resident state (R419): a C-tile of a resident phase, or an M-tile with a configured segment. -/
def holdsState (s : State) (t : Nat) : Bool :=
  let resident := match (s.siteRegion t).bind (fun k => mget s.regions k) with
    | some g => g.st != .free && g.st != .suspended
    | none => false
  if isCTile t then resident && ((s.stored t).sys.part.isSome || (decide (t = s.cur) && s.core.sys.part.isSome))
  else (s.mt t).segs.any (fun g => g.mode != .off)

/-- A site dies, or is treated as dead (R418, R419, R426): it holds no barrier line any more, and one that held resident state raises UNCORRECTABLE for
its domain. -/
def markDead (s : State) (t : Nat) : State :=
  let held := holdsState s t
  let p := ((s.siteRegion t).map (fun k => k / 256)).getD 64
  let s := { s with fabric := { s.fabric with sites := mset s.fabric.sites t { s.site t with dead := true } } }
  let lines := (((s.tile? t).map (fun c => c.ch.barriers.filterMap (fun b => if b.2.holds then b.2.line else none))).getD []).dedup
  let s := { s with agenda := s.agenda ++ lines.map (fun l => ⟨t, .barrierLineComplete, { Input.none with n := l.toNat }⟩) }
  if held then
    let w := trapWords (BitVec.ofNat 64 t) ⟨0, .uncorrectable, none, 0, BitVec.ofNat 64 (tileKey t 0), false, false⟩ 0 true false 0
    let s := faultRecord s p w 2 (s.oldest p)
    { s with agenda := ⟨headIf, .rollback, { Input.none with p := BitVec.ofNat 6 p }⟩ :: s.agenda }
  else s

/-- The connection of OUT entry n of interface a toward a dead site ends at the site's proxy, which goes on where the dead site's IN entry stood; without
a proxy the entry is marked DEAD (R418). -/
def endAtProxy (s : State) (a n : Nat) (e : Entry) : State :=
  let t := farOf s e
  match proxyFor s t with
  | none => deadOut s a n
  | some x =>
    if (mget (s.iface x).ents e.peer.toNat).any (fun y => y.typ == .proxy && y.dst == t && y.peer.toNat == n && partnerOf s x y == a) then s
    else
      match turnList s a x, turnList s x a, freeIndex s x with
      | some there, some back, some k =>
        let old := mget (s.iface t).ents e.peer.toNat
        let s := s.setIface t { s.iface t with ents := mdel (s.iface t).ents e.peer.toNat }
        let s := evict s x k
        let p : Entry := { e with typ := .proxy, peer := BitVec.ofNat 8 n, dst := t, edge := (endOf s a).2, nseq := (old.map Entry.nseq).getD e.aseq,
                                  aseq := (old.map Entry.aseq).getD (e.aseq - 1), turns := back, fresh := 0, since := none, nakAt := none }
        let s := s.setIface x { s.iface x with ents := mset (s.iface x).ents k p }
        s.modEntry a n (fun o => { o with peer := BitVec.ofNat 8 k, turns := there })
      | _, _, _ => deadOut s a n

/-- Every connection toward a dead site that ok accepts ends at a proxy. -/
def makeProxies (s : State) (ok : Nat → Entry → Bool) : State :=
  s.fabric.ifs.foldl (fun s i => i.2.ents.foldl (fun s e =>
    if e.2.typ = .out ∧ e.2.dead = false ∧ deadEnd s (farOf s e.2) ∧ ok i.1 e.2 then endAtProxy s i.1 e.1 e.2 else s) s) s

/-- Site t dies: the domains whose routes cross it flip, and their new routes end at proxies (R418 to R420). -/
def killSite (s : State) (t : Nat) : State :=
  let rs := crossed s ((List.range 4).filterMap (fun w => (neighbour t w).map (fun _ => linkKey t w)))
  let s := markDead s t
  if rs.isEmpty then makeProxies s (fun _ _ => true) else startFlip s rs none false

/-- SITE_DEATH (R419): site inp.tile dies. -/
def execSiteDeath (s : State) : Out :=
  if inField s.inp.tile && !(s.site s.inp.tile).dead then .next (killSite s s.inp.tile) else .next s

/-- The enterable sites of a region. -/
def regSites (s : State) (g : Region) : List Nat :=
  ((List.range (4 * (g.iy1 + 1 - g.iy0))).flatMap (fun y => (List.range (4 * (g.ix1 + 1 - g.ix0))).map (fun x =>
    tileId (4 * g.ix0 + x) (4 * g.iy0 + y)))).filter (fun t => s.enterable t)

/-- The site that no packable turn list reaches from the most sites of the region, if there is one (R419). -/
def unreachable (s : State) (g : Region) : Option Nat :=
  let ts := regSites s g
  let miss (t : Nat) : Nat := (ts.filter (fun r => (turnList s r t).isNone)).length
  ts.foldl (fun b t => if miss t = 0 then b else match b with
    | none => some t
    | some x => if miss x < miss t then some t else some x) none

/-- Fences a site (R419, R432). -/
def fence (s : State) (t : Nat) : State := markDead { s with fabric := { s.fabric with fenced := s.fabric.fenced + 1 } } t

/-- Fences sites of a region, one at a time, while some live site of it does not reach another (R419). -/
def fenceRegion (s : State) (g : Region) (fuel : Nat) : State :=
  match fuel with
  | 0 => s
  | fuel + 1 => match unreachable s g with
    | none => s
    | some t => fenceRegion (fence s t) g fuel

/-- The new version of the connection of an entry at interface a, when the flip covers the region whose version it bears: that of its sending site, or
of the receiving one where the sender is at the edge. -/
def inFlip (s : State) (rs : List (Nat × BitVec 4)) (a : Nat) (e : Entry) : Option (BitVec 4) :=
  let ends := if e.typ = .out then (a, farOf s e) else (partnerOf s a e, if e.typ = .proxy then e.dst else a)
  let site := if ends.1 < 0x10000 then ends.1 else ends.2
  (s.siteRegion site).bind (fun k => (rs.find? (fun x => x.1 == k)).map (fun x => x.2))

/-- The SHADOW bank of an interface (R416, R420): surviving connections keep index, PEER, NSEQ and ASEQ and take new turn lists and VER, and an edge
interface is named by the site at which it attaches now. -/
def shadowOf (s : State) (rs : List (Nat × BitVec 4)) (a : Nat) (i : Iface) : Map Entry :=
  i.ents.map (fun e => match inFlip s rs a e.2 with
    | none => e
    | some v =>
      let far := partnerOf s a e.2
      let d := if e.2.edge.isSome && e.2.typ != .proxy then endOf s far else (e.2.dst, if e.2.typ = .proxy then (endOf s far).2 else e.2.edge)
      match turnList s a far with
      | some ts => (e.1, { e.2 with turns := ts, ver := v, dst := d.1, edge := d.2 })
      | none => (e.1, { e.2 with ver := v }))

/-- Pins the connections of C-tile t with its neighbours (R415). -/
def pinWindows (s : State) (t : Nat) : State :=
  (List.range 4).foldl (fun s w => match neighbour t w with
    | some u => if s.live u then connect (connect s t u true) u t true else s
    | none => s) s

/-- The move of an actor's tile a to tile b, whose alias stands (R422): what b held as a spare goes, the IN entries keep their indices at the
target, and every connection toward the old site leads to the target; DST stays the old tile ID. -/
def moveEntries (s : State) (a b : Nat) : State :=
  let s := (s.iface b).ents.foldl (fun s e => evict s b e.1) s
  let s := s.setIface b { s.iface a with grace := (s.iface b).grace }
  let s := s.setIface a Iface.fresh
  { s with fabric := { s.fabric with ifs := s.fabric.ifs.map (fun i => (i.1, { i.2 with ents := i.2.ents.map (fun e =>
      let far := if partnerOf s i.1 e.2 = a then b else partnerOf s i.1 e.2
      if i.1 = b ∨ far = b then (e.1, { e.2 with turns := (turnList s i.1 far).getD e.2.turns }) else e) })) } }

/-- The routes of dead tile t lead to tile u, whose alias stands (R419): its proxies go, and each connection goes on where its sender has the
oldest number without acknowledgement; one without an entry at u is created anew. -/
def reviveEntries (s : State) (t u : Nat) : State :=
  let s := { s with fabric := { s.fabric with ifs := s.fabric.ifs.map (fun i => (i.1, { i.2 with
    ents := i.2.ents.filter (fun e => !(e.2.typ == .proxy && e.2.dst == t)) })) } }
  let s := moveEntries s t u
  let s := (s.iface u).ents.foldl (fun s e =>
    if e.2.typ = .inn then
      let far := farOf s e.2
      let s := s.modEntry u e.1 (fun x => { x with
        nseq := ((mget (s.iface far).ents e.2.peer.toNat).map (fun o => o.aseq)).getD x.nseq, fresh := 0, since := none })
      s.modEntry far e.2.peer.toNat (fun o => { o with peer := BitVec.ofNat 8 e.1, dead := false })
    else s) s
  let ends (a n : Nat) : Bool := (s.iface u).ents.any (fun e => e.2.typ == .inn && e.2.peer.toNat == n && farOf s e.2 == a)
  { s with fabric := { s.fabric with ifs := s.fabric.ifs.map (fun i =>
      let gone := (i.2.ents.filter (fun e => e.2.typ == .out && e.2.edge.isNone && s.landing e.2.dst == u && !(ends i.1 e.1))).map (fun e => e.1)
      (i.1, { i.2 with ents := i.2.ents.filter (fun e => !(decide (e.1 ∈ gone))), retry := i.2.retry.filter (fun r => !(decide (r.1 ∈ gone))) })) } }

/-- Step 5 of a move (R363): dispatch resumes on the target, the old site becomes spare, and a pre-emption that waited for the move begins. -/
def endMove (s : State) (a b : Nat) : State :=
  let put (s : State) (t : Nat) (st : SiteState) : State := { s with fabric := { s.fabric with sites := mset s.fabric.sites t { s.site t with st := st } } }
  let s := put (put s a .spare) b .live
  { s with regions := s.regions.map (fun g =>
      if g.2.move.any (fun m => m.src == a && m.dst == b) then (g.1, { g.2 with move := none, movedAt := mset g.2.movedAt b s.time, moves := g.2.moves + 1 }) else g)
           agenda := s.agenda ++ (s.regions.filter (fun g => g.2.move.any (fun m => m.src == a && m.dst == b))).map (fun g =>
             ⟨headIf, .preemptStart, { Input.none with n := g.1 }⟩) }

/-- FLIP (R419, R420, R422): the first flip that has not been sent. Unreachable sites are fenced, SHADOW banks are written and swapped, the
versions advance, grace begins, and the peers of a domain across modules hear of it; connections toward dead sites end at proxies. -/
def execFlip (s : State) : Out :=
  match s.fabric.flips with
  | [] => .next s
  | j :: rest =>
    if j.sent.isSome then .next s
    else
      let s : State := j.regions.foldl (fun s x => match mget s.regions x.1 with
        | some g => fenceRegion s g 4096
        | none => s) s
      let rs := j.regions.map (fun x => (x.1, ((mget s.regions x.1).map (fun g => g.rver + 1)).getD x.2))
      let s := match j.moved with
        | some m => pinWindows (endMove (moveEntries s m.1 m.2) m.1 m.2) m.2
        | none => s
      let s := makeProxies s (fun a e => (inFlip s rs a e).isSome)
      let ifs := s.fabric.ifs.map (fun i => (i.1, { i.2 with shadow := i.2.ents, ents := shadowOf s rs i.1 i.2, grace := true }))
      let s := { s with fabric := { s.fabric with ifs := ifs, flips := { j with regions := rs, sent := some s.time } :: rest, flipCount := s.fabric.flipCount + 1 } }
      let s : State := rs.foldl (fun s x => { s with regions := mmod s.regions x.1 (fun g => { g with rver := x.2 }) }) s
      let up (t : Nat) (c : CTile) : CTile := match (s.regionKey t).bind (fun k => rs.find? (fun x => x.1 == k)) with
        | some x => { c with sys := { c.sys with rver := x.2 } }
        | none => c
      let s := { s with core := up s.cur s.core, tiles := s.tiles.map (fun (x : Nat × CTile) => (x.1, up x.1 x.2)) }
      let s : State := rs.foldl (fun s x => reRecord s x.1) s
      let tell (f : FjPort) : FjPort :=
        let mine := rs.filter (fun x => fjEn f && decide (x.1 ∈ j.tell) && x.1 / 256 == f.bind.toNat % 64)
        if mine.isEmpty then f else { f with wait := f.wait ++ [.flip mine] }
      .next { s with fjs := s.fjs.map tell }

/-- FLIP_GRACE_END (R420, R421): 2 µs after a flip. Old-version flits are no longer accepted, unacknowledged flits are resent under the new
version, and a flip that waited starts now. -/
def execFlipGraceEnd (s : State) : Out :=
  match s.fabric.flips with
  | [] => .next s
  | j :: rest =>
    if j.sent.isNone then .next s
    else
      let next : List FlipJob := match rest with
        | [] => []
        | k :: r => { k with d := s.time } :: r
      let ifs := s.fabric.ifs.map (fun (i : Nat × Iface) => (i.1, { i.2 with grace := false, shadow := [] }))
      let s : State := { s with fabric := { s.fabric with ifs := ifs, flips := next } }
      let s : State := s.fabric.ifs.foldl (fun s (i : Nat × Iface) => i.2.ents.foldl (fun s (e : Nat × Entry) =>
        if e.2.typ = .out ∧ unacked e.2 ≠ 0 ∧ e.2.dead = false ∧ (inFlip s j.regions i.1 e.2).isSome then resend s i.1 e.1 else s) s) s
      .next (if rest.isEmpty then s else s.due headIf .flip)

end Sys2Proof.Machine
end

