-- ==== Sys2Proof/Machine/Recovery.lean ====
section
/-!
DEFINITION. The end of an image (R438), and recovery (R386 to R408, R457): waves, cuts, seals, uncorrectable errors and rollback.
-/

namespace Sys2Proof.Machine

open Sys2Proof

-- The end of an image

/-- A compute tile without a configuration: as reset left it, its counts and its clock apart (R12, R358). -/
def idleTile (c : CTile) : CTile :=
  { CTile.reset with
    cyc := c.cyc
    elapsed := c.elapsed
    sys := { CTile.reset.sys with clock := c.sys.clock, fduty := c.sys.fduty, fdutyNext := c.sys.fdutyNext, trapcnt := c.sys.trapcnt, stale := c.sys.stale } }

/-- A compute tile that its phase has left (R353): what no rule clears stays, its register banks, level specials, current interval and route version
(R387). -/
def leftTile (c : CTile) : CTile :=
  let d := idleTile c
  let left (l : Level) : Level := { l with inv := none, fetch := none, blk := none, rr := 0 }
  { d with l0 := left c.l0, l1 := left c.l1, sys := { d.sys with rver := c.sys.rver }, recov := { d.recov with rin := c.recov.rin } }

/-- Applies f to every compute tile that satisfies ok. -/
def State.mapTiles (s : State) (ok : Nat → CTile → Bool) (f : Nat → CTile → CTile) : State :=
  { s with
    core := if ok s.cur s.core then f s.cur s.core else s.core
    tiles := s.tiles.map (fun (x : Nat × CTile) => if ok x.1 x.2 then (x.1, f x.1 x.2) else x) }

/-- Interval i of partition p has sealed or become void (R386, R405). -/
def State.settled (s : State) (p : Nat) (i : BitVec 32) : Bool :=
  s.sealedIn p i || ((mget s.parts p).map (fun q => decide (0 ≤ (q.voidTo - i).toInt))).getD true

/-- The rectangle of a region that a phase leaves is noted with the current interval (R457). -/
def noteRan (s : State) (k : Nat) : State :=
  match mget s.regions k with
  | none => s
  | some g =>
    if g.resident then
      s.modPart (k / 256) (fun q => { q with ran := q.ran.filter (fun r => !(s.settled (k / 256) r.2)) ++ [((g.ix0, g.iy0, g.ix1, g.iy1), q.cur)] })
    else s

/-- The sites of a region's aliases, oldest first (R363): while its phase is resident the new site is in service and the old one is spare; otherwise
as before. -/
def swapSites (s : State) (l : List (Nat × Nat)) (on : Bool) : State :=
  let put (s : State) (t : Nat) (st : SiteState) : State := { s with fabric := { s.fabric with sites := mset s.fabric.sites t { s.site t with st := st } } }
  (if on then l else l.reverse).foldl (fun s a => put (put s a.1 (if on then .spare else .live)) a.2 (if on then .live else .spare)) s

/-- The connections that aliases lead to other sites end with the aliases (R363). -/
def dropAliases (s : State) (l : List (Nat × Nat)) : State :=
  l.foldl (fun s a =>
    let s := (s.iface a.2).ents.foldl (fun s e => evict s a.2 e.1) s
    s.fabric.ifs.foldl (fun s i => (i.2.ents.filter (fun e => e.2.edge.isNone && e.2.dst == a.1)).foldl (fun s e => evict s i.1 e.1) s) s) s

/-- The islands of region k are released (R353): its tiles and M-tiles hold nothing of the phase. -/
def releaseRegion (s : State) (k : Nat) : State :=
  let l := ((mget s.regions k).map (fun g => g.moved)).getD []
  let s := swapSites (dropAliases (noteRan s k) l) l false
  let s := s.mapTiles (fun _ c => inRegion k c) (fun _ c => leftTile c)
  tidyDirs { s with mts := s.mts.map (fun x => if x.2.region = some k then (x.1, MTile.reset) else x) }

/-- A completion status for an image's DONE (R438): UTAG bits 55:0 and the code; through the hold queue of the launch queue's port, or directly. A
direct one waits while that port is down, ahead of the queue. -/
def writeStatus (s : State) (g : Image) (code : Nat) (direct : Bool) : State :=
  let a := hostIf (s.queuePort g.queue)
  let w (i : BitVec 32) : Held := ⟨i, g.part, hostKey g.done.toNat, leBytes 8 (g.utag.toNat % 2 ^ 56 * 256 + code), none, none⟩
  if direct then
    if s.portUp a then performHeld s (w 0)
    else s.setRecv a { s.recv a with hold := w (((mget s.parts g.part).map Partition.sealed).getD 0) :: (s.recv a).hold }
  else holdWrite s a (w (((mget s.parts g.part).map Partition.cur).getD 0))

/-- An image ends (R353, R438): status, HEAD of its queue, its regions and its streams. -/
def endImage (s : State) (n code : Nat) (direct : Bool) : State :=
  match mget s.images n with
  | none => s
  | some g =>
    let s := writeStatus s g code direct
    let s : State := (s.regions.filter (fun r => r.2.img == n)).foldl (fun s r => releaseRegion (writeRegRecord s r.1 0) r.1) s
    { s with
      regions := s.regions.filter (fun r => r.2.img != n)
      images := mdel s.images n
      queues := (mmod s.queues g.queue (fun q => { q with head := q.head + 1 })).map (fun q =>
        if q.2.img = some n then (q.1, { q.2 with img := none, port := none, chan := none, start := none }) else q) }

-- The domain

/-- The region with key k is resident. -/
def residentKey (s : State) (k : Option Nat) : Bool := ((k.bind (fun k => mget s.regions k)).map Region.resident).getD false

/-- The compute tiles of partition p's resident regions. -/
def domTiles (s : State) (p : Nat) : List (Nat × CTile) :=
  s.allTiles.filter (fun x => x.2.sys.part == some p && residentKey s (some (p * 256 + x.2.sys.region.toNat)))

/-- The M-tiles of partition p's resident regions. -/
def domMts (s : State) (p : Nat) : List (Nat × MTile) := s.mts.filter (fun m => s.mPart m.1 == p && residentKey s m.2.region)

/-- Input streams of partition p: the bound INPUT queues. -/
def inStreams (s : State) (p : Nat) : List (Nat × Queue) := s.queues.filter (fun q => q.1 / 4096 == p && q.2.port.isSome)

/-- The bound request ports of partition p at shore actors: interface and port. -/
def shorePorts (s : State) (p : Nat) : List (Nat × Nat) :=
  s.recvs.flatMap (fun r => (r.2.ins.filter (fun i => i.1 / 4 == p)).map (fun i => (r.1, i.1)))

/-- The collective units with contributors of partition p on this module. -/
def collPorts (s : State) (p : Nat) : List Nat :=
  (List.range 48).filter (fun k => match s.fjs[k]? with
    | some f => f.coll.contribs.any (fun c => c.part == p && c.mod == fjMod f)
    | none => false)

/-- A contributor takes part in a wave: one of this module whose region is suspended does not (R405). -/
def collLive (s : State) (f : FjPort) (c : Contributor) : Bool := c.mod != fjMod f || residentKey s (s.siteRegion c.tile)

-- Waves (R395 to R400)

/-- R390: the wave that closes the current interval may start. -/
def waveFree (q : Partition) : Bool :=
  q.pend && q.wave.isNone && (decide (0 ≤ (q.sealed - (q.cur - 1)).toInt) || decide (0 ≤ (q.voidTo - (q.cur - 1)).toInt))

/-- The wave of partition p starts: the next number is issued (R386). -/
def startWave (s : State) (p : Nat) : State :=
  let s := s.modPart p (fun q => { q with pend := false, wave := some ⟨q.cur, [], false, false, [], [], false⟩, cur := q.cur + 1,
                                          cuts := mset q.cuts q.cur.toNat ⟨[], [], [], []⟩ })
  let now := ((mget s.parts p).map Partition.cur).getD 0
  -- a unit none of whose contributors takes part counts as cut (R405)
  (collPorts s p).foldl (fun s k => match s.fjs[k]? with
    | some f => if f.coll.contribs.any (collLive s f) then s else s.modColl k (fun u => { u with rin := now })
    | none => s) s

/-- WAVE_START (R386, R390, R395): partition inp.p, at its seal master. -/
def execWaveStart (s : State) : Out :=
  let p := s.inp.p.toNat
  match mget s.parts p with
  | none => .next s
  | some q => if waveFree q ∧ sealMaster q then .next (tellPeers (startWave s p) p (.wave q.cur)) else .next s

/-- PERIODIC_WAVE_TIMER (R395): partition inp.p requests a wave. -/
def execPeriodicWaveTimer (s : State) : Out := .next (s.askWave s.inp.p.toNat false)

/-- A TIDE of interval n (R273). -/
def tide (n : BitVec 32) : Token := { kind := 9, len := 0, words := [0, 0, 0, 0], psn := 0, stag := 0, rin := n, ch := 0 }

/-- TIDE_INJECTION (R395, R399): every host input stream of partition p inserts a TIDE after its last token and records its position. -/
def injectTides (s : State) (p : Nat) (w : Wave) : State :=
  let s := s.modPart p (fun q => { q with wave := some { w with injected := true } })
  (inStreams s p).foldl (fun s x =>
    match x.2.port with
    | none => s
    | some o =>
      let s := s.modPart p (fun q => { q with cuts := mmod q.cuts w.n.toNat (fun c => { c with streams := mset c.streams x.1 ⟨x.2.read.toNat, o.pos, x.2.eos⟩ }) })
      let s := { s with queues := mmod s.queues x.1 (fun q => { q with cuts := q.cuts ++ [(w.n, q.read)] }) }
      let a := hostIf (s.queuePort x.1)
      sendOver s a { s.origin 0 0 with tile := 0, part := p, rin := w.n } o.dest o.pos (tide w.n)) s

/-- The open wave of partition p that tile c has not passed. -/
def waveAt (s : State) (c : CTile) : Option (BitVec 32) :=
  match mget s.parts (c.sys.part.getD 64) with
  | none => none
  | some q => match q.wave with
    | some w => if !w.complete && !(later c.recov.rin w.n) then some w.n else none
    | none => none

/-- The actors of a tile: those with a valid task-table entry. -/
def actorsOf (c : CTile) : List Nat := ((c.ch.tasks.filter (fun e => taskV e.2)).map (fun e => taskAct e.2)).dedup

/-- R397: actor act of tile c is aligned for interval n. -/
def alignReady (c : CTile) (n : BitVec 32) (act : Nat) : Bool :=
  (mget c.recov.aligned act).isNone &&
    (c.ch.tasks.filter (fun e => taskV e.2 && taskAct e.2 == act)).all (fun e => match mget c.ch.ins e.1 with
      | none => true
      | some i => !i.awaited || ((i.queue.head?.map (fun x => x.2.kind == 9 && x.2.rin == n)).getD false)) &&
    !(c.l0.inv.any (fun i => i.act == act)) && !(c.l1.inv.any (fun i => i.act == act)) && !(c.ch.outq.any (fun o => o.act == act))

/-- ACTOR_ALIGN (R397): actor inp.n of the focus tile aligns, and a TIDE leaves on every bound output. -/
def execActorAlign (s : State) : Out :=
  match waveAt s s.core with
  | none => .next s
  | some n =>
    if alignReady s.core n s.inp.n = false ∨ (actorsOf s.core).all (fun a => a != s.inp.n) then .next s
    else
      let s := { s with core := { s.core with recov := { s.core.recov with aligned := mset s.core.recov.aligned s.inp.n n } } }
      .next ((List.range 8).foldl (fun s k => match mget s.core.ch.outs (s.inp.n * 8 + k) with
        | none => s
        | some o => sendOver s s.cur { s.origin 0 0 with act := s.inp.n, rin := n } o.dest o.pos (tide n)) s)

/-- R398, R393: tile c can take its cut for interval n. -/
def cutReady (c : CTile) (n : BitVec 32) : Bool :=
  !c.recov.sweep && (actorsOf c).all (fun a => (mget c.recov.aligned a).isSome) && c.mx.queue.all (fun x => later x.rin n)

/-- Tokens of interval n or earlier queued on a channel that is not awaited (R398). -/
def carriedOf (c : CTile) (n : BitVec 32) : Map (List (Nat × Token)) :=
  (c.ch.ins.filter (fun i => !i.2.awaited && i.2.border.isNone)).map (fun i => (i.1, (i.2.queue ++ i.2.late).filter (fun x => !(later x.2.rin n))))

/-- Tile t's cut record of interval n is written into its cut buffer n mod 2 (R398): the buffers of the site that configuration knows. -/
def writeCut (s : State) (p t : Nat) (n : BitVec 32) : State :=
  let h := if s.live (s.homeOf t) then s.homeOf t else t
  slotBlur s p h (0xC0000 + 0x20000 * (n.toNat % 2)) 2

/-- TILE_CUT (R398): the cut record is written, the TIDEs that aligned the actors are taken, and the tile enters interval n + 1. -/
def execTileCut (s : State) : Out :=
  match waveAt s s.core with
  | none => .next s
  | some n =>
    let moving := ((s.regionOf s.cur).bind (fun g => g.move)).any (fun m => m.src == s.cur || m.dst == s.cur)
    if cutReady s.core n = false ∨ moving then .next s
    else
      let p := s.core.sys.part.getD 64
      let c := { s.core with recov := { s.core.recov with carried := carriedOf s.core n, aligned := [] } }
      let s := writeCut s p s.cur n
      let s := s.modPart p (fun q => { q with
        wave := q.wave.map (fun w => { w with cutBy := s.cur :: w.cutBy })
        cuts := mmod q.cuts n.toNat (fun x => { x with
          tiles := mset x.tiles s.cur c
          gens := (domMts s p).foldl (fun l m => (m.2.gens.filter (fun g => g.tile == s.cur)).foldl (fun l g => mset l m.1 (placeGen g (mgetD l m.1 []))) l) x.gens }) })
      let pop (i : InChan) : InChan := if i.awaited ∧ (i.queue.head?.map (fun x => x.2.kind == 9 && x.2.rin == n)).getD false then { i with queue := i.queue.drop 1 } else i
      .next { s with core := { s.core with
        decided := true
        ch := { s.core.ch with ins := s.core.ch.ins.map (fun x => (x.1, pop x.2)) }
        recov := { s.core.recov with rin := n + 1, aligned := [] } } }

/-- A collective unit whose contributors have all delivered a TIDE: the interval (R399). -/
def collReady (s : State) (f : FjPort) : Option (BitVec 32) :=
  let l := f.coll.contribs.filter (fun c => fjTakes f c && collLive s f c)
  if l.all (fun c => c.tide.isSome) then (l.head?.bind (fun c => c.tide)) else none

/-- AGENT_CUT (R399): an M-tile cuts once a wave has started; a collective unit records its partial rounds, sends one TIDE and takes what it
held; a shore actor's ports have cut as their TIDEs passed. -/
def execAgentCut (s : State) : Out :=
  let a := s.agent
  if a < 0x10000 then
    match mget s.parts (s.mPart a) with
    | none => .next s
    | some q => match q.wave with
      | none => .next s
      | some w =>
        let m := s.mt a
        if isCTile a ∨ later m.rin w.n ∨ m.sweep ∨ w.complete then .next s
        else
          let s := s.setMt a { m with rin := w.n + 1 }
          .next (s.modPart (s.mPart a) (fun q => { q with wave := some { w with cutBy := a :: w.cutBy } }))
  else if 0x10020 ≤ a ∧ a < 0x10050 then
    let k := a - 0x10020
    match s.fjs[k]? with
    | none => .next s
    | some f => match collReady s f with
      | none => .next s
      | some n =>
        let cs := f.coll.contribs
        let ps := (cs.map (fun c => c.part)).dedup
        let s : State := ps.foldl (fun s p => s.modPart p (fun q => { q with cuts := mmod q.cuts n.toNat (fun c => { c with colls := mset c.colls k cs }) })) s
        let s := s.modColl k (fun u => { u with rin := n + 1, contribs := u.contribs.map (fun c => { c with tide := none, behind := [] }) })
        let s := collOut s k [tide n]
        .next (cs.foldl (fun s c => c.behind.foldl (fun s t => collFeed s k c.mod c.tile c.port t) s) s)
  else .next s

/-- A message of partition p and interval n or earlier is somewhere between its interfaces (R400). -/
def inFlight (s : State) (p : Nat) (n : BitVec 32) : Bool :=
  let old (m : Msg) : Bool := m.org.part == p && !(later m.org.rin n) && m.body != .void
  let flit (b : FjBody) : Bool := match b with
    | .msg _ m => old m
    | _ => false
  s.net.any old || s.inbox.any (fun x => x.2.any old) || s.waiting.any old || s.recvs.any (fun r => r.2.late.any (fun x => old x.m)) ||
  s.fabric.ifs.any (fun i => i.2.retry.any (fun r => old r.2.2)) ||
    s.fjs.any (fun f => f.wait.any flit || f.sent.any (fun x => x.slots.any flit))

/-- Every agent of the domain on this module has cut for interval n (R398, R399, R405). -/
def allCut (s : State) (p : Nat) (w : Wave) : Bool :=
  (w.injected || (inStreams s p).isEmpty) && (domTiles s p).all (fun x => later x.2.recov.rin w.n) && (domMts s p).all (fun x => later x.2.rin w.n) &&
    (shorePorts s p).all (fun x => match mget (s.recv x.1).rin x.2 with
      | some r => later r w.n
      | none => true) &&
    (collPorts s p).all (fun k => ((s.fjs[k]?).map (fun f => later f.coll.rin w.n)).getD true)

/-- Tokens of data kinds counted on a channel end in interval n. -/
def countOf (c : CTile) (inp : Bool) (ch : Nat) (n : BitVec 32) : Nat := (mgetD c.ch.counts (countKey inp ch n) (0, 0)).1

/-- The count of interval n at a channel end that is no tile's. -/
def tallyOf (s : State) (p code : Nat) (n : BitVec 32) : Nat := ((mget s.parts p).map (fun q => mgetD q.tally (code * 2 ^ 32 + n.toNat) 0)).getD 0

/-- The region of tile c skipped interval n, at least in part: it resumed into a later one (R405). -/
def skipped (s : State) (p : Nat) (c : CTile) (n : BitVec 32) : Bool :=
  (((mget s.regions (p * 256 + c.sys.region.toNat)).bind Region.back).map (fun b => later b n)).getD false

/-- The channels at tile t whose counts differ (R280, R400): what the tile or its border buffer sent against what the next segment's end received, and
what an agent other than a tile sent against what the tile received. An input channel is n, output k of actor a is 2,048 + 8a + k. -/
def badChannelsOf (s : State) (p t : Nat) (c : CTile) (n : BitVec 32) : List Nat :=
  let tile := s.homeOf t
  let there (t ch : Nat) (x : Nat) : Bool := match s.tile? (s.aliasOf t) with
    | none => true
    | some d => !(d.sys.part == some p && residentKey s (some (p * 256 + d.sys.region.toNat))) || later d.recov.rin (n + 1) || skipped s p d n ||
        countOf d true ch n == x
  let outs := c.ch.outs.filter (fun o => match o.2.dest with
    | .chan t ch => !(there t ch.toNat (countOf c false o.1 n))
    | .shore a k => tallyOf s p (Dest.code (.shore a (4 * p + k)) 0) n != countOf c false o.1 n
    | d => tallyOf s p (d.code tile) n != countOf c false o.1 n)
  let ins := c.ch.ins.filter (fun i => match i.2.border with
    | some o => (match o.dest with
      | .chan t ch => !(there t ch.toNat (countOf c true i.1 n))
      | .shore a k => tallyOf s p (Dest.code (.shore a (4 * p + k)) 0) n != countOf c true i.1 n
      | d => tallyOf s p (d.code tile) n != countOf c true i.1 n)
    | none => (match i.2.src with
      | .port _ _ _ => false
      | .border _ _ => false
      | .object _ => false
      | .trap => false
      | _ => tallyOf s p (tile * 64 + i.1) n != countOf c true i.1 n))
  outs.map (fun o => 2048 + o.1) ++ ins.map (fun i => i.1)

/-- The ends of partition p's channels whose producer is no tile: its interface, an index, where it leads. -/
def portOuts (s : State) (p : Nat) : List (Nat × Nat × Dest) :=
  (inStreams s p).filterMap (fun x => x.2.port.map (fun o => (hostIf (s.queuePort x.1), x.1 % 4096 % 64, o.dest))) ++
    s.recvs.flatMap (fun r => (r.2.outs.filter (fun o => o.1 / 4 == p)).map (fun o => (r.1, o.1 % 4, o.2.dest))) ++
    (collPorts s p).flatMap (fun k => (((s.fjs[k]?).map (fun f => f.coll.outs)).getD []).zipIdx.map (fun o => (fjIf k, o.2, o.1.dest)))

/-- The channels with no tile at either end whose counts differ (R400): interface and index. -/
def badPorts (s : State) (p : Nat) (n : BitVec 32) : List (Nat × Nat) :=
  ((portOuts s p).filter (fun e => match e.2.2 with
    | .chan _ _ => false
    | .shore a k => tallyOf s p e.2.2.sentCode n != tallyOf s p (Dest.code (.shore a (4 * p + k)) 0) n
    | d => tallyOf s p d.sentCode n != tallyOf s p (d.code (s.homeOf e.1)) n)).map (fun e => (e.1, e.2.1))

/-- The weight and the count of each port of actor act (R280). -/
def portCounts (c : CTile) (act : Nat) (n : BitVec 32) : List (Nat × Nat) :=
  let outs := (List.range 8).map (fun k => (mgetD c.ch.weights (act * 8 + k) 0, countOf c false (act * 8 + k) n))
  let ins := (c.ch.tasks.filter (fun e => taskV e.2 && taskAct e.2 == act)).map (fun e => (mgetD c.ch.weights (2 ^ 20 + e.1) 0, countOf c true e.1 n))
  (outs ++ ins).filter (fun x => x.1 != 0)

/-- The actors whose weighted counts differ (R280, R400). -/
def badActorsOf (c : CTile) (n : BitVec 32) : List Nat :=
  (actorsOf c).filter (fun a =>
    let l := portCounts c a n
    l.any (fun x => l.any (fun y => x.2 * y.1 != y.2 * x.1)))

/-- Every token imbalance of interval n: tile or interface, and the channel (below 1,024, or from 2,048 on for an output) or 1,024 + the actor. The
intervals that a region skipped are not checked there (R405). -/
def imbalances (s : State) (p : Nat) (n : BitVec 32) : List (Nat × Nat) :=
  ((domTiles s p).filter (fun x => !(skipped s p x.2 n))).flatMap (fun x =>
    (badChannelsOf s p x.1 x.2 n).map (fun k => (x.1, k)) ++ (badActorsOf x.2 n).map (fun a => (x.1, 1024 + a))) ++ badPorts s p n

/-- The first token imbalance of interval n that has not rolled the domain back in this replay: one raised again at the same place does not do so a
second time (R14). -/
def imbalance (s : State) (p : Nat) (n : BitVec 32) : Option (Nat × Nat) :=
  (imbalances s p n).find? (fun x => !(decide ((p, Cause.tokenImbalance, x.1 * 4096 + x.2) ∈ s.replays)))

/-- TOKEN_IMBALANCE at tile or interface t (R400, R402): INFO is the index of the channel, port or actor. The record of a channel without a tile names
the partition's first tile. -/
def raiseImbalance (s : State) (p t k : Nat) : Option State :=
  let tile := if t < 0x10000 then t else (((domTiles s p).head?).map (fun x => x.1)).getD 0
  let info := if k < 2048 then k % 1024 else k % 8
  raiseClassB s p .tokenImbalance (t * 4096 + k) (trapWords (BitVec.ofNat 64 tile) ⟨0, .tokenImbalance, none, BitVec.ofNat 32 info, 0, false, false⟩ 0 true false 0)
    (s.oldest p)

/-- The wave of partition p can be declared complete. -/
def waveDone (s : State) (p : Nat) (q : Partition) (w : Wave) : Bool :=
  !w.complete && allCut s p w && !(inFlight s p w.n) && (!(sealMaster q) || (domPorts s p).all (fun k => decide (k ∈ w.peers)))

/-- The contents of border buffers at the tidemark, which a rollback returns (R278): what a buffer still holds of interval n or earlier once the wave
is complete waits for a consumer that is not resident. -/
def keepBorders (s : State) (p : Nat) (n : BitVec 32) : State :=
  (domTiles s p).foldl (fun s x =>
    let held := (x.2.ch.ins.filter (fun i => i.2.border.isSome)).map (fun i => (i.1, i.2.queue.filter (fun y => y.2.kind != 9 && !(later y.2.rin n))))
    if held.isEmpty then s
    else s.modPart p (fun q => { q with cuts := mmod q.cuts n.toNat (fun c => { c with tiles := mmod c.tiles x.1 (fun d =>
      { d with recov := { d.recov with carried := held.foldl (fun m e => mset m e.1 e.2) d.recov.carried } }) }) })) s

/-- WAVE_COMPLETE (R280, R400): partition inp.p. The counts are compared; a difference raises TOKEN_IMBALANCE, once at each place (R14). Otherwise the
notice goes out. -/
def execWaveComplete (s : State) : Out :=
  let p := s.inp.p.toNat
  match mget s.parts p with
  | none => .next s
  | some q => match q.wave with
    | none => .next s
    | some w =>
      if waveDone s p q w = false then .next s
      else match (imbalance s p w.n).bind (fun x => raiseImbalance s p x.1 x.2) with
        | some s => .next s
        | none =>
          let s := (s.modPart p (fun q => { q with wave := some { w with complete := true } })) |> fun s => keepBorders s p w.n
          .next (tellPeers s p (.waveDone w.n))

-- Seals (R401)

/-- The message changes its home's state: a write of memory or of a segment, or a token that asks for one. -/
def isWrite (b : Payload) : Bool :=
  match b with
  | .store _ _ _ => true
  | .sto _ _ => true
  | .clro _ _ => true
  | .atomic _ _ _ _ _ _ => true
  | .scst _ _ => true
  | .irst _ _ => true
  | .agcfg _ _ _ => true
  | .engWrite _ _ _ => true
  | .bobj _ _ => true
  | .shoreTok _ _ => true
  | _ => false

/-- Writes of interval n or earlier on this module that have neither been performed nor entered a hold queue (R401): at a tile or an interface, between
two, waiting for the SC ring, or tokens of an output stream that wait for entries. -/
def writesOpen (s : State) (p : Nat) (n : BitVec 32) : Bool :=
  let old (m : Msg) : Bool := m.org.part == p && !(later m.org.rin n) && isWrite m.body
  let flit (b : FjBody) : Bool := match b with
    | .msg _ m => old m
    | _ => false
  s.net.any old || s.inbox.any (fun x => x.2.any old) || s.waiting.any old || s.fabric.ifs.any (fun i => i.2.retry.any (fun r => old r.2.2)) ||
    s.fjs.any (fun f => f.wait.any flit || f.sent.any (fun x => x.slots.any flit)) ||
    (domMts s p).any (fun m => m.2.held.any old || m.2.input.any old || m.2.cfgs.any old) ||
    s.recvs.any (fun r => r.2.late.any (fun x => old x.m) || r.2.missq.any old || r.2.walks.any (fun w => w.reqs.any old) ||
      r.2.faults.any (fun w => w.reqs.any old)) ||
    (domTiles s p).any (fun x => x.2.ch.sc.any (fun o => o.data.isSome && !(later o.org.rin n))) ||
    s.queues.any (fun x => x.1 / 4096 == p && x.2.chan.any (fun c => c.queue.any (fun t => t.2.kind != 9 && !(later t.2.rin n))))

/-- The sweep of the previous seal is complete at every home (R393, R401). -/
def sweepsDone (s : State) (p : Nat) : Bool := (domTiles s p).all (fun x => !x.2.recov.sweep) && (domMts s p).all (fun x => !x.2.sweep)

/-- The seal of interval n is decided or heard of: LSEALED advances, older cuts are freed, and SEALED goes to every agent. -/
def doSeal (s : State) (p : Nat) (n : BitVec 32) : State :=
  let inp : Input := { Input.none with p := BitVec.ofNat 6 p, v := n.setWidth 64 }
  let agents := (domTiles s p).map (fun x => x.1) ++ (domMts s p).map (fun x => x.1) ++
    (hostIf 0 :: (s.recvs.map (fun x => x.1)).filter (fun a => a != hostIf 0))
  let s := s.modPart p (fun q => { q with sealed := n, voidTo := if later (n - 0x40000000) q.voidTo then n - 0x40000000 else q.voidTo, wave := none, tally := q.tally.filter (fun x => later (BitVec.ofNat 32 x.1) n),
                                          telmUndo := q.telmUndo.filter (fun u => later u.1 n),
                                          cuts := q.cuts.filter (fun c => !(later n (BitVec.ofNat 32 c.1))) })
  { s with
    replays := s.replays.filter (fun r => r.1 != p)
    regions := s.regions.map (fun g => if g.1 / 256 = p then (g.1, { g.2 with back := g.2.back.filter (fun b => later b n) }) else g)
    agenda := s.agenda ++ agents.map (fun a => ⟨a, .sealed, inp⟩) }

/-- Everything of the complete wave has been performed on this module, and no module of the domain has a flit of it left (R401). -/
def wroteAll (s : State) (p : Nat) (w : Wave) : Bool :=
  w.complete && (domPorts s p).all (fun k => decide (k ∈ w.peers)) && !(writesOpen s p w.n) && sweepsDone s p

/-- The seal point of partition p's complete wave has come, on every module of the domain (R401); a module other than the master's tells the master
so, once. -/
def sealReady (s : State) (p : Nat) (q : Partition) (w : Wave) : Bool :=
  wroteAll s p w && (if sealMaster q then (domPorts s p).all (fun k => decide (k ∈ w.wrote)) else !w.told)

/-- SEAL_POINT (R401, R402): partition inp.p. The seal master decides the seal; another module says that it has performed the interval's writes. -/
def execSealPoint (s : State) : Out :=
  let p := s.inp.p.toNat
  match mget s.parts p with
  | none => .next s
  | some q => match q.wave with
    | none => .next s
    | some w =>
      if sealReady s p q w = false then .next s
      else if sealMaster q then .next (tellPeers (doSeal s p w.n) p (.sealed w.n))
      else .next (tellPeers (s.modPart p (fun q => { q with wave := some { w with told := true } })) p (.written w.n))

/-- Requests that waited for undo space try again, ahead of later ones (R394): those at compute tile a, and those at every interface, whose slots may
be another home's. -/
def wakeWaiting (s : State) (a : Nat) : State :=
  let s : State := s.recvs.foldl (fun s x => if inputBlocked s x.1 then pumpPorts (retryLate s x.1) x.1 else s) s
  let ms := s.waiting.filter (fun m => m.dst == a)
  if ms.isEmpty then s
  else { s with waiting := s.waiting.filter (fun m => m.dst != a), inbox := mset s.inbox a (ms ++ mgetD s.inbox a []) }

/-- Entries of host input queue k consumed before the TIDE of n are freed: HEAD advances to the recorded position (R401, R438). -/
def freeEntries (s : State) (p : Nat) (n : BitVec 32) : State :=
  { s with queues := s.queues.map (fun x =>
      if x.1 / 4096 = p then (match x.2.cuts.find? (fun c => c.1 == n) with
        | some c => (x.1, { x.2 with head := c.2, cuts := x.2.cuts.filter (fun d => later d.1 n) })
        | none => x) else x) }

/-- SEALED (R393, R401): interval inp.v of partition inp.p has sealed; agent a frees its slots and its held writes and starts its sweep. -/
def execSealed (s : State) : Out :=
  let a := s.agent
  let n : BitVec 32 := s.inp.v.setWidth 32
  let p := s.inp.p.toNat
  let open' (u : UndoSlot) : Bool := later u.rin n
  if a < 0x10000 then
    if isCTile a then
      let s := s.modTile a (fun c => { c with recov := { c.recov with undo := c.recov.undo.filter open', sweep := true,
                                                                      bankUndo := c.recov.bankUndo.filter (fun u => later u.1 n) } })
      .next ((wakeWaiting s a).due a .retagSweepEnd)
    else
      let m := s.mt a
      let s := s.setMt a { m with undo := m.undo.filter open', sweep := true, segUndo := m.segUndo.filter (fun u => later u.1 n) }
      .next (((mtWake s a).due a .retagSweepEnd))
  else
    let r := s.recv a
    let s := s.setRecv a { r with undo := r.undo.filter (fun u => open' u || u.part != p)
                                  poss := r.poss.filter (fun x => x.1 / 4 != p || !(later n x.2.1)) }
    .next (wakeWaiting (releaseHeld (if a = hostIf 0 then freeEntries s p n else s) a) a)

/-- RETAG_SWEEP_END (R393): every line bears the tag of the sealed interval but those that the unsealed intervals have tagged. -/
def execRetagSweepEnd (s : State) : Out :=
  let a := s.agent
  let part := if isCTile a then s.partOf a else s.mPart a
  let ls := s.lsealed part
  let keep (t : Nat × BitVec 2) : Bool := t.2 == (ls + 1).setWidth 2 || t.2 == (ls + 2).setWidth 2
  if a < 0x10000 then
    if isCTile a then .next (s.modTile a (fun c => { c with recov := { c.recov with sweep := false, tags := c.recov.tags.filter keep } }))
    else .next (s.setMt a { s.mt a with sweep := false, tags := (s.mt a).tags.filter keep })
  else .next s

-- Errors and rollback (R403 to R407, R457)

/-- The partition whose data stands at a memory key: that of the tile, or the one whose key range encrypted the line. -/
def partAt (s : State) (a k : Nat) : Nat :=
  if a < 0x10000 then (if isCTile a then s.partOf a else s.mPart a)
  else match mget s.lineKey (k / 64) with
    | none => s.inp.p.toNat
    | some e => ((s.parts.find? (fun q => decide (q.2.mem.kfirst ≤ e % 4096 ∧ e % 4096 < q.2.mem.kfirst + q.2.mem.kcnt))).map (fun q => q.1)).getD s.inp.p.toNat

/-- UNCORRECTABLE (R14, R124, R406): the byte at memory key inp.addr, detected at the step's agent. A second one at the same address in the
replay is a notice, and the data is delivered poisoned. -/
def execUncorrectable (s : State) : Out :=
  let a := s.agent
  let k := s.inp.addr
  let p := partAt s a k
  let s := { s with bad := if k ∈ s.bad then s.bad else k :: s.bad }
  let met := if s.inp.flag then s.inp.tile else ((domTiles s p).head?.map (fun x => x.1)).getD 0
  let tile := if a < 0x10000 then a else if s.inp.flag then s.inp.tile else 0
  let detail : Word := BitVec.ofNat 64 (if k < 0x1000000000000000 then k else k % 0x1000000000000000)
  let w := trapWords (BitVec.ofNat 64 tile) ⟨0, .uncorrectable, none, 0, detail, false, false⟩ 0 true false 0
  match raiseClassB s p .uncorrectable k w (s.oldest p) with
  | some s => .next s
  | none =>
    if a < 0x10000 ∧ isCTile a then .next (s.onTile a (fun s => tileNotice s .uncorrectable 0 detail))
    else .next (ifNotice s a p met .uncorrectable none 0 detail)

/-- The old bytes of a line go back (R403 step 3): the slot of the earliest void interval prevails. -/
def backwash (base : Nat) (l : BitVec 32) (undo : List UndoSlot) (s : State) : State :=
  (undo.filter (fun u => later u.rin l)).foldr (fun u s =>
    let s' := s.puts (base + 64 * u.line) u.old
    if base = 0 then { s' with lineKey := match u.key with
      | some k => mset s'.lineKey u.line k
      | none => mdel s'.lineKey u.line }
    else s') s

/-- The presence bits of a line's slot (R128). -/
def restorePres (pres : List Nat) (u : UndoSlot) : List Nat :=
  if u.pres.isEmpty then pres
  else (pres.filter (fun w => w / 8 != u.line)) ++ ((List.range 8).filter (fun j => (u.pres[j]?).getD false)).map (fun j => 8 * u.line + j)

/-- The banks with the copies of the void intervals put back, the earliest prevailing (R187). -/
def restoreBanks (c : CTile) (l : BitVec 32) : Map (BitVec 32) :=
  (c.recov.bankUndo.filter (fun u => later u.1 l)).foldr (fun u m => (u.2.2.getD []).foldl (fun m e => mset m e.1 e.2) (m.filter (fun e => e.1 / 4096 != u.2.1))) c.mx.banks

/-- The void intervals first changed bank b while it was RECOMP: no copy of it exists. -/
def bankGone (c : CTile) (l : BitVec 32) (b : Nat) : Bool :=
  ((c.recov.bankUndo.find? (fun u => later u.1 l && u.2.1 == b)).map (fun u => u.2.2.isNone)).getD false

/-- The matrix engine of a rolled-back tile (R187): a bank with no copy returns as a RECOMP bank does, +0 with its BST bits 0 and LOST set. -/
def restoreMx (c : CTile) (m : Matrix) (l : BitVec 32) : Matrix :=
  let gone : BitVec 4 := (List.range 4).foldl (fun v b => if bankGone c l b then v ||| (1#4 <<< b) else v) 0
  let m := { m with banks := restoreBanks c l }.kept
  { m with lost := m.lost ||| gone
           bst := (List.range 16).foldl (fun v i => if m.bst.getLsbD i && !(gone.getLsbD (i / 4)) then v ||| (1#16 <<< i) else v) 0 }

/-- A level after a rollback: bank, %fpst, %seed and %link of the record; no invocation (R73, R403). -/
def cutLevel (l : Level) : Level := { l with wdog := 0, inv := none, fetch := none, blk := none }

/-- A tile after step 4 of R403: its cut record c0 under the new interval; memory and the banks that are KEEP in the record come from undo, and the
counters of R12 go on. -/
def restoreTile (c c0 : CTile) (l now : BitVec 32) : CTile :=
  let chan (x : Nat × InChan) : Nat × InChan :=
    let q := mgetD c0.recov.carried x.1 []
    (x.1, ({ x.2 with queue := [], late := [], taken := 0, asks := [], trapFree := x.2.cap - q.length,
                      border := x.2.border.map (fun o => { o with credits := o.cap }) } : InChan).put q)
  { c0.rested with
    mx := restoreMx c c0.mx l
    cyc := c.cyc
    elapsed := c.elapsed
    l0 := cutLevel c0.l0
    l1 := cutLevel c0.l1
    row := c0.row.placed c0.cyc c.cyc
    ch := { c0.ch with ins := c0.ch.ins.map chan, held := [], outq := [], perf := [], sc := [], scSpent := 0, traps := [], counts := [] }
    sys := { c.sys with wdlim := c0.sys.wdlim, supv := c0.sys.supv, dbgen := c0.sys.dbgen, halted := c0.sys.halted,
                        brk := c0.sys.brk, stopped := c0.sys.stopped, disc := c0.sys.disc, discs := c0.sys.discs }
    recov := { rin := now, tags := [], undo := [], bankUndo := [], sweep := false, aligned := [], carried := [] } }

/-- What a rollback to interval l restarts from (R403, R457): the cut, or what configuration in interval cfgRin left when that came later or no cut of
the tile or the stream has followed it. -/
def recordOf {α : Type} (cut conf : Option α) (cfgRin l : BitVec 32) : Option α := if later cfgRin l then conf else cut.or conf

/-- The cut record of tile t for interval l. -/
def tileCut (q : Partition) (l : BitVec 32) (t : Nat) : Option CTile := (mget q.cuts l.toNat).bind (fun c => mget c.tiles t)

/-- The recorded position of host stream k for interval l. -/
def streamCut (q : Partition) (l : BitVec 32) (k : Nat) : Option StreamCut := (mget q.cuts l.toNat).bind (fun c => mget c.streams k)

/-- Tokens that take credits in a channel's queue (R403 step 4). -/
def creditToks (i : InChan) : Nat := (i.queue.filter (fun x => isData x.2 || isEos x.2)).length

/-- The input channel c of tile t whose producer is src: there, or in the saved context of a phase that is not resident. -/
def consumerOf (s : State) (src : Source) (t c : Nat) : Option InChan :=
  let find (x : CTile) : Option InChan := (mget x.ch.ins c).filter (fun i => i.src == src)
  match (s.tile? (s.aliasOf t)).bind find with
  | some i => some i
  | none => s.regions.findSome? (fun g => g.2.saved.findSome? (fun v =>
      (mget v.2.tiles (v.2.moved.foldl (fun t a => if a.1 = t then a.2 else t) t)).bind find))

/-- The credits that producer src holds after the restart: the capacity less the slots in use at the consumer (R276, R403). -/
def restartPort (s : State) (src : Source) (o : OutPort) : OutPort :=
  match o.dest with
  | .chan t c => { o with credits := o.cap - ((consumerOf s src t c.toNat).map (fun i => creditToks i + i.taken)).getD 0 }
  | _ => { o with credits := o.cap }

/-- The same for every output and border buffer of the tile that configuration knows as t. -/
def restartTile (s : State) (t : Nat) (c : CTile) : CTile :=
  { c with ch := { c.ch with
    outs := c.ch.outs.map (fun o => (o.1, restartPort s (.port t (o.1 / 8) (o.1 % 8)) o.2))
    ins := c.ch.ins.map (fun i => (i.1, { i.2 with border := i.2.border.map (restartPort s (.border t (BitVec.ofNat 6 i.1))) })) } }

/-- Every message of partition p of an interval up to v, and every notice that waits at a Fjoith port, is discarded (R239, R403 step 2); one whose flit
is unacknowledged keeps its number as a void message. What a peer has sent since its own rollback stands. -/
def dropMsgs (s : State) (p : Nat) (v : BitVec 32) : State :=
  let mine (m : Msg) : Bool := m.org.part == p && !(later m.org.rin v)
  let void (m : Msg) : Msg := if mine m then { m with body := .void } else m
  let keep (b : FjBody) : Bool := match b with
    | .msg _ m => !mine m
    | _ => true
  let clear (b : FjBody) : FjBody := match b with
    | .msg c m => .msg c (void m)
    | b => b
  { s with
    net := s.net.filter (fun m => !mine m)
    inbox := (s.inbox.map (fun x => (x.1, x.2.filter (fun m => !mine m)))).filter (fun x => !x.2.isEmpty)
    waiting := s.waiting.filter (fun m => !mine m)
    fjs := s.fjs.map (fun f => { f with
      notices := f.notices.filter (fun n => noticePart s n != p)
      wait := f.wait.filter (fun b => keep b)
      sent := f.sent.map (fun x => { x with slots := x.slots.map clear })
      out := f.out.map (fun x => { x with slots := x.slots.map clear }) })
    fabric := { s.fabric with
      flits := s.fabric.flits.map (fun f => match f.body with
        | .msg m => { f with body := .msg (void m) }
        | .ack _ => f)
      ifs := s.fabric.ifs.map (fun i => (i.1, { i.2 with retry := i.2.retry.map (fun r => (r.1, r.2.1, void r.2.2)) })) } }

/-- The places of port i's tokens at the restart cut of interval l: those of the cut, or those that a configuration or a resumption since then left. -/
def portPos (r : Recv) (i : Nat) (l : BitVec 32) : Nat × Nat :=
  ((r.poss.find? (fun x => x.1 == i && !(later l x.2.1))).map (fun x => x.2.2)).getD (0, 0)

/-- Notes what port i's places are when its phase is configured or resumes in interval cur. -/
def notePort (r : Recv) (i : Nat) (cur : BitVec 32) : Recv :=
  { r with poss := r.poss.filter (fun x => x.1 != i) ++
      [(i, cur - 1, ((mget r.ins i).map (fun c => c.pos)).getD 0, ((mget r.outs i).map (fun o => o.pos)).getD 0)] }

/-- The interfaces after a rollback: held writes of the void intervals, requests, tokens and notices (R239) are gone, the ports stand where the cut
found them, and the stacks' lines go back. -/
def restoreRecvs (s : State) (p : Nat) (l : BitVec 32) (q : Partition) : State :=
  s.recvs.foldl (fun s x =>
    let r := x.2
    let ours (k : Nat) : Bool := decide (q.mem.kfirst ≤ k % 4096 ∧ k % 4096 < q.mem.kfirst + q.mem.kcnt)
    let mine (u : UndoSlot) : Bool := u.part == p
    let vol (x : Nat × Bool) : Bool := ((mget s.lineKey x.1).map ours).getD true
    let s := blurLines ((r.vols.filter (fun x => x.2 && vol x)).map (fun x => x.1)) (backwash 0 l (r.undo.filter mine) s)
    let chan (i : Nat × InChan) : Nat × InChan := if i.1 / 4 = p then (i.1, { i.2 with queue := [], taken := 0, pos := (portPos r i.1 l).1 }) else i
    s.setRecv x.1 { r with
      walks := r.walks.filter (fun w => w.part != p)
      faults := r.faults.filter (fun w => w.part != p)
      missq := r.missq.filter (fun m => reqPart m != p)
      late := r.late.filter (fun x => reqPart x.m != p)
      hold := r.hold.filter (fun h => h.part != p || !(later h.rin l))
      notices := r.notices.filter (fun n => noticePart s n != p)
      undo := r.undo.filter (fun u => !(mine u && later u.rin l))
      ins := r.ins.map chan
      outs := r.outs.map (fun o => if o.1 / 4 = p then (o.1, { o.2 with pos := (portPos r o.1 l).2 }) else o)
      rin := r.rin.map (fun i => if i.1 / 4 = p then (i.1, q.cur) else i) }) s

/-- The credits of shore reply ports of partition p after the restart (R403 step 4). -/
def restartRecvs (s : State) (p : Nat) : State :=
  { s with recvs := s.recvs.map (fun x => (x.1, { x.2 with outs := x.2.outs.map (fun o => if o.1 / 4 = p then (o.1, restartPort s (.shore (x.1 - 0x10000) o.1) o.2) else o) })) }

/-- The nearest spare C-tile of a region (R362, R419); an old site takes back only the actor that its ID leads to (R363 step 4, notes/assumptions). -/
def spareOf (s : State) (g : Region) (t : Nat) : Option Nat :=
  (((List.range (4 * (g.iy1 + 1 - g.iy0))).flatMap (fun y => (List.range (4 * (g.ix1 + 1 - g.ix0))).map (fun x =>
    tileId (4 * g.ix0 + x) (4 * g.iy0 + y)))).filter (fun u => isCTile u && s.live u && ((s.site u).st == .spare) &&
      (!(g.moved.any (fun a => a.1 == u)) || s.aliasOf u == t) && ((s.tile? u).map (fun c => (actorsOf c).isEmpty)).getD false)).foldl
      (fun b u => match b with
        | none => some u
        | some x => if siteDist u t < siteDist x t then some u else some x) none

/-- Tile b takes the state c and the bytes of tile a, and keeps its own clock and counts; a holds nothing (R363, R419). -/
def carryTile (s : State) (c : CTile) (a b : Nat) : State :=
  let lo := tileKey a 0
  let dlo := tileKey b 0
  let cells := (s.mem.filter (fun x => decide (lo ≤ x.1 ∧ x.1 < lo + 0x80000))).map (fun x => (dlo + (x.1 - lo), x.2))
  let mem := cells.foldl (fun l x => memPut l x.1 x.2) (s.mem.filter (fun x => !(decide (dlo ≤ x.1 ∧ x.1 < dlo + 0x80000))))
  let s := { s with mem := mem, inbox := mset (mdel s.inbox a) b (mgetD s.inbox b [] ++ (mgetD s.inbox a []).map (fun (m : Msg) => { m with dst := b })) }
  let s := s.modTile b (fun d => { c with
    cyc := d.cyc
    elapsed := d.elapsed
    row := c.row.placed c.cyc d.cyc
    mx := { c.mx.kept with sigs := c.mx.sigs }
    sys := { c.sys with clock := d.sys.clock, fduty := d.sys.fduty, fdutyNext := d.sys.fdutyNext } })
  s.modTile a idleTile

/-- A region whose actor on tile a stands on tile b. -/
def carryKeys (g : Region) (a b : Nat) : Region :=
  { g with
    moved := g.moved ++ [(a, b)]
    mig := g.mig.map (fun t => if t = a then b else t)
    conf := match mget g.conf a with
      | some c => mset (mdel g.conf a) b c
      | none => g.conf }

/-- The cut buffers of tile a serve tile b (R407). -/
def carryCuts (s : State) (p a b : Nat) : State :=
  s.modPart p (fun q => { q with
    cuts := q.cuts.map (fun x => (x.1, match mget x.2.tiles a with
      | some c => { x.2 with tiles := mset (mdel x.2.tiles a) b c }
      | none => x.2))
    wave := q.wave.map (fun w => { w with cutBy := w.cutBy.map (fun t => if t = a then b else t) }) })

/-- A dead tile's record goes to the nearest spare of its region under an alias (R363, R419); without one, every image with a phase in the
region ends with FABRIC_LOSS (0x02). -/
def replaceDead (s : State) (k : Nat) (t : Nat) : State :=
  match mget s.regions k with
  | none => s
  | some g =>
    match (if isCTile t then spareOf s g t else none) with
    | some u =>
      let s := carryTile s (if t = s.cur then s.core else s.stored t) t u
      let s := { s with regions := mset s.regions k (carryKeys g t u) }
      pinWindows (reviveEntries (swapSites (carryCuts s (k / 256) t u) [(t, u)] true) t u) u
    | none => endImage s g.img 2 false

/-- Dead sites of partition p's resident regions that held state. -/
def deadSites (s : State) (p : Nat) : List (Nat × Nat) :=
  ((domTiles s p).filter (fun x => (s.site x.1).dead)).map (fun x => (p * 256 + x.2.sys.region.toNat, x.1)) ++
    ((domMts s p).filter (fun m => (s.site m.1).dead && m.2.segs.any (fun g => g.mode != .off))).map (fun m => (m.2.region.getD 0, m.1))

/-- A region after a rollback (R404, R457): one in GRACE or SAVE is resident again and its quantum starts again, as does that of one configured after
the cut; a CSWP of a void interval is undone, and a budget swap holds while the grant is below the floor. -/
def restoreRegion (s : State) (l : BitVec 32) (g : Region) : Region :=
  let keep := (((mget s.images g.img).bind Image.cswp).map (fun c => !(later c.2 l))).getD false
  let cs := g.causes.filter (fun c => if c == .cswp || c == .cswpForce then keep else c != .budget || decide (g.grant < g.floor))
  let g : Region := { g with causes := cs, seen := none, quiet := false, answers := [], move := g.move.filter (fun m => decide (4 ≤ m.step)) }
  if g.st = .grace ∨ g.st = .save then { g with st := .run, drain := false, since := s.time }
  else if g.st == RegState.run && later g.cfgRin l then { g with since := s.time } else g

/-- The cells of a saved context with the old bytes of void intervals put back, from the undo slots of tile t; the declared ranges discs are not in the
context (R383). -/
def rewindMem (l : BitVec 32) (t : Nat) (undo : List UndoSlot) (discs : List (Nat × Nat × Nat)) (m : List Host.Cell) : List Host.Cell :=
  (undo.filter (fun u => later u.rin l && !(discs.any (fun d => decide (d.2.1 ≤ 64 * u.line ∧ 64 * u.line < d.2.1 + d.2.2))))).foldr
    (fun u m => memPuts m (tileKey t (64 * u.line)) u.old) m

/-- The entries of an OUTPUT queue that stay written or held: TAIL plus the held entries of sealed intervals (R403, R438). -/
def keptEntries (s : State) (k : Nat) (q : Queue) : BitVec 32 :=
  q.tail + BitVec.ofNat 32 ((s.recv (hostIf (s.queuePort k))).hold.filter (fun h => h.queue == some k)).length

/-- A stream end of queue k, held by o, after a rollback (R403 step 5): an input stream rewinds to its recorded position, or to that of its
configuration (R457); an output stream's entries that were held for void intervals are free again. -/
def rewindQueue (s : State) (q : Partition) (l : BitVec 32) (k : Nat) (o : Queue) : Queue :=
  match o.port, recordOf (streamCut q l k) o.start o.bound l with
  | some e, some c => { o with read := BitVec.ofNat 32 c.read, eos := c.eos, port := some (restartPort s (.hostIn (k / 4096) k) { e with pos := c.pos }) }
  | _, _ =>
    let gone (c : InChan) : Nat := ((((mget s.queues k).map (fun x => x.placed)).getD 0) - keptEntries s k o).toNat + (c.queue.filter (fun t => t.2.kind != 9)).length
    { o with chan := o.chan.map (fun c => { c with queue := [], taken := 0, pos := c.pos - gone c }) }

/-- The segments of an M-tile after a rollback: as they stood before the first void interval that changed one (R392); CACHE segments restored so hold
no line. -/
def restoreSegs (l : BitVec 32) (m : MTile) : List Segment :=
  m.segs.mapIdx (fun k g => match m.segUndo.find? (fun u => later u.1 l && u.2.1 == k) with
    | some u => { u.2.2 with lines := [] }
    | none => g)

/-- The generator commands of an M-tile after a rollback: those of the cut, none of them with a request on its way (R219, R398). One whose phase was
configured or resumed in interval cfgRin, after the cut, has those it had then: conf (R457). -/
def restoreGens (q : Partition) (l : BitVec 32) (t : Nat) (conf : List Gen) (cfgRin : BitVec 32) : List Gen :=
  ((recordOf ((mget q.cuts l.toNat).bind (fun c => mget c.gens t)) (some conf) cfgRin l).getD []).map (fun g => { g with wait := false })

/-- The channel ends of a saved phase at shore port k (1,024 actor + port) as the restart cut leaves them: no token, and the places of the cut. -/
def rewindShore (s : State) (l : BitVec 32) (k : Nat) (x : Option InChan × Option OutPort) : Option InChan × Option OutPort :=
  let pos := portPos (s.recv (shoreIf (k / 1024))) (k % 1024) l
  (x.1.map (fun c => { c with queue := [], taken := 0, pos := pos.1 }), x.2.map (fun o => { o with pos := pos.2 }))

/-- A context saved after interval l is rewound in its context area (R404). -/
def rewindContext (s : State) (q : Partition) (l : BitVec 32) (v : Saved) : Saved :=
  if later v.rin l then
    { v with
      mem := v.mts.foldl (fun m x => rewindMem l x.1 x.2.undo [] m) (v.tiles.foldl (fun m x => rewindMem l x.1 x.2.recov.undo x.2.sys.discs m) v.mem)
      tiles := v.tiles.map (fun x => match recordOf (tileCut q l x.1) (mget v.conf x.1) v.cfgRin l with
        | some c0 => (x.1, restoreTile x.2 c0 l v.rin)
        | none => x)
      queues := v.queues.map (fun x => (x.1, rewindQueue s q l x.1 x.2))
      shores := v.shores.map (fun x => (x.1, rewindShore s l x.1 x.2))
      mts := v.mts.map (fun x => (x.1, { x.2 with
        segs := restoreSegs l x.2
        pres := (x.2.undo.filter (fun u => later u.rin l)).foldr (fun u p => restorePres p u) x.2.pres
        gens := restoreGens q l x.1 (mgetD v.confGens x.1 []) v.cfgRin
        held := []
        undo := x.2.undo.filter (fun u => !(later u.rin l))
        segUndo := x.2.segUndo.filter (fun u => !(later u.1 l)) })) }
  else v

/-- The credits of a rewound context's producers, once its consumers stand as the restart cut leaves them (R276, R403, R404). -/
def restartContext (s : State) (l : BitVec 32) (v : Saved) : Saved :=
  if later v.rin l then
    { v with
      tiles := v.tiles.map (fun x => (x.1, restartTile s (v.moved.foldr (fun a t => if a.2 = t then a.1 else t) x.1) x.2))
      shores := v.shores.map (fun x => (x.1, (x.2.1, x.2.2.map (restartPort s (.shore (x.1 / 1024) (x.1 % 1024))))))
      colls := v.colls.map (fun x => (x.1, x.2.1, (((s.fjs[x.1]?).bind (fun f => f.coll.outs[x.2.1]?)).map (fun o =>
        (restartPort s (.coll x.1 x.2.1) o).credits)).getD x.2.2)) }
  else v

/-- The saved contexts of a region after a rollback to interval l: those saved later are rewound (R404). -/
def rewindSaved (s : State) (q : Partition) (l : BitVec 32) (g : Region) : Region :=
  { g with saved := g.saved.map (fun v => (v.1, rewindContext s q l v.2)) }

/-- The save slots and region records of partition p's regions whose contexts a rollback to interval l rewinds are written anew (R377, R378, R404). -/
def rewriteSaves (s : State) (p : Nat) (l : BitVec 32) : State :=
  (s.regions.filter (fun g => g.1 / 256 == p && g.2.saved.any (fun v => later v.2.rin l))).foldl (fun s g =>
    writeRegRecord ((g.2.saved.filter (fun v => later v.2.rin l)).foldl (fun s v => writeSaves s p v.2) s) g.1 g.2.record) s

/-- The entry from which queue k is read again for a phase that waits, suspended, and has been rewound (R403, R404). -/
def rewoundRead (s : State) (l : BitVec 32) (k : Nat) : Option (BitVec 32) :=
  s.regions.findSome? (fun g => g.2.saved.findSome? (fun v =>
    if later v.2.rin l then ((mget v.2.queues k).filter (fun o => o.port.isSome)).map (fun o => o.read) else none))

/-- Step 5 of R403 for a queue of partition q: its stream, bound or waiting with a suspended phase, and the entries placed in it. -/
def restoreQueue (s : State) (q : Partition) (l : BitVec 32) (x : Nat × Queue) : Nat × Queue :=
  let o := rewindQueue s q l x.1 x.2
  let o := { o with cuts := o.cuts.filter (fun d => !(later d.1 l)) }
  if o.port.isSome then (x.1, o)
  else (x.1, { o with placed := keptEntries s x.1 x.2, read := if o.chan.isSome then o.read else (rewoundRead s l x.1).getD o.read })

/-- The rollback of partition p to the cut of its last sealed interval (R403). -/
def rollback (s : State) (p : Nat) : State :=
  match mget s.parts p with
  | none => s
  | some q0 =>
    let l := q0.sealed
    -- steps 1, 2: every issued and unsealed interval is void; the next number not yet issued is issued
    let s := s.modPart p (fun q => { q with rbk := q.rbk + 1, voidTo := q.cur, cur := q.cur + 1, wave := none, ring := ringStart s p q,
                                            telm := ((q.telmUndo.head?).map (fun u => u.2.1)).getD q.telm,
                                            telmAt := ((q.telmUndo.head?).map (fun u => u.2.2)).getD q.telmAt, telmUndo := [],
                                            cuts := q.cuts.filter (fun c => !(later (BitVec.ofNat 32 c.1) l)) })
    match mget s.parts p with
    | none => s
    | some q =>
      let s : State := dropMsgs s p q.voidTo
      -- step 3: backwash
      let ts := domTiles s p
      let ms := domMts s p
      let s : State := ts.foldl (fun s x => backwash (tileKey x.1 0) l x.2.recov.undo s) s
      let s : State := ms.foldl (fun s x => backwash (tileKey x.1 0) l x.2.undo s) s
      let s : State := restoreRecvs s p l q
      -- step 4: cut records
      let regOf (c : CTile) : Option Region := c.sys.part.bind (fun p => mget s.regions (p * 256 + c.sys.region.toNat))
      let mine (t : Nat) : Bool := ts.any (fun x => x.1 == t)
      let s : State := s.mapTiles (fun t _ => mine t) (fun t c => match (regOf c).bind (fun g => recordOf (tileCut q l t) (mget g.conf t) g.cfgRin l) with
        | some c0 => restoreTile c c0 l q.cur
        | none => restoreTile c c l q.cur)
      let s : State := ms.foldl (fun s x => s.setMt x.1 { x.2 with
        segs := restoreSegs l x.2
        pres := (x.2.undo.filter (fun u => later u.rin l)).foldr (fun u p => restorePres p u) x.2.pres
        held := []
        input := []
        cfgs := []
        notices := x.2.notices.filter (fun n => noticePart s n != p)
        gens := (match x.2.region.bind (fun k => mget s.regions k) with
          | some g => restoreGens q l x.1 (mgetD g.confGens x.1 []) g.cfgRin
          | none => [])
        rin := q.cur
        tags := []
        undo := x.2.undo.filter (fun u => !(later u.rin l))
        segUndo := x.2.segUndo.filter (fun u => !(later u.1 l))
        sweep := false }) s
      let s : State := tidyDirs s
      -- regions
      let gone (t : Nat) : Bool := s.regions.any (fun g => g.1 / 256 == p && inRect g.2.ix0 g.2.iy0 g.2.ix1 g.2.iy1 t)
      let s : State := { s with
        fabric := { s.fabric with traffic := s.fabric.traffic.filter (fun x => !(gone x.1)) }
        regions := s.regions.map (fun g => if g.1 / 256 = p then (g.1, rewindSaved s q l { restoreRegion s l g.2 with born := s.nextId }) else g)
        images := s.images.map (fun m => if m.2.part = p then (m.1, { m.2 with cswp := m.2.cswp.filter (fun c => !(later c.2 l)) }) else m) }
      let s : State := (deadSites s p).foldl (fun s x => reRecord (replaceDead s x.1 x.2) x.1) s
      let now := domTiles s p
      let s : State := s.mapTiles (fun t _ => now.any (fun x => x.1 == t)) (fun t c => restartTile s (s.homeOf t) c)
      let s : State := rewriteSaves (restartRecvs s p) p l
      let s : State := { s with regions := s.regions.map (fun g => if g.1 / 256 = p then
        (g.1, { g.2 with saved := g.2.saved.map (fun v => (v.1, restartContext s l v.2)) }) else g) }
      -- step 5: streams and collective units
      let s : State := { s with queues := s.queues.map (fun x => if x.1 / 4096 = p then restoreQueue s q l x else x) }
      let s : State := (collPorts s p).foldl (fun s k => s.modColl k (fun u => { u with
        contribs := ((mget q.cuts l.toNat).bind (fun c => mget c.colls k)).getD (u.contribs.map (fun c => { c with rounds := [], tide := none, behind := [], early := [] }))
        queue := []
        rin := q.cur
        outs := u.outs.mapIdx (fun i o => restartPort s (.coll k i) o) })) s
      let s : State := (collPorts s p).foldl (fun s k => s.modColl k (fun u => { u with contribs := u.contribs.map (fun c => { c with tide := none, behind := [] }) })) s
      let s : State := (collPorts s p).foldl wakeColl s
      let again := s.regions.filter (fun g => g.1 / 256 == p && g.2.st == .run && !g.2.causes.isEmpty)
      { s with agenda := s.agenda ++ again.map (fun g => ⟨headIf, .preemptStart, { Input.none with n := g.1 }⟩) }

/-- The border buffers go on once a consumer's phase has come (R267). -/
def pumpBorders (s : State) : State :=
  (s.allTiles.filter (fun x => x.2.ch.ins.any (fun i => i.2.border.isSome))).foldl (fun s x =>
    (x.2.ch.ins.filter (fun i => i.2.border.isSome)).foldl (fun s i => s.onTile x.1 (fun s => pumpBorder s i.1 600)) s) s

/-- The seal master rolls the domain back: every module voids the same intervals (R386, R388). -/
def rollDomain (s : State) (p : Nat) : State :=
  match mget s.parts p with
  | none => s
  | some q => rollback (tellPeers s p (.rollback q.cur)) p

/-- The item is the effect of a seal of partition p at an agent. -/
def sealItem (p : Nat) (x : Item) : Bool := x.step == .sealed && x.inp.p == BitVec.ofNat 6 p

/-- Effects of a seal of partition p are still due: they come before the backwash (R407). -/
def sealsDue (s : State) (p : Nat) : Bool := s.agenda.any (sealItem p)

/-- The step under way comes again once the seal of partition p has had its effects. -/
def afterSeals (s : State) (p : Nat) (i : Instr) : State :=
  { s with agenda := s.agenda.filter (sealItem p) ++ ⟨s.agent, i, s.inp⟩ :: s.agenda.filter (fun x => !(sealItem p x)) }

/-- ROLLBACK (R14, R388, R402 to R407): a cause of partition inp.p. The seal master rolls the domain back; another module sends the cause to it. -/
def execRollback (s : State) : Out :=
  let p := s.inp.p.toNat
  match mget s.parts p with
  | none => .next s
  | some q =>
    if sealMaster q = false then .next (tellPeers s p .cause)
    else if sealsDue s p then .next (afterSeals s p .rollback)
    else .next (rollDomain s p)

end Sys2Proof.Machine
end

