-- ==== Sys2Proof/Machine/FjLink.lean ====
section
/-!
DEFINITION. The Fjoith links (R425, R428 to R431): frames and their numbers, credits, resends, lanes and training, and what the peer module
sends: messages, contributors of a collective unit, and the control flits of its Headland.
-/

namespace Sys2Proof.Machine

open Sys2Proof

/-- Changes Fjoith port k. -/
def State.modFj (s : State) (k : Nat) (f : FjPort → FjPort) : State := { s with fjs := s.fjs.modify k f }

/-- The partition a port is bound to. -/
def fjPart (f : FjPort) : Nat := f.bind.toNat % 64
def fjDom (v : Word) : BitVec 16 := v.extractLsb' 16 16

/-- The two binding registers agree (R430). -/
def fjAgree (a b : Word) : Bool :=
  a.getLsbD 63 && b.getLsbD 63 && fjDom a == fjDom b && a.extractLsb' 40 8 == b.extractLsb' 48 8 && a.extractLsb' 48 8 == b.extractLsb' 40 8 &&
    a.extractLsb' 48 8 != b.extractLsb' 48 8

/-- The link of port f carries traffic (R429, R430): both ends agree, the partition's DOM is the register's, and lanes are locked. -/
def linkOk (s : State) (f : FjPort) : Bool :=
  fjAgree f.bind f.peer && f.lanes != 0 && !f.training &&
    ((mget s.parts (fjPart f)).map (fun q => q.dom != 0 && q.dom == fjDom f.bind)).getD false

/-- The class of a flit (R428): token 0, request 1, reply 2, control 3. -/
def FjBody.cls (b : FjBody) : Nat :=
  match b with
  | .msg c _ => c.toNat
  | _ => 3

/-- Up to n flits that the peer's credits let go, in order within each class: those taken, those left, the credits. -/
def pickSlots (n : Nat) (l : List FjBody) (cred : List Nat) : List FjBody × List FjBody × List Nat :=
  match l with
  | [] => ([], [], cred)
  | b :: r =>
    let c := (cred[b.cls]?).getD 0
    if n = 0 then ([], b :: r, cred)
    else if c = 0 then
      let x := pickSlots n r cred
      (x.1, b :: x.2.1, x.2.2)
    else
      let x := pickSlots (n - 1) r (cred.set b.cls (c - 1))
      (b :: x.1, x.2.1, x.2.2)

/-- Flits of each class that stand in the receive queues of port k (R428): tokens and requests that the port has not taken yet, and replies without a
place on their connection. -/
def rxQueues (s : State) (k : Nat) : List Nat :=
  let here := (mgetD s.inbox (fjIf k) []).filter (fun m => decide (0x20000 ≤ m.src))
  let toks := (here.filter (fun m => match m.body with
    | .collTok _ _ => true
    | _ => false)).length
  [toks, here.length - toks, (s.net.filter (fun m => m.src == fjIf k)).length, 0]

/-- The credits that port f can return: flits of each class that have left their receive queue, rx of them standing there (R428). -/
def backNow (f : FjPort) (rx : List Nat) : List Nat := f.gaveBack.zipIdx.map (fun n => min 255 (n.1 - (rx[n.2]?).getD 0))

/-- The next frame of port f with the slots given (R428). -/
def nextFrame (f : FjPort) (rx : List Nat) (slots : List FjBody) : Frame := ⟨f.nak, slots, f.expect - 1, f.fseq, backNow f rx, true⟩

/-- A frame leaves, and is kept until it is acknowledged; none leaves while 1,024 are kept (R429). -/
def sendFrame (now : Nat) (rx : List Nat) (f : FjPort) (slots : List FjBody) : FjPort :=
  if 1024 ≤ f.sent.length then f
  else
    let x := nextFrame f rx slots
    { f with fseq := f.fseq + 1, sent := f.sent ++ [x], out := f.out ++ [x], nak := false,
             gaveBack := f.gaveBack.zipIdx.map (fun n => n.1 - (x.cred[n.2]?).getD 0),
             prog := if f.sent.isEmpty then now else f.prog }

/-- Frames leave while flits wait, credits allow and fewer than 1,024 frames are kept. -/
def pumpFrames (now : Nat) (rx : List Nat) (fuel : Nat) (f : FjPort) : FjPort :=
  match fuel with
  | 0 => f
  | fuel + 1 =>
    let x := pickSlots 8 f.wait f.cred
    if x.1.isEmpty ∨ 1024 ≤ f.sent.length then f
    else pumpFrames now rx fuel (sendFrame now rx { f with wait := x.2.1, cred := x.2.2 } x.1)

/-- Port k sends what waits. -/
def pumpFj (s : State) (k : Nat) : State :=
  match s.fjs[k]? with
  | none => s
  | some f => if linkOk s f then s.modFj k (fun f => pumpFrames s.time (rxQueues s k) 1024 f) else s

/-- Port k sends what waits, and else a frame with the credits it can return (R428). -/
def beatFj (s : State) (k : Nat) : State :=
  let s := pumpFj s k
  match s.fjs[k]? with
  | none => s
  | some f =>
    if linkOk s f ∧ (backNow f (rxQueues s k)).any (fun n => n != 0) then s.modFj k (fun f => sendFrame s.time (rxQueues s k) f []) else s

/-- Port k resends every frame that is not acknowledged, from ACK + 1 on (R429). -/
def resendFj (s : State) (k : Nat) : State := s.modFj k (fun f => { f with out := f.out ++ f.sent, prog := s.time })

/-- The agent's Fjoith port. -/
def fjHere (s : State) : Nat := s.agent - 0x10020

-- What a frame brings

/-- The tile that notices about the peer's requests name: the first of the partition's resident tiles. -/
def peerTile (s : State) (p : Nat) : Nat := (((domTiles s p).head?).map (fun x => x.1)).getD 0xFFFF

/-- A flit from port k's peer (R307, R429, R431): it goes on from the local port; one of an interval that a rollback has voided is discarded (R403). -/
def takeBody (s : State) (k : Nat) (f : FjPort) (b : FjBody) : State :=
  let s := s.modFj k (fun f => { f with gaveBack := f.gaveBack.modify b.cls (fun n => n + 1) })
  let p := fjPart f
  let far (t : Nat) : Nat := 0x20000 * (k + 1) + t % 0x20000
  let put (s : State) (m : Msg) : State := { s with inbox := mset s.inbox (fjIf k) (mgetD s.inbox (fjIf k) [] ++ [m]) }
  let void (m : Msg) : Bool := ((mget s.parts p).map (fun q => decide (0 ≤ (q.voidTo - m.org.rin).toInt))).getD false
  match b with
  | .msg c m =>
    if void m then s
    else if c = 0 then put s { m with src := far m.src, dst := fjIf k, org := { m.org with part := p } }
    else if c = 1 then put s { m with src := far m.src, dst := fjIf k, org := { m.org with part := p, tile := peerTile s p } }
    else { s with net := s.net ++ [{ m with src := fjIf k, org := { m.org with part := p } }] }
  | _ => { s with agenda := s.agenda ++ [⟨headIf, .fjoithControlFlit, { Input.none with n := k, frame := some ⟨false, [b], 0, 0, [], true⟩ }⟩] }

/-- ACK, NAK and CRED of a frame with a correct CRC (R428, R429). -/
def takeAck (now : Nat) (f : FjPort) (x : Frame) : FjPort :=
  let first := ((f.sent.head?).map Frame.fseq).getD f.fseq
  let adv := (x.ack + 1 - first).toNat
  let n := if adv ≤ f.sent.length then adv else 0
  let cred := f.cred.zipIdx.map (fun c => min 256 (c.1 + (x.cred[c.2]?).getD 0))
  let f := { f with sent := f.sent.drop n, prog := if n = 0 then f.prog else now }
  if x.fseq = f.expect then { f with cred := cred } else f

/-- FJOITH_FRAME_RECEIVE (R428, R429): frame inp.frame at the agent's port is accepted in order with a correct CRC, else discarded; a gap or a bad CRC
is NAKed. -/
def execFjoithFrameReceive (s : State) : Out :=
  let k := fjHere s
  match s.fjs[k]?, s.inp.frame with
  | some f, some x =>
    if linkOk s f = false then .next s
    else if x.ok = false then .next (s.modFj k (fun f => sendFrame s.time (rxQueues s k) { f with nak := true } []))
    else
      let s := s.modFj k (fun f => takeAck s.time f x)
      let s := if x.nak then resendFj s k else s
      if x.fseq = f.expect then
        let s := s.modFj k (fun f => { f with expect := f.expect + 1 })
        let s := x.slots.foldl (fun s b => takeBody s k f b) s
        let s := pumpFj s k
        .next (if x.slots.isEmpty then s else s.modFj k (fun f => sendFrame s.time (rxQueues s k) f []))
      else if (x.fseq - f.expect).toNat < 32768 then .next (s.modFj k (fun f => sendFrame s.time (rxQueues s k) { f with nak := true } []))
      else .next (s.modFj k (fun f => sendFrame s.time (rxQueues s k) f []))
  | _, _ => .next s

/-- FJOITH_RESEND_TIMEOUT (R429): 4 µs without progress. -/
def execFjoithResendTimeout (s : State) : Out :=
  let k := fjHere s
  match s.fjs[k]? with
  | none => .next s
  | some f => if f.sent.isEmpty = false ∧ f.prog + 4 ≤ s.time ∧ linkOk s f then .next (pumpFj (resendFj s k) k) else .next s

/-- FJOITH_LANE_LOSS (R429): a lane loses lock, or 16 codewords are uncorrectable within 1 µs. The port retrains; flits wait. -/
def execFjoithLaneLoss (s : State) : Out := .next (s.modFj (fjHere s) (fun f => { f with training := true, lanes := 0 }))

/-- The lanes a port runs on: 8, 4, 2 or 1 of those that lock. -/
def lanesOf (n : Nat) : Nat := if 8 ≤ n then 8 else if 4 ≤ n then 4 else if 2 ≤ n then 2 else min n 1

/-- FJOITH_RETRAIN_DONE (R429, R430): inp.n lanes have locked. With at least one, the number of the peer's port (inp.addr) and its binding register
(inp.v) are learned and PVAL is set; frames are resent from ACK + 1. -/
def execFjoithRetrainDone (s : State) : Out :=
  let k := fjHere s
  let n := lanesOf s.inp.n
  if n = 0 then .next (s.modFj k (fun f => { f with training := false, lanes := 0 }))
  else
    let s := s.modFj k (fun f => { f with
      training := false
      lanes := n
      bind := (f.bind &&& 0xFFFFFF80FFFFFFFF) ||| BitVec.ofNat 64 (2 ^ 38 + s.inp.addr % 64 * 2 ^ 32)
      peer := s.inp.v })
    .next (pumpFj (resendFj s k) k)

/-- FJOITH_RETRY_TIMER (R429): a port that locks no lane trains again, bound or not. -/
def execFjoithRetryTimer (s : State) : Out := .next (s.modFj (fjHere s) (fun f => if f.lanes = 0 then { f with training := true } else f))

-- Control flits

/-- The peer's Headland asks for a flip of the domain's regions (R420): each goes to its next version. -/
def peerFlip (s : State) (p : Nat) : State :=
  let rs := (regionsOf s p).map (fun g => (g.1, g.2.rver + 1))
  if rs.isEmpty then s else startFlip s rs none true

/-- The contributors of the peer's end of the unit of port k, as the peer now tells them (R431). -/
def peerBinds (s : State) (k : Nat) (f : FjPort) (l : List (Nat × Nat)) : State :=
  wakeColl (s.modColl k (fun u => { u with
    far := true
    contribs := l.foldl (fun cs x => addContrib cs ⟨fjPmod f, x.1, x.2, fjPart f, [], none, [], []⟩)
      (u.contribs.filter (fun c => c.mod != fjPmod f || l.any (fun x => x.1 == c.tile && x.2 == c.port))) })) k

/-- FJOITH_CONTROL_FLIT (R135, R143, R388, R400, R407, R420, R425, R431): a control flit that came over port inp.n. With none, inp.v is the peer's
binding register as it now stands. -/
def execFjoithControlFlit (s : State) : Out :=
  let k := s.inp.n
  match s.fjs[k]? with
  | none => .next s
  | some f =>
    let p := fjPart f
    match (s.inp.frame.map Frame.slots).getD [] with
    | [] => .next (pumpFj (s.modFj k (fun f => { f with peer := s.inp.v })) k)
    | b :: _ =>
      match b, mget s.parts p with
      | .binds l, _ => .next (peerBinds s k f l)
      | .flip _, _ => .next (peerFlip s p)
      | .sealed n, some _ => if s.settled p n then .next s else .next (doSeal s p n)
      | .wave n, some q =>
        if q.wave.isSome ∨ s.settled p n then .next s else .next (startWave (s.modPart p (fun q => { q with cur := n })) p)
      | .waveDone n, some _ =>
        .next (s.modPart p (fun q => { q with wave := q.wave.map (fun w => if w.n = n then { w with peers := k :: w.peers.filter (fun j => j != k) } else w) }))
      | .written n, some _ =>
        .next (s.modPart p (fun q => { q with wave := q.wave.map (fun w => if w.n = n then { w with wrote := k :: w.wrote.filter (fun j => j != k) } else w) }))
      | .cause, some q =>
        if sealMaster q = false then .next s
        else if sealsDue s p then .next (afterSeals s p .fjoithControlFlit)
        else .next (rollDomain s p)
      | .rollback n, some _ =>
        if sealsDue s p then .next (afterSeals s p .fjoithControlFlit)
        else .next (rollback (s.modPart p (fun q => { q with cur := n })) p)
      | .ring n, some q => .next (if later n q.voidTo then s.modPart p (fun x => { x with ring := (ringFirst s q).getD ringAway }) else s)
      | .ask, some _ => .next (s.askWave p false)
      | _, _ => .next s

end Sys2Proof.Machine
end

