-- ==== Sys2Proof/Machine/Loader.lean ====
section
/-!
DEFINITION. The program image and the loader (R226, R259, R263 to R285, R349, R350, R354, R457): reading an image from partition virtual
memory, its layout, its checks, and what configuration leaves.
-/

namespace Sys2Proof.Machine

open Sys2Proof

-- Reading partition virtual memory

/-- The outcome of reading partition virtual memory: the bytes, a page that faults, or a leaf with another or an unusable key, or no memory. -/
inductive VRead where
  | ok (bs : List Byte)
  | fault (v : Nat)
  | bad
  deriving DecidableEq, Repr

/-- Reads n bytes at partition virtual address v page by page (R269, R300); key, if given, is the KEY index every leaf must have. -/
def readVirt (s : State) (q : PartMem) (key : Option Nat) (v n fuel : Nat) : VRead :=
  match fuel with
  | 0 => .ok []
  | fuel + 1 =>
    if n = 0 then .ok []
    else
      let kind : Option IfKind := match spanOf q v with
        | .shore _ => some .shore
        | .host _ => some .host
        | _ => none
      match kind with
      | none => .bad
      | some k =>
        match walk s q k v with
        | .fault _ => .fault v
        | .leaf l =>
          if l.r = false then .fault v
          else if (key.map (fun x => decide (l.key ≠ q.kfirst + x))).getD false then .bad
          else if s.keyUsable l.key = false then .bad
          else
            let m := min n (65536 - v % 65536)
            let at' := if k = .shore then shoreKey l.pa else hostKey l.pa
            match readVirt s q key (v + m) (n - m) fuel with
            | .ok r => .ok (encBytes s at' m l.key ++ r)
            | x => x

/-- Field of w bytes at an offset. -/
def fld (bs : List Byte) (o w : Nat) : Nat := leNat ((bs.drop o).take w)

def zeros (bs : List Byte) (o w : Nat) : Bool := ((bs.drop o).take w).all (fun b => b == 0)

-- Layout (R269 to R272)

/-- A section: type, phase, records. -/
structure Section where
  typ : Nat
  phase : Nat
  recs : List (List Byte)
  deriving DecidableEq, Repr

/-- The record size of a section type; 0 for TDATA, whose records have their own; none for a type that is refused (R271). -/
def recSize (typ : Nat) : Option Nat :=
  match typ with
  | 1 => some 16 | 2 => some 16 | 3 => some 32 | 4 => some 32 | 5 => some 0 | 6 => some 544 | 7 => some 64 | 8 => some 16 | 9 => some 16
  | _ => none

/-- Cuts count records from the image at offset o; none when they do not lie in it. -/
def cutRecs (bs : List Byte) (size o count : Nat) : Option (List (List Byte)) :=
  match count with
  | 0 => some []
  | c + 1 =>
    let n := if size = 0 then (16 + fld bs (o + 8) 4 + 15) / 16 * 16 else size
    if bs.length < o + n then none
    else (cutRecs bs size (o + n) c).map (fun r => (bs.drop o).take n :: r)

/-- The sections of the table, in order; none when a layout breaks (R270, R271). -/
def cutSections (bs : List Byte) (o n : Nat) : Option (List Section) :=
  match n with
  | 0 => some []
  | n + 1 =>
    let typ := fld bs o 2
    let off := fld bs (o + 8) 8
    match recSize typ with
    | none => none
    | some size =>
      if bs.length < o + 16 ∨ off % 16 ≠ 0 then none
      else match cutRecs bs size off (fld bs (o + 4) 4), cutSections bs (o + 16) n with
        | some r, some t => some (⟨typ, fld bs (o + 2) 2, r⟩ :: t)
        | _, _ => none

/-- Sorted by TYPE and then by PHASE. -/
def sortedSecs (l : List Section) : Bool :=
  match l with
  | a :: b :: r => decide (a.typ < b.typ ∨ (a.typ = b.typ ∧ a.phase ≤ b.phase)) && sortedSecs (b :: r)
  | _ => true

/-- A parsed image. -/
structure Parsed where
  nreg : Nat
  nph : Nat
  key : Option Nat
  secs : List Section
  deriving DecidableEq, Repr

/-- The bytes that R271 and R272 give no field are 0. -/
def padOk (typ : Nat) (b : List Byte) : Bool :=
  match typ with
  | 1 => zeros b 6 10
  | 2 => zeros b 13 3
  | 3 => zeros b 3 5 && zeros b 24 8
  | 4 => zeros b 20 12 && decide (fld b 9 1 < 8)
  | 5 => zeros b 2 2 && zeros b 12 4 && zeros b (16 + fld b 8 4) 16
  | 6 => zeros b 3 13
  | 7 => zeros b 3 13
  | 8 => zeros b 3 1 && zeros b 12 4
  | _ => zeros b 2 14

/-- The image's bytes against R269 to R271; none is refused. -/
def parseImage (bs : List Byte) (len : Nat) : Option Parsed :=
  let nreg := fld bs 8 2
  let nph := fld bs 10 2
  let so := fld bs 16 8
  if bs.length < 64 ∨ fld bs 0 4 ≠ 1 ∨ fld bs 4 4 ≠ len ∨ nreg = 0 ∨ 255 < nreg ∨ nph = 0 ∨ 255 < nph ∨ so % 16 ≠ 0 ∨ zeros bs 26 38 = false then none
  else match cutSections bs so (fld bs 12 4) with
    | none => none
    | some secs =>
      let one (t n : Nat) : Bool := (secs.filter (fun x => x.typ == t)).all (fun x => x.phase == 0xFFFF) &&
        ((secs.filter (fun x => x.typ == t)).map (fun x => x.recs.length)).sum == n
      if sortedSecs secs && one 1 nreg && one 2 nph && secs.all (fun x => x.recs.all (padOk x.typ)) &&
          (secs.filter (fun x => 3 ≤ x.typ)).all (fun x => decide (x.phase < nph)) then
        some ⟨nreg, nph, if fld bs 24 2 = 0xFFFF then none else some (fld bs 24 2), secs⟩
      else none

/-- The records of a type that belong to a phase (0xFFFF: to the image). -/
def Parsed.recs (i : Parsed) (typ phase : Nat) : List (List Byte) :=
  (i.secs.filter (fun x => x.typ == typ && x.phase == phase)).flatMap (fun x => x.recs)

/-- REGION record r: ix0, iy0, ix1, iy1, U, θ (R271). -/
def Parsed.region (i : Parsed) (r : Nat) : List Nat := (((i.recs 1 0xFFFF)[r]?).getD []).take 6 |>.map BitVec.toNat

/-- PHASE record p: region index, minq in µs, %supv or 0xFFFFFFFF, flags (R271). -/
def Parsed.phaseRec (i : Parsed) (p : Nat) : Nat × Nat × Nat × Nat :=
  let b := ((i.recs 2 0xFFFF)[p]?).getD []
  (fld b 0 2, fld b 4 4, fld b 8 4, fld b 12 1)

/-- A CHAN record (R272). -/
structure ChanRec where
  pk : Nat
  pport : Nat
  pid : Nat
  ck : Nat
  cport : Nat
  cid : Nat
  cch : Nat
  flags : Nat
  cap : Nat
  pw : Nat
  cw : Nat
  xph : Nat
  pact : Nat
  cact : Nat
  deriving DecidableEq, Repr

def chanRec (b : List Byte) : ChanRec :=
  { pk := fld b 0 1, pport := fld b 1 1, pid := fld b 2 2, ck := fld b 4 1, cport := fld b 5 1, cid := fld b 6 2, cch := fld b 8 1, flags := fld b 9 1,
    cap := fld b 10 2, pw := fld b 12 2, cw := fld b 14 2, xph := fld b 16 2, pact := fld b 18 1, cact := fld b 19 1 }

def Parsed.chans (i : Parsed) (p : Nat) : List ChanRec := (i.recs 4 p).map chanRec

/-- The consumer's tile ends the channel in this phase. -/
def ChanRec.hasIn (c : ChanRec) : Bool := c.ck == 0
/-- The producer is an actor of this phase. -/
def ChanRec.hasOut (c : ChanRec) : Bool := c.pk == 0
def ChanRec.crosses (c : ChanRec) : Bool := c.flags / 2 % 2 == 1

-- The phase's tiles and checks

/-- The sites of a rectangle of islands, by tile ID. -/
def rectSites (x0 y0 x1 y1 : Nat) : List Nat :=
  (List.range (4 * (y1 + 1 - y0))).flatMap (fun y => (List.range (4 * (x1 + 1 - x0))).map (fun x => tileId (4 * x0 + x) (4 * y0 + y)))

/-- The TASK records of a phase: tile, channel, entry. -/
def Parsed.tasks (i : Parsed) (p : Nat) : List (Nat × Nat × BitVec 128) :=
  (i.recs 3 p).map (fun b => (fld b 0 2, fld b 2 1, BitVec.ofNat 128 (fld b 8 16)))

/-- The task table of a tile of the phase. -/
def Parsed.table (i : Parsed) (p t : Nat) : List (Nat × BitVec 128) := ((i.tasks p).filter (fun x => x.1 == t)).map (fun x => x.2)

/-- Actor act stands on tile t in the phase. -/
def Parsed.actorOn (i : Parsed) (p t act : Nat) : Bool := (i.table p t).any (fun e => taskV e.2 && taskAct e.2 == act)

/-- R226: the rules of a tile's task table. -/
def tableOk (l : List (Nat × BitVec 128)) : Bool :=
  let v := l.filter (fun e => taskV e.2)
  v.all (fun a =>
    decide (a.1 < 64) && decide ((poolOf a.2).1 + (poolOf a.2).2 ≤ 256) &&
    (!(a.2.getLsbD 2) || ((poolOf a.2).2 == 1 && !(taskJoin a.2))) && (!(taskMe a.2) || taskJoin a.2) &&
    v.all (fun b =>
      (if taskAct a.2 = taskAct b.2 then a.2.extractLsb' 113 15 == b.2.extractLsb' 113 15 && poolOf a.2 == poolOf b.2 && taskPriv a.2 == taskPriv b.2
       else decide ((poolOf a.2).1 + (poolOf a.2).2 ≤ (poolOf b.2).1 ∨ (poolOf b.2).1 + (poolOf b.2).2 ≤ (poolOf a.2).1))) &&
    (!(taskJoin a.2) || v.any (fun b => b.1 == taskPart a.2 && b.1 != a.1 && taskJoin b.2 && taskPart b.2 == a.1 &&
      (a.2 ||| (0x7F#128 <<< 65) ||| 0x10#128) == (b.2 ||| (0x7F#128 <<< 65) ||| 0x10#128))))

-- Graphs (R284)

/-- The channels that an actor (tile, act) produces, by output port. -/
def outsOf (cs : List ChanRec) (t act : Nat) : List ChanRec :=
  (List.range 8).flatMap (fun k => cs.filter (fun c => c.hasOut && c.pid == t && c.pact == act && c.pport == k))

/-- The walk of R284 from one channel: channels seen, back channels. path: the actors on the walk's current path. -/
def walkChan (cs : List ChanRec) (path : List (Nat × Nat)) (fuel : Nat) (c : ChanRec) (acc : List ChanRec × List ChanRec) : List ChanRec × List ChanRec :=
  match fuel with
  | 0 => acc
  | fuel + 1 =>
    if c.pk = 6 ∨ c ∈ acc.1 then acc
    else
      let acc := (c :: acc.1, acc.2)
      if c.ck ≠ 0 then acc
      else if (c.cid, c.cact) ∈ path then (acc.1, c :: acc.2)
      else (outsOf cs c.cid c.cact).foldl (fun a d => walkChan cs ((c.cid, c.cact) :: path) fuel d a) acc

/-- The back channels of a phase. -/
def backChans (i : Parsed) (p : Nat) : List ChanRec :=
  let cs := i.chans p
  let n := cs.length + 1
  let acc := (cs.filter (fun c => c.pk == 1 || c.pk == 2 || c.pk == 3 || c.pk == 4)).foldl (fun a c => walkChan cs [] n c a) ([], [])
  let actors := ((i.tasks p).filter (fun e => taskV e.2.2)).map (fun e => (e.1, taskAct e.2.2))
  (actors.dedup.foldl (fun a x => (outsOf cs x.1 x.2).foldl (fun a c => walkChan cs [x] n c a) a) acc).2

/-- The border sites of a rectangle of islands. -/
def onBorder (x0 y0 x1 y1 t : Nat) : Bool :=
  tileX t == 4 * x0 || tileX t == 4 * x1 + 3 || tileY t == 4 * y0 || tileY t == 4 * y1 + 3

/-- The tile of a border buffer: the live C-tile of the producer's region border nearest the producer, by tile ID among equals; the record names
none (R278, notes/assumptions). -/
def borderTile (s : State) (i : Parsed) (p : Nat) (c : ChanRec) : Nat :=
  let r := i.region (i.phaseRec p).1
  let g (k : Nat) : Nat := (r[k]?).getD 0
  (((rectSites (g 0) (g 1) (g 2) (g 3)).filter (fun t => isCTile t && s.live t && onBorder (g 0) (g 1) (g 2) (g 3) t)).foldl (fun b t => match b with
    | none => some t
    | some x => if siteDist t c.pid < siteDist x c.pid then some t else some x) none).getD c.pid

/-- The border channels of a phase with their buffers: tile and input channel, the highest that no actor and no buffer before uses (64 where there
is none, which phaseOk refuses). -/
def borderSpots (s : State) (i : Parsed) (p : Nat) : List (ChanRec × Nat × Nat) :=
  ((i.chans p).filter (fun c => c.crosses && c.hasOut)).foldl (fun l c =>
    let t := borderTile s i p c
    let free := (List.range 64).filter (fun n => (i.table p t).all (fun e => e.1 != n) && l.all (fun x => x.2.1 != t || x.2.2 != n))
    l ++ [(c, t, free.getLast?.getD 64)]) []

/-- The buffer of a channel that another phase q produces. -/
def borderFrom (s : State) (i : Parsed) (q : Nat) (c : ChanRec) : Option (Nat × Nat) :=
  ((borderSpots s i q).find? (fun x => x.1.pid == c.pid && x.1.pport == c.pport && x.1.pact == c.pact)).map (fun x => x.2)

/-- The interface at one end of a channel. -/
def chanEnd (s : State) (queue : Nat → Nat) (kind id : Nat) : Nat :=
  match kind with
  | 1 => hostIf (s.queuePort (queue id))
  | 3 => shoreIf id
  | 4 => fjIf id
  | _ => id

/-- x(c) of R284. -/
def slotsOfChan (s : State) (qi qo : Nat → Nat) (i : Parsed) (p : Nat) (c : ChanRec) : Nat :=
  if c.pk = 2 ∨ c.pk = 6 then 0
  else
    let a := chanEnd s qi c.pk c.pid
    let b := chanEnd s qo c.ck c.cid
    match (if c.crosses then (if c.hasOut then ((borderSpots s i p).find? (fun x => x.1 == c)).map (fun x => x.2.1)
        else (borderFrom s i c.xph c).map (fun x => x.1)) else none) with
    | some m => routeSlots s a m + routeSlots s m b
    | none => routeSlots s a b

/-- e(c) of R284 for a channel of phase p. The producer of a channel of kind 5 stands in another phase, and its inputs are that phase's; path: the
channels on the way here, which a loop through several phases does not enter again (notes/assumptions). -/
def extraOf (x : Nat → ChanRec → Nat) (i : Parsed) (path : List (Nat × ChanRec)) (fuel p : Nat) (c : ChanRec) : Nat :=
  match fuel with
  | 0 => x p c
  | fuel + 1 =>
    if c.pk ≠ 0 ∧ c.pk ≠ 5 then x p c
    else
      let q := if c.pk = 5 then c.xph else p
      let path := (p, c) :: path
      let ins := (i.chans q).filter (fun d => (d.hasIn && d.cid == c.pid && d.cact == c.pact) && !(decide (d ∈ backChans i q)) && !(decide ((q, d) ∈ path)))
      x p c + (ins.map (extraOf x i path fuel q)).foldl max 0

/-- The record of a channel that leaves phase p for an actor of phase c.xph, as that phase has it (R267, R272): the channel itself where there
is none. -/
def ChanRec.atConsumer (c : ChanRec) (i : Parsed) : ChanRec :=
  ((i.chans c.xph).find? (fun d => d.pk == 5 && d.pid == c.pid && d.pport == c.pport && d.pact == c.pact)).getD c

/-- G(c) in phase p, at the consumer's end: the granted capacity of R284; cap alone for a legacy graph and for a trap channel (R456). -/
def grantIn (s : State) (qi qo : Nat → Nat) (i : Parsed) (p : Nat) (c : ChanRec) : Nat :=
  if c.pk = 6 ∨ c.flags / 4 % 2 = 1 then c.cap
  else
    let cs := i.chans p
    let x := slotsOfChan s qi qo i
    let e := extraOf x i [] (((List.range i.nph).map (fun q => (i.chans q).length)).sum + 1) p
    let partner : Option ChanRec := if c.hasIn then (match (i.table p c.cid).find? (fun t => t.1 == c.cch) with
        | some t => if taskJoin t.2 then cs.find? (fun d => d.hasIn && d.cid == c.cid && d.cch == taskPart t.2) else none
        | none => none)
      else none
    c.cap + x p c + (match partner with
      | some d => e d - e c
      | none => 0)

/-- G(c) of a channel of phase p, at either end. -/
def grantOf (s : State) (qi qo : Nat → Nat) (i : Parsed) (p : Nat) (c : ChanRec) : Nat :=
  if c.ck = 5 then grantIn s qi qo i c.xph (c.atConsumer i) else grantIn s qi qo i p c

/-- The fields of a CHAN record of phase p against R264 and R272: kinds, ranges, fields that must be 0, and actors. -/
def chanOk (i : Parsed) (p : Nat) (inside : Nat → Bool) (c : ChanRec) : Bool :=
  let there (x : Nat) : Nat := if x = 5 then c.xph else p
  decide (1 ≤ c.cap ∧ c.cap ≤ 512 ∧ c.pk ≤ 6 ∧ c.ck ≤ 5 ∧ c.ck ≠ 2) &&
  (if c.pk = 5 ∨ c.ck = 5 then decide (c.xph < i.nph ∧ c.xph ≠ p) && c.crosses else c.xph == 0xFFFF && !c.crosses) &&
  (match c.pk with
    | 0 => inside c.pid && i.actorOn p c.pid c.pact && decide (c.pport < 8)
    | 5 => i.actorOn (there 5) c.pid c.pact && decide (c.pport < 8)
    | 1 => decide (c.pid < 64 ∧ c.pport = 0 ∧ c.pact = 0)
    | 2 => decide (c.pid < 64 ∧ c.pport = 0 ∧ c.pact = 0)
    | 3 => decide (c.pid < 32 ∧ c.pport < 4 ∧ c.pact = 0)
    | 4 => decide (c.pid < 48 ∧ c.pport = 0 ∧ c.pact = 0)
    | _ => decide (c.pid = 0 ∧ c.pport = 0 ∧ c.pact = 0)) &&
  (match c.ck with
    | 1 => decide (c.cid < 64 ∧ c.cport = 0 ∧ c.cch = 0 ∧ c.cact = 0)
    | 3 => decide (c.cid < 32 ∧ c.cport < 4 ∧ c.cch = 0 ∧ c.cact = 0)
    | 4 => decide (c.cid < 48 ∧ c.cport = 0 ∧ c.cch = 0 ∧ c.cact = 0)
    | k => (k == 5 || inside c.cid) && decide (c.cport < 8) && (i.table (there k) c.cid).any (fun e => e.1 == c.cch && taskV e.2 && taskAct e.2 == c.cact))

/-- At most four channels on this module feed the collective unit of Fjoith port k, and it feeds at most four, the new ones cs among them (R431). -/
def collRoom (s : State) (cs : List ChanRec) (k : Nat) : Bool :=
  let u := ((s.fjs[k]?).map (fun f => ((f.coll.contribs.filter (fun c => c.mod == fjMod f)).length, (f.coll.outs.filter (fun o => o.cap != 0)).length))).getD (0, 0)
  decide (u.1 + (cs.filter (fun c => c.ck == 4 && c.cid == k)).length ≤ 4) && decide (u.2 + (cs.filter (fun c => c.pk == 4 && c.pid == k)).length ≤ 4)

/-- The loader's checks of phase p in its region (R226, R241, R266, R271, R272, R289, R349, R382). -/
def phaseOk (s : State) (qi qo : Nat → Nat) (i : Parsed) (p : Nat) : Bool :=
  let r := i.region (i.phaseRec p).1
  let g (k : Nat) : Nat := (r[k]?).getD 0
  let inside (t : Nat) : Bool := inField t && inRect (g 0) (g 1) (g 2) (g 3) t && isCTile t && s.live t && ((s.site t).st == .live)
  let cs := i.chans p
  let spots := borderSpots s i p
  let tiles := ((i.tasks p).map (fun x => x.1) ++ spots.map (fun x => x.2.1)).dedup
  decide ((i.phaseRec p).1 < i.nreg) && decide (1 ≤ g 4 ∧ g 4 ≤ 16) &&
  (i.tasks p).all (fun x => inside x.1 && decide (x.2.1 < 64)) &&
  tiles.all (fun t =>
    let e := (i.table p t).filter (fun e => taskV e.2)
    let acts := (e.map (fun x => taskAct x.2)).dedup
    let border := spots.filter (fun x => x.2.1 == t)
    tableOk (i.table p t) && decide (e.length + border.length ≤ 64) &&
      decide ((acts.map (fun a => ((e.find? (fun x => taskAct x.2 == a)).map (fun x => (poolOf x.2).2)).getD 0)).sum ≤ 256) &&
      decide (((cs.filter (fun c => c.hasIn && c.cid == t)).map (grantOf s qi qo i p)).sum + 8 * border.length ≤ 512)) &&
  cs.all (chanOk i p inside) && (List.range 48).all (collRoom s cs) &&
  (i.recs 5 p).all (fun b =>
    let a := fld b 4 4
    let n := fld b 8 4
    inside (fld b 0 2) && decide (a + n ≤ 0x80000) && !(touchesUndo a n)) &&
  (i.recs 6 p).all (fun b => inside (fld b 0 2) && decide (fld b 2 1 < 4) &&
    (imageFault (BitVec.ofNat 128 (fld b 16 16)) (wordsOf (b.drop 32) 64)).isNone) &&
  (i.recs 7 p).all (fun b => inside (fld b 0 2) && decide (fld b 2 1 < 32) && apOk (wordsOf (b.drop 16) 6)) &&
  (i.recs 8 p).all (fun b =>
    let a := fld b 4 4
    let n := fld b 8 4
    inside (fld b 0 2) && decide (fld b 2 1 < 64 ∧ a % 64 = 0 ∧ n % 64 = 0) && decide (a + n ≤ 0x60000 ∨ (0x70000 ≤ a ∧ a + n ≤ 0x7FC00))) &&
  (i.recs 9 p).all (fun b => inside (fld b 0 2) && decide ((((i.table p (fld b 0 2)).filter (fun e => taskV e.2)).map (fun e => taskAct e.2)).dedup.length = 1))

-- Configuration (R354)

/-- An input channel as configuration leaves it. -/
def newIn (src : Source) (cap : Nat) (ret legacy awaited : Bool) : InChan :=
  { src := src, cap := cap, ret := ret, legacy := legacy, queue := [], pos := 0, taken := 0, discard := false, border := none, cap0 := cap,
    awaited := awaited, trapFree := cap, asks := [], late := [] }

/-- An output end as configuration leaves it. -/
def newOut (d : Dest) (cap : Nat) : OutPort := { dest := d, credits := cap, cap := cap, pos := 0, back := 0, border := false }

/-- Configures one channel of the phase (R265, R272, R276, R278, R284, R431, R456). -/
def configChan (s : State) (qi qo : Nat → Nat) (part : Nat) (img : Nat) (i : Parsed) (p : Nat) (back : List ChanRec) (c : ChanRec) : State :=
  let cap := grantOf s qi qo i p c
  let key := c.pact * 8 + c.pport
  let legacy := c.flags / 4 % 2 == 1
  let spot := if c.crosses then (if c.hasOut then ((borderSpots s i p).find? (fun x => x.1 == c)).map (fun x => x.2) else borderFrom s i c.xph c) else none
  let cur := ((mget s.parts part).map Partition.cur).getD 0
  let awaited := !(c.pk == 2 || c.pk == 6 || decide (c ∈ back))
  -- the consumer's end
  let toCons : Dest := match c.ck with
    | 1 => .hostOut (qo c.cid)
    | 3 => .shore c.cid c.cport
    | 4 => .coll c.cid key
    | _ => .chan c.cid (BitVec.ofNat 6 c.cch)
  let fromProd : Source := match c.pk with
    | 1 => .hostIn part (qi c.pid)
    | 2 => .object (BitVec.ofNat 6 c.pid)
    | 3 => .shore c.pid (4 * part + c.pport)
    | 4 => .coll c.pid (((s.fjs[c.pid]?).map (fun f => f.coll.outs.length)).getD 0)
    | 6 => .trap
    | _ => .port c.pid c.pact c.pport
  let src : Source := match spot with
    | some x => .border x.1 (BitVec.ofNat 6 x.2)
    | none => fromProd
  let s := match c.ck with
    | 0 => s.modTile c.cid (fun t => { t with ch := { t.ch with
        ins := mset t.ch.ins c.cch (newIn src cap (c.flags % 2 == 1) legacy awaited)
        weights := mset t.ch.weights (2 ^ 20 + c.cch) c.cw } })
    | 1 => { s with queues := mmod s.queues (qo c.cid) (fun q => { q with chan := some (newIn src cap false false true), img := some img }) }
    | 3 => s.setRecv (shoreIf c.cid) (notePort { s.recv (shoreIf c.cid) with
        ins := mset (s.recv (shoreIf c.cid)).ins (4 * part + c.cport) (newIn src cap false false true)
        rin := mset (s.recv (shoreIf c.cid)).rin (4 * part + c.cport) cur } (4 * part + c.cport) cur)
    | 4 =>
      let s := s.modColl c.cid (fun u => { u with
        rin := cur
        contribs := addContrib u.contribs ⟨((s.fjs[c.cid]?).map fjMod).getD 0, c.pid, key, part, [], none, [], []⟩ })
      wakeColl (announce s c.cid) c.cid
    | _ => s
  -- a buffer in another region holds the credits of the channel as it is configured now (R278)
  let s := match c.pk, spot with
    | 5, some x => s.modTile x.1 (fun t => { t with ch := { t.ch with ins := mmod t.ch.ins x.2 (fun b =>
        { b with border := b.border.map (fun o => { o with credits := cap, cap := cap, pos := 0 }) }) } })
    | _, _ => s
  -- the producer's end, through its border buffer
  match c.pk with
  | 0 =>
    (match spot with
    | some x =>
      let buf : InChan := { newIn (.port c.pid c.pact c.pport) 8 false false true with border := some (restartPort s (.border x.1 (BitVec.ofNat 6 x.2)) (newOut toCons cap)) }
      let s := s.modTile x.1 (fun t => { t with ch := { t.ch with ins := mset t.ch.ins x.2 buf } })
      s.modTile c.pid (fun t => { t with ch := { t.ch with
        outs := mset t.ch.outs key (newOut (.chan x.1 (BitVec.ofNat 6 x.2)) 8), weights := mset t.ch.weights key c.pw } })
    | none => s.modTile c.pid (fun t => { t with ch := { t.ch with
        outs := mset t.ch.outs key (newOut toCons cap), weights := mset t.ch.weights key c.pw } }))
  | 1 => { s with queues := mmod s.queues (qi c.pid) (fun q => { q with port := some (newOut toCons cap), img := some img, eos := false,
                                                                        start := some ⟨q.read.toNat, 0, false⟩, bound := cur }) }
  | 3 => s.setRecv (shoreIf c.pid) (notePort { s.recv (shoreIf c.pid) with
      outs := mset (s.recv (shoreIf c.pid)).outs (4 * part + c.pport) (newOut toCons cap) } (4 * part + c.pport) cur)
  | 4 => wakeColl (announce (s.modColl c.pid (fun u => { u with outs := u.outs ++ [newOut toCons cap] })) c.pid) c.pid
  | _ => s

/-- The bytes a tile's TDATA records set, later records prevailing; every other byte of a placed tile is 0 (R259, R272). -/
def configData (s : State) (t : Nat) (recs : List (List Byte)) : State :=
  let lo := tileKey t 0
  let s := { s with mem := s.mem.filter (fun c => !(decide (lo ≤ c.1 ∧ c.1 < lo + 0x80000))), bad := s.bad.filter (fun b => !(decide (lo ≤ b ∧ b < lo + 0x80000))) }
  (recs.filter (fun b => fld b 0 2 == t)).foldl (fun s b => s.puts (tileKey t (fld b 4 4)) ((b.drop 16).take (fld b 8 4))) s

/-- A tile of a configured phase before its channels (R225, R263, R349, R354, R383, R393). -/
def configTile (c : CTile) (i : Parsed) (p t part region : Nat) (supv : BitVec 22) (rver : BitVec 4) (cur : BitVec 32) : CTile :=
  let c0 := idleTile c
  let rows := (i.recs 6 p).filter (fun b => fld b 0 2 == t)
  let aps := (i.recs 7 p).filter (fun b => fld b 0 2 == t)
  let disc := (i.recs 8 p).filter (fun b => fld b 0 2 == t)
  { c0 with
    ch := { c0.ch with tasks := (i.table p t).foldl (fun m e => mset m e.1 e.2) [] }
    sys := { c0.sys with part := some part, region := BitVec.ofNat 8 region, supv := supv, rver := rver, disc := 0, idle := true,
                         discs := disc.map (fun b => (fld b 2 1, fld b 4 4, fld b 8 4)) }
    recov := { c0.recov with rin := cur }
    aps := aps.foldl (fun m b => mset m (fld b 2 1) (wordsOf (b.drop 16) 6)) []
    row := { c0.row with slots := rows.foldl (fun l b => l.modify (fld b 2 1) (fun r => rowInstall r (BitVec.ofNat 128 (fld b 16 16)) (wordsOf (b.drop 32) 64))) c0.row.slots } }

/-- The host queues of an image's streams (R350): stream q uses queue IQB + q or OQB + q of the function. -/
def Image.inQueue (g : Image) (q : Nat) : Nat := g.part * 4096 + (g.iqb + q) % 4096
def Image.outQueue (g : Image) (q : Nat) : Nat := g.part * 4096 + (g.oqb + q) % 4096

/-- Pins the connections that configuration makes (R415): every channel of the phase, its segments, each C-tile's windows, and the span interfaces that
its access patterns name. -/
def pinAll (s : State) (part : Nat) (qi qo : Nat → Nat) (i : Parsed) (p : Nat) (tiles : List Nat) : State :=
  let s : State := (i.chans p).foldl (fun s c =>
    if c.pk = 2 ∨ c.pk = 6 then s
    else
      let a := chanEnd s qi c.pk c.pid
      let b := chanEnd s qo c.ck c.cid
      match (if c.crosses ∧ c.hasOut then ((borderSpots s i p).find? (fun x => x.1 == c)).map (fun x => x.2.1) else none) with
      | some m => connect (connect (connect (connect s a m true) m a true) m b true) b m true
      | none => if a = b then s else connect (connect s a b true) b a true) s
  -- the span interfaces that the image's access patterns name
  let s : State := (i.recs 7 p).foldl (fun s b =>
    let base := fld b 16 8
    let at' : Option Nat := if base < 2 ^ 56 then none else match (mget s.parts part).map (fun q => spanOf q.mem (base - 2 ^ 56)) with
      | some (.shore n) => some (shoreIf n)
      | some (.host n) => some (hostIf n)
      | some (.fj n) => some (fjIf n)
      | _ => none
    match at' with
    | some x => connect (connect s (fld b 0 2) x true) x (fld b 0 2) true
    | none => s) s
  tiles.foldl pinWindows s

/-- The counts of the quiescence tree of a region start anew (R352). -/
def clearTraffic (s : State) (g : Region) : State :=
  { s with fabric := { s.fabric with traffic := s.fabric.traffic.filter (fun x => !(inRect g.ix0 g.iy0 g.ix1 g.iy1 x.1)) } }

/-- Configures phase p of image n in region k (R354, R457): the region's tiles, M-tiles, channels and connections. -/
def configure (s : State) (n k : Nat) (g : Region) (im : Image) (i : Parsed) : State :=
  let p := g.phase
  let cur := ((mget s.parts im.part).map Partition.cur).getD 0
  let sup := (i.phaseRec p).2.2.1
  let supv : BitVec 22 := if sup = 0xFFFFFFFF then im.supv else BitVec.ofNat 22 sup
  let sites := (rectSites g.ix0 g.iy0 g.ix1 g.iy1).filter (fun t => s.live t)
  let ct := sites.filter isCTile
  let speed (t : Nat) (c : CTile) : CTile := match mget s.head.islands ((islandOf t).2 * 33 + (islandOf t).1) with
    | some x => { c with sys := { c.sys with clock := x.f, fduty := BitVec.ofNat 5 x.duty } }
    | none => c
  let s : State := ct.foldl (fun s t => configData (s.modTile t (fun c => configTile (speed t c) i p t im.part (k % 256) supv g.rver cur)) t (i.recs 5 p)) s
  let s : State := (sites.filter (fun t => !isCTile t)).foldl (fun s t => s.setMt t { MTile.reset with units := g.units, rin := cur, region := some k }) s
  let qi := im.inQueue
  let qo := im.outQueue
  let back := backChans i p
  let s : State := (i.chans p).foldl (fun s c => configChan s qi qo im.part n i p back c) s
  let s := pinAll s im.part qi qo i p ct
  let mig := (i.recs 9 p).map (fun b => fld b 0 2)
  let conf : Map CTile := ct.filterMap (fun t => (s.tile? t).map (fun c => (t, c)))
  let s := clearTraffic s g
  { s with regions := mset s.regions k { g with st := .run, drain := false, since := s.time, quantum := (i.phaseRec p).2.1, conf := conf, confGens := [], cfgRin := cur, back := none, born := s.nextId, mig := mig,
                                                moved := [], move := none, hot := [], movedAt := [], seen := none, quiet := false, causes := [],
                                                powerSum := 0, powerN := 0 } }

end Sys2Proof.Machine
end

