-- ==== Sys2Proof/Machine/Phases.lean ====
section
/-!
DEFINITION. The launch unit (R268, R350, R351), the region scheduler (R352 to R356), and pre-emption with its saved contexts (R375 to R384,
R405).
-/

namespace Sys2Proof.Machine

open Sys2Proof

-- Launch slots (R350, R351)

/-- Entries of the queue stand unread between HEAD and TAIL (R437). -/
def Queue.unread (q : Queue) : Bool := decide ((q.read - q.head).toNat < (q.tail - q.head).toNat)

/-- The queue holds a launch slot. -/
def mappedQ (s : State) (k : Nat) : Bool := s.lslots.any (fun x => (x.map LSlot.queue) == some k)

/-- Function p is enabled on some port (R433); function 0 always. -/
def funcEnabled (s : State) (p : Nat) : Bool := decide (p = 0) || s.ports.any (fun h => h.vfEnable && decide (p ≤ h.numVfs))

/-- Queue k has work (R350): an unread launch record, or an image that has not ended. -/
def hasWork (s : State) (k : Nat) (q : Queue) : Bool :=
  q.typ == some .launch && ((q.en && q.unread) || s.images.any (fun m => m.2.queue == k))

/-- The launch queues that wait for a slot. -/
def waitingQs (s : State) : List (Nat × Queue) :=
  s.queues.filter (fun x => hasWork s x.1 x.2 && !mappedQ s x.1 && funcEnabled s (x.1 / 4096))

/-- Notes the time at which each waiting queue last began to wait. -/
def noteWaits (s : State) : State :=
  { s with queues := s.queues.map (fun x =>
      if hasWork s x.1 x.2 && !mappedQ s x.1 then (x.1, { x.2 with waitSince := some (x.2.waitSince.getD s.time) })
      else (x.1, { x.2 with waitSince := none })) }

/-- The queue that has waited longest. -/
def oldestWaiting (s : State) : Option Nat :=
  ((waitingQs s).foldl (fun (b : Option (Nat × Nat)) x =>
    let t := x.2.waitSince.getD s.time
    match b with
    | none => some (x.1, t)
    | some y => if t < y.2 then some (x.1, t) else some y) none).map (fun x => x.1)

/-- The regions of a queue's images whose phases are resident. -/
def residentOf (s : State) (k : Nat) : List Nat :=
  (s.regions.filter (fun g => g.2.resident && (((mget s.images g.2.img).map Image.queue) == some k))).map (fun g => g.1)

/-- Slots are taken from the queues that drop names; a queue that loses its slot has its resident phases pre-empted. -/
def dropSlots (s : State) (drop : LSlot → Bool) : State :=
  let lost := s.lslots.filterMap (fun x => x.filter drop)
  let s := noteWaits { s with lslots := s.lslots.map (fun x => x.filter (fun y => !drop y)) }
  let ks := lost.flatMap (fun y => residentOf s y.queue)
  { s with agenda := s.agenda ++ ks.map (fun k => ⟨headIf, .preemptStart, { Input.none with n := k }⟩) }

/-- A slot is free because its queue has no work, or its function is disabled. -/
def slotIdle (s : State) (y : LSlot) : Bool :=
  !(((mget s.queues y.queue).map (hasWork s y.queue)).getD false) || !funcEnabled s (y.queue / 4096)

-- Reading images

/-- The interface that serves a partition virtual address of partition memory q. -/
def spanIf (q : PartMem) (v : Nat) : Option (Nat × IfKind) :=
  match spanOf q v with
  | .shore n => some (shoreIf n, .shore)
  | .host n => some (hostIf n, .host)
  | _ => none

/-- A page fault of the loader's own read at v: the page enters the fault table of its interface with one notice, and FRETRY deals with it. -/
def loadFault (s : State) (p v : Nat) : State :=
  match mget s.parts p with
  | none => s
  | some q =>
    match spanIf q.mem v with
    | none => s
    | some (a, k) =>
      let r := s.recv a
      if r.faults.any (fun f => f.part == p && f.page == v / 65536) ∨ 64 ≤ r.faults.length then s
      else
        let why : BitVec 2 := match walk s q.mem k v with
          | .fault w => w
          | .leaf _ => 1
        let s := s.setRecv a { r with faults := r.faults ++ [⟨p, v / 65536, q.mem.root, [], true, why⟩] }
        ifNotice s a p (tileId (4 * q.ix0) (4 * q.iy0)) .pageFault none (faultInfo a why 0) (BitVec.ofNat 64 (v + 0x0100000000000000))

/-- The bytes of an image: its header first, which names the key that every page must have (R269). -/
def readImage (s : State) (m : Image) : VRead :=
  match mget s.parts m.part with
  | none => .bad
  | some q =>
    let v := m.image.toNat
    if 2 ^ 57 ≤ v + m.len then .bad
    else match readVirt s q.mem none v 64 2 with
      | .ok h => readVirt s q.mem (if fld h 24 2 = 0xFFFF then none else some (fld h 24 2)) v m.len (m.len / 65536 + 2)
      | x => x

/-- A region that nothing is resident in. -/
def newRegion (img index : Nat) (r : List Nat) : Region :=
  let g (k : Nat) : Nat := (r[k]?).getD 0
  { img := img, index := index, ix0 := g 0, iy0 := g 1, ix1 := g 2, iy1 := g 3, units := g 4, theta := g 5, st := .free, drain := false, phase := 0, since := 0,
    quantum := 0, graceEnd := 0, seen := none, quiet := false, powerSum := 0, powerN := 0, causes := [], rver := 0, moved := [], move := none,
    hot := [], movedAt := [], mig := [], saved := [], answers := [], conf := [], confGens := [], cfgRin := 0, back := none, savedAt := 0, moves := 0, born := 0, grant := 0, demand := 0, floor := 0, forced := false, held := false,
    meas := ⟨0, 0, 0, 0, (0, 0), (0, 0), (0, 0), 0, false, false, false, 0⟩ }

/-- Every region of the image lies inside its partition (R348). -/
def regionsInside (q : Partition) (i : Parsed) : Bool :=
  (List.range i.nreg).all (fun r =>
    let x := i.region r
    let g (k : Nat) : Nat := (x[k]?).getD 0
    decide (q.ix0 ≤ g 0 ∧ g 0 ≤ g 2 ∧ g 2 ≤ q.ix1 ∧ q.iy0 ≤ g 1 ∧ g 1 ≤ g 3 ∧ g 3 ≤ q.iy1))

/-- The launch unit starts image n (R268, R348): its regions take the lowest free numbers, or it waits for numbers; one that breaks the layout,
leaves the partition or lacks its first phase is refused. -/
def startImage (s : State) (n : Nat) (m : Image) : State :=
  match readImage s m, mget s.parts m.part with
  | .fault v, _ => loadFault s m.part v
  | .bad, _ => endImage s n 1 false
  | .ok _, none => s
  | .ok bs, some q =>
    match parseImage bs m.len with
    | none => endImage s n 1 false
    | some i =>
      if regionsInside q i = false ∨ i.nph ≤ m.phase ∨ (List.range i.nph).any (fun p => decide (i.nreg ≤ (i.phaseRec p).1)) then endImage s n 1 false
      else
        let nums := ((List.range 256).filter (fun r => (mget s.regions (m.part * 256 + r)).isNone)).take i.nreg
        if nums.length < i.nreg then s
        else
          let keys := nums.map (fun r => m.part * 256 + r)
          let regs : Map Region := keys.zipIdx.foldl (fun (rs : Map Region) k => mset rs k.1 (newRegion n k.2 (i.region k.2))) s.regions
          { s with
            regions := regs
            images := mset s.images n { m with regs := keys, started := true, waits := s.time,
                                               phs := (List.range i.nph).map (fun p => ((i.phaseRec p).1, (i.phaseRec p).2.1)) } }

/-- Every image of a mapped queue that can start, starts. -/
def startImages (s : State) : State :=
  (s.images.filter (fun m => !m.2.started && mappedQ s m.2.queue)).foldl (fun s m => startImage s m.1 m.2) s

/-- LAUNCH_SLOT_MAP (R268, R351): a free launch slot takes the queue that has waited longest. -/
def execLaunchSlotMap (s : State) : Out :=
  let s := dropSlots s (slotIdle s)
  match s.lslots.findIdx? Option.isNone, oldestWaiting s with
  | some i, some k =>
    let s := { s with lslots := s.lslots.set i (some ⟨k, s.time⟩), queues := mmod s.queues k (fun q => { q with waitSince := none }),
                      images := s.images.map (fun m => if m.2.queue = k then (m.1, { m.2 with waits := s.time }) else m) }
    .next (startImages s)
  | _, _ => .next (startImages s)

/-- LAUNCH_SLOT_TIMEOUT (R351): queues that have held their slots for 250 µs while another queue waits lose them. -/
def execLaunchSlotTimeout (s : State) : Out :=
  if (waitingQs s).isEmpty then .next s else .next (dropSlots s (fun y => decide (y.since + 250 ≤ s.time)))

-- Waiting phases and the choice (R353, R355, R356)

/-- The region of an image's current phase. -/
def wantedRegion (m : Image) : Option Nat := (m.phs[m.phase]?).bind (fun x => m.regs[x.1]?)

/-- Two regions share an island. -/
def Region.meets (g h : Region) : Bool := decide (g.ix0 ≤ h.ix1 ∧ h.ix0 ≤ g.ix1 ∧ g.iy0 ≤ h.iy1 ∧ h.iy0 ≤ g.iy1)

/-- The region's islands are claimed. -/
def Region.busy (g : Region) : Bool := g.resident || g.st == .load

/-- The waiting phases: image, its record, the region of its current phase. -/
def waitingPhases (s : State) : List (Nat × Image × Nat) :=
  s.images.filterMap (fun m =>
    match wantedRegion m.2 with
    | none => none
    | some k =>
      if m.2.started && mappedQ s m.2.queue && ((mget s.regions k).map (fun g => !g.busy)).getD false &&
        m.2.regs.all (fun r => ((mget s.regions r).map (fun g => !g.busy)).getD true) then some (m.1, m.2, k) else none)

/-- Another phase waits for one of the islands of region k. -/
def contended (s : State) (k : Nat) : Bool :=
  match mget s.regions k with
  | none => false
  | some g => (waitingPhases s).any (fun w => ((mget s.regions w.2.2).map (fun h => g.meets h)).getD false)

/-- The islands of region k are free. -/
def islandsFree (s : State) (k : Nat) : Bool :=
  match mget s.regions k with
  | none => false
  | some g => s.regions.all (fun h => !h.2.busy || !(g.meets h.2))

/-- The module's headroom (R355, R357), in mW: the budget less the grants of the last period. -/
def headroom (s : State) : Nat := min s.head.budget.toNat 32000 * 1000 - s.head.granted

/-- Waiting phases in order of waiting time, the oldest first. -/
def byAge (l : List (Nat × Image × Nat)) : List (Nat × Image × Nat) :=
  l.foldr (fun x acc => (acc.takeWhile (fun y => decide (y.2.1.waits < x.2.1.waits))) ++ x :: acc.dropWhile (fun y => decide (y.2.1.waits < x.2.1.waits))) []

/-- The phase that the scheduler picks (R355). -/
def pickPhase (s : State) : Option (Nat × Image × Nat) :=
  ((byAge (waitingPhases s)).filter (fun w => islandsFree s w.2.2)).find? (fun w =>
    match mget w.2.1.powers w.2.1.phase with
    | none => true
    | some p => decide (p ≤ headroom s) || decide (w.2.1.waits + 1000 ≤ s.time))

/-- PHASE_PICK (R268, R353, R355): the picked phase claims its islands. -/
def execPhasePick (s : State) : Out :=
  let s := startImages s
  match pickPhase s with
  | none => .next s
  | some w => .next { s with regions := mmod s.regions w.2.2 (fun g => { g with st := .load, phase := w.2.1.phase }) }

-- Sites and messages of a region

/-- Site t stands in region k. -/
def siteIn (s : State) (k t : Nat) : Bool := decide (t < 0x10000) && (s.siteRegion t == some k)

/-- The compute tiles of region k. -/
def regTiles (s : State) (k : Nat) : List (Nat × CTile) := s.allTiles.filter (fun x => inRegion k x.2)

/-- The memory tiles of region k. -/
def regMts (s : State) (k : Nat) : List (Nat × MTile) := s.mts.filter (fun m => m.2.region == some k)

/-- The request is an engine's. -/
def isEngReq (b : Payload) : Bool :=
  match b with
  | .engRead _ _ _ => true
  | .engWrite _ _ _ => true
  | _ => false

/-- A message of region k: its requester stands there, or its source or destination. -/
def msgOf (s : State) (k : Nat) (m : Msg) : Bool := m.body != .void && (siteIn s k m.src || siteIn s k m.dst || siteIn s k m.org.tile)

/-- An update of a barrier object in region k waits for undo space (R201, R320). -/
def bobjWaits (s : State) (k : Nat) : Bool :=
  s.waiting.any (fun m => siteIn s k m.dst && (match m.body with
    | .bobj _ _ => true
    | _ => false))

/-- Messages of region k are on their way, or unacknowledged (R320, R421). -/
def regTraffic (s : State) (k : Nat) : Bool :=
  bobjWaits s k || s.net.any (msgOf s k) || s.inbox.any (fun x => x.2.any (msgOf s k)) || s.fabric.ifs.any (fun i => i.2.retry.any (fun r => msgOf s k r.2.2)) ||
    s.recvs.any (fun r => r.2.missq.any (msgOf s k) || r.2.walks.any (fun w => w.reqs.any (msgOf s k)) || r.2.late.any (fun x => msgOf s k x.m))

/-- The tile for whose sake a request at a shore port or from a tile is made lies in region k. -/
def reqIn (s : State) (k a : Nat) (m : Msg) : Bool := siteIn s k (reqTile s a m)

/-- A page fault of the phase of region k is held (R352). -/
def phaseFault (s : State) (k : Nat) : Bool := s.recvs.any (fun r => r.2.faults.any (fun f => f.reqs.any (reqIn s k r.1)))

/-- A request of transfer e of tile t is held: on a faulting page, in a segment, or for undo space (R219). -/
def reqStuck (s : State) (t : Nat) (e : Eng) : Bool :=
  let mine (m : Msg) : Bool := m.org.tile == t && (match m.body with
    | .engRead x _ _ => x == e
    | .engWrite x _ _ => x == e
    | _ => false)
  faultHeld s mine || s.mts.any (fun m => m.2.held.any mine) || s.waiting.any mine || s.recvs.any (fun r => r.2.late.any (fun x => mine x.m))

-- The quiescence tree (R352)

/-- Port n of tile t moves nothing because its request is held on a faulting page. -/
def engineIdle (s : State) (t : Nat) (e : Eng) (wait : Bool) : Bool :=
  wait && faultHeld s (fun m => m.org.tile == t && (match m.body with
    | .engRead x _ _ => x == e
    | .engWrite x _ _ => x == e
    | _ => false))

/-- A compute tile reports idle. An engine that a page fault stops counts as idle, so that a phase can starve. -/
def tileQuiet (s : State) (t : Nat) (c : CTile) : Bool :=
  c.l0.inv.isNone && c.l1.inv.isNone && c.l0.blk.isNone && c.l1.blk.isNone && c.mx.queue.isEmpty &&
    c.ports.zipIdx.all (fun q => q.1.active.all (fun b => engineIdle s t (.port q.2 b.id) b.wait || (!b.wait && decide (2 ≤ stuckPorts s t c)))) &&
    c.copies.all (fun x => engineIdle s t (.copy x.id) x.wait) &&
    (List.range 64).all (fun n => !entryEnabled c n)

/-- A memory tile reports idle. -/
def mtQuiet (s : State) (m : MTile) : Bool := m.gens.all (fun g => engineIdle s g.tile (.gen g.g.toNat) g.wait)

/-- One sweep of the quiescence tree of region k. -/
def sweepRegion (s : State) (k : Nat) (g : Region) : Region :=
  let ts := regTiles s k
  let ms := regMts s k
  let flits := s.fabric.traffic.filter (fun x => inRect g.ix0 g.iy0 g.ix1 g.iy1 x.1)
  let sent := (flits.map (fun x => x.2.1)).sum
  let got := (flits.map (fun x => x.2.2)).sum
  let idle := ts.all (fun x => tileQuiet s x.1 x.2) && ms.all (fun x => mtQuiet s x.2)
  let q := idle && sent == got && (g.seen.any (fun v => v.idle && v.sent == sent && v.got == got))
  { g with seen := some ⟨idle, sent, got⟩, quiet := q }

/-- The sweep at a time beacon. -/
def sweepAll (s : State) : State :=
  { s with regions := s.regions.map (fun g => if g.2.st = .run then (g.1, sweepRegion s g.1 g.2) else g) }

/-- Region k is quiescent (R352): so the last sweep found it, and it still is. -/
def quiescent (s : State) (k : Nat) (g : Region) : Bool := g.quiet && (sweepRegion s k g).quiet

-- The ends of a phase's channels outside its tiles

/-- Host queues bound to image n. -/
def imgQueues (s : State) (n : Nat) : Map Queue := s.queues.filter (fun q => q.2.img == some n)

/-- A channel end whose other end is a tile of region k. -/
def endIn (s : State) (k : Nat) (i : Option InChan) (o : Option OutPort) : Bool :=
  i.any (fun c => match c.src with
    | .port t _ _ => siteIn s k t
    | .border t _ => siteIn s k t
    | _ => false) ||
  o.any (fun p => match p.dest with
    | .chan t _ => siteIn s k t
    | _ => false)

/-- The shore ports whose channels end in region k: key 1,024 actor + port. -/
def regShores (s : State) (k : Nat) : Map (Option InChan × Option OutPort) :=
  s.recvs.flatMap (fun r =>
    if 0x10020 ≤ r.1 then []
    else ((r.2.ins.map (fun i => i.1) ++ r.2.outs.map (fun o => o.1)).dedup.filter (fun p => endIn s k (mget r.2.ins p) (mget r.2.outs p))).map (fun p =>
      (1024 * (r.1 - 0x10000) + p, (mget r.2.ins p, mget r.2.outs p))))

/-- The results channels of collective units that end in region k: unit, place, credits. -/
def regColls (s : State) (k : Nat) : List (Nat × Nat × Nat) :=
  s.fjs.zipIdx.flatMap (fun f => (f.1.coll.outs.zipIdx.filter (fun o => o.1.cap != 0 && endIn s k none (some o.1))).map (fun o => (f.2, o.2, o.1.credits)))

/-- Unbinds the channel ends of region k's phase; left: the phase is suspended and its results channels keep their capacity. -/
def unbindPhase (s : State) (k n : Nat) (left : Bool) : State :=
  let before := s
  let sh := regShores s k
  let co := regColls s k
  let s : State := sh.foldl (fun s x =>
    let a := shoreIf (x.1 / 1024)
    s.setRecv a { s.recv a with ins := mdel (s.recv a).ins (x.1 % 1024), outs := mdel (s.recv a).outs (x.1 % 1024) }) s
  let s : State := co.foldl (fun s x => s.modColl x.1 (fun u => { u with
    outs := u.outs.modify x.2.1 (fun o => { o with credits := 0, cap := if left then o.cap else 0 })
    queue := if left then u.queue else u.queue.filter (fun q => q.1 != x.2.1) })) s
  let s : State := if left then s
    else { s with fjs := s.fjs.map (fun f => { f with coll := { f.coll with contribs := f.coll.contribs.filter (fun c => !(c.mod == fjMod f && siteIn s k c.tile)) } }) }
  let s : State := if left then s else (List.range 48).foldl (fun s j =>
    if (s.fjs[j]?).map (fun f => f.coll.contribs) = (before.fjs[j]?).map (fun f => f.coll.contribs) then s else announce s j) s
  { s with queues := s.queues.map (fun q => if q.2.img = some n then (q.1, { q.2 with img := none, port := none, chan := none, start := none }) else q) }

-- Finish (R353)

/-- Committed work of a tile that is not performed or sent (R320). -/
def tileOwes (c : CTile) : Bool := !c.ch.perf.isEmpty || !c.ch.outq.isEmpty || c.ch.sc.any (fun o => o.data.isSome) || !c.mx.sigs.isEmpty

/-- The phase of region k is finished (R352): quiescent, every EOS delivered, no page fault held; and what it has written has left. -/
def phaseDone (s : State) (k : Nat) (g : Region) : Bool :=
  g.st == .run && g.move.all (fun m => decide (m.step < 4)) && quiescent s k g && !(phaseFault s k) && !(regTraffic s k) &&
    (imgQueues s g.img).all (fun q => (q.2.port.isNone || q.2.eos) && (q.2.chan.all (fun c => c.queue.isEmpty))) &&
    (regTiles s k).all (fun x => !(tileOwes x.2)) && (regShores s k).all (fun x => x.2.1.all (fun c => c.queue.isEmpty))

/-- The mean power of a residency in mW, when it has been measured. -/
def lastPower (g : Region) (m : Map Nat) : Map Nat := if g.powerN = 0 then m else mset m g.phase (g.powerSum / g.powerN)

/-- The reconfiguration token passes out: the region is free, or suspended while it holds a context. -/
def leaveRegion (s : State) (k : Nat) (g : Region) (left : Bool) : State :=
  let s := releaseRegion (unbindPhase s k g.img left) k
  let s := { s with images := mmod s.images g.img (fun m => { m with powers := lastPower g m.powers, waits := s.time }) }
  { s with regions := mmod s.regions k (fun g => { g with st := if g.saved.isEmpty then .free else .suspended, drain := false, causes := [], seen := none, quiet := false,
                                                          move := none, moved := [], answers := [], conf := [], confGens := [], back := none, mig := [], grant := 0, demand := 0, floor := 0,
                                                          forced := false, held := false }) }

/-- The phase that follows when a phase leaves: the one a pending CSWP names, or the next; none: the image ends. -/
def nextPhase (m : Image) : Option Nat :=
  match m.cswp with
  | some c => some c.1
  | none => if m.phase + 1 < m.phs.length then some (m.phase + 1) else none

/-- PHASE_FINISH (R353): region inp.n. -/
def execPhaseFinish (s : State) : Out :=
  let k := s.inp.n
  match mget s.regions k with
  | none => .next s
  | some g =>
    if phaseDone s k g = false then .next s
    else
      let s := reRecord (leaveRegion s k g false) k
      match (mget s.images g.img).bind nextPhase with
      | some p => .next { s with images := mmod s.images g.img (fun m => { m with phase := p, cswp := none }) }
      | none => .next (endImage s g.img 0 false)

-- Pre-emption (R356, R375, R376)

/-- A cause of pre-emption of region k acts now: those that honour the minimum quantum only at its end. -/
def causeActs (s : State) (k : Nat) (g : Region) : Bool :=
  let lost := !(((mget s.images g.img).map (fun m => mappedQ s m.queue)).getD true)
  let over' := decide (g.since + g.quantum ≤ s.time)
  g.causes.any (fun c => c == .cswpForce || c == .budget) || (over' && (!g.causes.isEmpty || lost || contended s k))

/-- Dispatch stops and the grace period starts; a move that has not reached step 4 is abandoned, and one that has is completed first (R363). -/
def startGrace (s : State) (k : Nat) (g : Region) : State :=
  { s with regions := mset s.regions k { g with st := .grace, drain := false, graceEnd := s.time + 20, move := none } }

/-- A region in RUN with a cause that acts enters GRACE. -/
def preempt (s : State) (k : Nat) : State :=
  match mget s.regions k with
  | none => s
  | some g => if g.st = .run ∧ causeActs s k g ∧ (g.move.all (fun m => decide (m.step < 4))) then startGrace s k g else s

/-- PREEMPT_START (R356, R375): region inp.n. -/
def execPreemptStart (s : State) : Out := .next (preempt s s.inp.n)

/-- MINQ_EXPIRY (R356): the minimum quantum of region inp.n has ended, and a deferred cause acts. -/
def execMinqExpiry (s : State) : Out :=
  match mget s.regions s.inp.n with
  | none => .next s
  | some g => if g.since + g.quantum ≤ s.time then .next (preempt s s.inp.n) else .next s

/-- Grace ends early (R375): every handler of the tile is frozen, aborted or over, or parked behind a frozen level 1. -/
def graceOver (c : CTile) : Bool :=
  let ended (l : Level) : Bool := l.inv.all (fun i => i.frozen.isSome || i.aborted)
  ended c.l1 && (ended c.l0 || (c.l1.inv.any (fun i => i.frozen.isSome) && c.run == some true))

/-- The block in a level waits to commit for something other than a RUNNING row slot, or has begun its commit (R376, R343). -/
def willCommit (s : State) (hi : Bool) (b : Blk) : Bool :=
  let h := commitHold { s with core := { s.core with run := some hi } } b
  b.phase == .committing || (b.phase == .commitWait && (h.undo || h.other || !h.row))

/-- The handler of a level is aborted at its block boundary (R376), unless it is frozen or its block will commit. -/
def abortLevel (s : State) (hi : Bool) : State :=
  let l := s.core.level hi
  match l.inv with
  | none => s
  | some i =>
    if i.frozen.isSome ∨ i.aborted ∨ (l.blk.map (willCommit s hi)).getD false then s else discardBlock s hi

/-- The end of grace at one tile (R376): level 1 before level 0. The window stays with a block that will commit, or with a frozen level 1 over a
parked level 0. SCLDs that have not been sent are dropped. -/
def graceTile (s : State) : State :=
  let s := abortLevel (abortLevel s true) false
  let live (l : Level) : Bool := l.inv.any (fun i => i.frozen.isNone && !i.aborted)
  let c := s.core
  let behind := c.l1.inv.any (fun i => i.frozen.isSome) && c.l0.inv.any (fun i => i.frozen.isNone)
  { s with core := { c with
      mwin := none
      run := if live c.l1 then some true else if live c.l0 then some false else if behind then some true else none
      ch := { c.ch with sc := c.ch.sc.filter (fun o => o.data.isSome || o.sent) } } }

/-- The block of an invocation that is not frozen is owed the reply to request id. -/
def owedLive (c : CTile) (id : Nat) : Bool :=
  match owedLevel c id with
  | none => false
  | some hi => (c.level hi).inv.any (fun i => i.frozen.isNone)

/-- A read or returning atomic of region k that no block is owed any more, or only a frozen one, which runs anew: it is dropped (R146, R376). -/
def orphan (s : State) (k : Nat) (m : Msg) : Bool :=
  siteIn s k m.org.tile && (match m.body with
    | .load _ _ => true
    | .ldo _ => true
    | .scld _ => true
    | .atomic _ _ _ _ _ ret => ret
    | _ => false) && (((s.tile? m.org.tile).map (fun c => !owedLive c m.id)).getD true)

/-- Drops the held requests that bad accepts. -/
def dropHeld (s : State) (bad : Msg → Bool) : State :=
  let keep (m : Msg) : Bool := !bad m
  { s with
    mts := s.mts.map (fun m => (m.1, { m.2 with held := m.2.held.filter keep }))
    waiting := s.waiting.filter keep
    recvs := s.recvs.map (fun r => (r.1, { r.2 with
      faults := r.2.faults.map (fun f => { f with reqs := f.reqs.filter keep })
      late := r.2.late.filter (fun x => keep x.m)
      ins := r.2.ins.map (fun i => if (r.2.faults.flatMap (fun f => f.reqs) ++ r.2.late.map (fun x => x.m)).any (fun m => bad m && (match m.body with
        | .shoreTok p _ => p == i.1
        | _ => false)) then (i.1, { i.2 with taken := 0 }) else i) })) }

/-- The grace of region k is over: the remaining handlers are aborted, the row array stops and the engines run empty or stop (R375 steps 3 and
4). st: GRACE, or SAVE where the phase is starved. -/
def enterDrain (s : State) (k : Nat) (st : RegState) : State :=
  let s : State := (regTiles s k).foldl (fun s x => s.onTile x.1 graceTile) s
  let s := dropHeld s (orphan s k)
  { s with regions := mmod s.regions k (fun g => { g with st := st, drain := true, move := none }) }

/-- A starved phase is to be saved (R353): another phase waits for one of its islands, and no move of it is at step 4 (R363). -/
def starved (s : State) (k : Nat) (g : Region) : Bool :=
  g.st == .run && g.move.all (fun m => decide (m.step < 4)) && quiescent s k g && phaseFault s k && contended s k

/-- PHASE_STARVED_SAVE (R353): region inp.n is starved while another phase waits for one of its islands. -/
def execPhaseStarvedSave (s : State) : Out :=
  let k := s.inp.n
  match mget s.regions k with
  | none => .next s
  | some g => if starved s k g then .next (enterDrain s k .save) else .next s

-- The save (R377 to R380, R383)

/-- A binding, copy or generator command has stopped: it cannot go on before the save (R219). -/
def portStopped (s : State) (t : Nat) (c : CTile) (n : Nat) (q : Port) : Bool :=
  match q.active with
  | none => true
  | some b =>
    if b.wait then reqStuck s t (.port n b.id)
    else if 2 ≤ stuckPorts s t c then true
    else if b.out then q.buf.isEmpty || decide (1024 ≤ c.recov.slotsUsed) else decide (512 ≤ q.buf.length)

/-- The tile has come to rest: no block to commit, queues empty, engines stopped (R320, R375). -/
def tileAtRest (s : State) (t : Nat) (c : CTile) : Bool :=
  let over' (l : Level) : Bool := l.inv.all (fun i => i.frozen.isSome || i.aborted)
  over' c.l0 && over' c.l1 && c.mx.queue.isEmpty && !(tileOwes c) && !(c.ch.sc.any (fun o => o.sent)) && !c.recov.sweep && c.recov.aligned.isEmpty &&
    c.ports.zipIdx.all (fun q => portStopped s t c q.2 q.1) &&
    c.copies.all (fun x => (x.wait && reqStuck s t (.copy x.id)) || (!x.wait && decide (1024 ≤ c.recov.slotsUsed)))

/-- The memory tile has come to rest. -/
def mtAtRest (s : State) (m : MTile) : Bool :=
  m.input.isEmpty && m.cfgs.isEmpty && !m.sweep && m.held.all (fun x => isEngReq x.body) && m.gens.all (fun g => g.wait && reqStuck s g.tile (.gen g.g.toNat))

/-- A tile as its context keeps it (R380): RECOMP banks are lost, held requests of the engines are issued again, and what the table does not list, as
%wdlim, returns to its reset value. -/
def keepTile (c : CTile) : CTile :=
  { c.rested with
    agNext := 0, exits := []
    sys := { c.sys with wdlim := CTile.reset.sys.wdlim }
    ch := { c.ch with traps := c.ch.traps.map (fun n => { n with asked := false }) } }

/-- Memory cells of sites of a region that its context keeps: discardable ranges apart (R383). -/
def keepCells (mem : List Host.Cell) (ts : List (Nat × CTile)) (ms : List (Nat × MTile)) : List Host.Cell :=
  mem.filter (fun c => ts.any (fun x =>
      let lo := tileKey x.1 0
      decide (lo ≤ c.1 ∧ c.1 < lo + 0x80000) && !(x.2.sys.discs.any (fun d => decide (lo + d.2.1 ≤ c.1 ∧ c.1 < lo + d.2.1 + d.2.2)))) ||
    ms.any (fun x => decide (tileKey x.1 0 ≤ c.1 ∧ c.1 < tileKey x.1 0 + 0x400000)))

/-- Changes what the CACHE segments of M-tile t hold; the homes' directories follow (R302). -/
def mapLines (s : State) (t : Nat) (f : List (Nat × Nat × Bool) → List (Nat × Nat × Bool)) : State :=
  tidyDirs (s.setMt t { s.mt t with segs := (s.mt t).segs.map (fun g => if g.mode = .cache then { g with lines := f g.lines } else g) })

/-- The dirty lines that CACHE segments of M-tile t hold are written back, and with inv leave the segments (R218). -/
def flushTile (s : State) (t : Nat) (inv : Bool) : State :=
  mapLines s t (fun l => if inv then l.filter (fun x => !x.2.2) else l.map (fun x => (x.1, x.2.1, false)))

/-- Asks of the tiles that leave are withdrawn from the trap pools (R456). -/
def withdrawAsks (s : State) (gone : List Nat) : State :=
  s.mapTiles (fun _ c => c.ch.ins.any (fun i => i.2.asks.any (fun a => decide (a ∈ gone))))
    (fun _ c => { c with ch := { c.ch with ins := c.ch.ins.map (fun i => (i.1, { i.2 with asks := i.2.asks.filter (fun a => !(decide (a ∈ gone))) })) } })

/-- The context of region k (R380). -/
def contextOf (s : State) (k : Nat) (g : Region) : Saved :=
  let ts := regTiles s k
  let ms := regMts s k
  { tiles := ts.map (fun x => (x.1, keepTile x.2))
    mts := ms.map (fun x => (x.1, { x.2 with held := [], gens := x.2.gens.map (fun y => { y with wait := false }) }))
    mem := keepCells s.mem ts ms
    rin := ((mget s.parts (k / 256)).map Partition.cur).getD 0
    time := s.time
    queues := imgQueues s g.img
    shores := (regShores s k).map (fun x => (x.1, (x.2.1.map (fun c => { c with taken := 0 }), x.2.2)))
    colls := regColls s k
    moved := g.moved
    mig := g.mig
    movedAt := g.movedAt
    conf := g.conf
    confGens := g.confGens
    cfgRin := g.cfgRin
    answers := g.answers }

/-- Everything that the region began has been performed, delivered or stopped (R320, R375 step 5). -/
def regionAtRest (s : State) (k : Nat) (g : Region) : Bool :=
  !(regTraffic s k) && (regTiles s k).all (fun x => tileAtRest s x.1 x.2) && (regMts s k).all (fun x => mtAtRest s x.2) &&
    (imgQueues s g.img).all (fun q => q.2.chan.all (fun c => c.queue.isEmpty))

/-- GRACE_END (R353, R375, R376): region inp.n. After 20 µs, or once every handler has ended, the handlers are aborted; once the engines have run
empty, the save begins. -/
def execGraceEnd (s : State) : Out :=
  let k := s.inp.n
  match mget s.regions k with
  | none => .next s
  | some g =>
    if g.st ≠ .grace then .next s
    else if g.drain then (if regionAtRest s k g then .next { s with regions := mset s.regions k { g with st := .save } } else .next s)
    else if g.graceEnd ≤ s.time ∨ (regTiles s k).all (fun x => graceOver x.2) then .next (enterDrain s k .grace) else .next s

/-- The region can be saved. -/
def saveReady (s : State) (k : Nat) (g : Region) : Bool := g.st == .save && regionAtRest s k g

/-- CONTEXT_SAVE (R353, R380): region inp.n. The phase waits, suspended; the phase that a pending CSWP names becomes current. -/
def execContextSave (s : State) : Out :=
  let k := s.inp.n
  match mget s.regions k with
  | none => .next s
  | some g =>
    if saveReady s k g = false then .next s
    else
      let s : State := (regMts s k).foldl (fun s x => mapLines s x.1 (fun _ => [])) s
      let v := contextOf s k g
      let s := dropHeld s (fun m => siteIn s k m.org.tile && isEngReq m.body || (match m.body with
        | .shoreTok p _ => v.shores.any (fun x => x.1 == 1024 * (m.src - 0x10000) + p)
        | _ => false))
      let s := withdrawAsks s (v.tiles.map (fun x => x.1))
      let s := writeSaves { s with regions := mset s.regions k { g with saved := mset g.saved g.phase v, savedAt := s.time } } (k / 256) v
      let s := reRecord (leaveRegion s k { g with saved := mset g.saved g.phase v } true) k
      .next { s with images := mmod s.images g.img (fun m => match m.cswp with
        | some c => { m with phase := c.1, cswp := none }
        | none => m) }

-- Configuration and resumption (R354, R384, R405, R457)

/-- R457: the intervals in which the islands' previous phases ran have sealed or become void. -/
def mayConfigure (s : State) (k : Nat) (g : Region) : Bool :=
  match mget s.parts (k / 256) with
  | none => false
  | some q => q.ran.all (fun r => s.settled (k / 256) r.2 || !(decide (g.ix0 ≤ r.1.2.2.1 ∧ r.1.1 ≤ g.ix1 ∧ g.iy0 ≤ r.1.2.2.2 ∧ r.1.2.1 ≤ g.iy1)))

/-- The level of a resumed tile: an aborted invocation takes the window at the next decision (R384). -/
def resumeTile (c v : CTile) (cur : BitVec 32) : CTile :=
  let noTide (i : InChan) : InChan := { i with queue := i.queue.filter (fun x => x.2.kind != 9) }
  let disc : Word := v.sys.discs.foldl (fun d x => d ||| (1#64 <<< x.1)) 0
  { v with
    cyc := c.cyc
    elapsed := c.elapsed
    run := if v.l1.inv.any (fun i => i.frozen.isSome) && v.l0.inv.any (fun i => i.frozen.isNone) then some true else none
    ch := { v.ch with ins := v.ch.ins.map (fun i => (i.1, noTide i.2)) }
    row := v.row.placed v.cyc c.cyc
    sys := { v.sys with stopped := v.sys.stopped || v.sys.halted || v.sys.brk, disc := disc, clock := c.sys.clock, fduty := c.sys.fduty, fdutyNext := c.sys.fdutyNext }
    recov := { v.recov with rin := cur, tags := [], undo := [], bankUndo := [], sweep := false, aligned := [], carried := [] } }

/-- The memory of a resumed region: its sites' bytes are those of the context. -/
def resumeMem (mem : List Host.Cell) (v : Saved) : List Host.Cell :=
  let inSite (key : Nat) : Bool :=
    v.tiles.any (fun x => decide (tileKey x.1 0 ≤ key ∧ key < tileKey x.1 0 + 0x80000)) ||
      v.mts.any (fun x => decide (tileKey x.1 0 ≤ key ∧ key < tileKey x.1 0 + 0x400000))
  v.mem.foldl (fun m c => memPut m c.1 c.2) (mem.filter (fun c => !inSite c.1))

/-- The interface at which the far end of an output stands. -/
def Dest.iface (s : State) (d : Dest) : Nat :=
  match d with
  | .chan t _ => t
  | .hostOut q => hostIf (s.queuePort q)
  | .shore n _ => shoreIf n
  | .coll f _ => fjIf f

/-- The interface at which the producer of an input channel stands; none for one that sends nothing over the mesh of its own. -/
def Source.iface (s : State) (x : Source) : Option Nat :=
  match x with
  | .port t _ _ => some t
  | .border t _ => some t
  | .hostIn _ q => some (hostIf (s.queuePort q))
  | .shore n _ => some (shoreIf n)
  | .coll f _ => some (fjIf f)
  | .object _ => none
  | .trap => none

/-- Pins the connections of a restored tile's channels (R354 step 2, R415), in both directions. -/
def pinChans (s : State) (t : Nat) : State :=
  match s.tile? t with
  | none => s
  | some c =>
    let far := c.ch.outs.map (fun o => Dest.iface s o.2.dest) ++ c.ch.ins.filterMap (fun i => Source.iface s i.2.src) ++
      c.ch.ins.filterMap (fun i => i.2.border.map (fun o => Dest.iface s o.dest))
    far.dedup.foldl (fun s b => if b = t then s else
      let s := connect s t b true
      if b < 0x10000 then s else connect s b (s.homeOf t) true) s

/-- The context of region k is restored, held answers are applied, and the reconfiguration token passes in (R384, R405). -/
def resume (s : State) (k : Nat) (g : Region) (v : Saved) : State :=
  let p := k / 256
  let cur := ((mget s.parts p).map Partition.cur).getD 0
  let s := { s with mem := resumeMem s.mem v }
  let s : State := v.tiles.foldl (fun s x => s.modTile x.1 (fun c => resumeTile c x.2 cur)) s
  let s : State := v.mts.foldl (fun s x => s.setMt x.1 { x.2 with rin := cur, tags := [], undo := [], segUndo := [], sweep := false, region := some k }) s
  let s : State := { s with queues := s.queues.map (fun q => match mget v.queues q.1 with
    | some o => (q.1, { q.2 with img := o.img, port := o.port, chan := o.chan, eos := o.eos, start := o.port.map (fun e => ⟨q.2.read.toNat, e.pos, o.eos⟩),
                                   bound := cur })
    | none => q) }
  let s : State := v.shores.foldl (fun s x =>
    let a := shoreIf (x.1 / 1024)
    let r := s.recv a
    let ins := match x.2.1 with
      | some c => mset r.ins (x.1 % 1024) { c with queue := c.queue.filter (fun y => y.2.kind != 9) }
      | none => r.ins
    let outs := match x.2.2 with
      | some o => mset r.outs (x.1 % 1024) o
      | none => r.outs
    s.setRecv a (notePort { r with ins := ins, outs := outs, rin := mset r.rin (x.1 % 1024) cur } (x.1 % 1024) cur)) s
  let s : State := v.colls.foldl (fun s x => s.modColl x.1 (fun u => { u with rin := cur, outs := u.outs.modify x.2.1 (fun o => { o with credits := x.2.2 }) })) s
  let s : State := v.answers.foldl (fun s x => s.onTile x.1 (fun s => applyAnswer s x.2.1 x.2.2)) s
  -- a rollback to before the next cut finds the tokens of every channel again (R278)
  let all' (c : CTile) : CTile := { c with recov := { c.recov with carried := c.ch.ins.map (fun i => (i.1, i.2.queue ++ i.2.late)) } }
  let conf : Map CTile := v.tiles.filterMap (fun x => (s.tile? x.1).map (fun c => (x.1, all' c)))
  let q := ((mget s.images g.img).bind (fun m => m.phs[g.phase]?)).map (fun x => x.2)
  let s := { s with regions := mset s.regions k { g with
    st := .run, drain := false, since := s.time, quantum := q.getD 0, conf := conf, confGens := v.mts.map (fun x => (x.1, x.2.gens)),
    cfgRin := cur, back := some cur,
    moved := v.moved, mig := v.mig, movedAt := v.movedAt, move := none, hot := [], seen := none, quiet := false,
    causes := [], powerSum := 0, powerN := 0, answers := [], born := s.nextId, saved := mdel g.saved g.phase } }
  let s := clearTraffic s g
  let s := swapSites s v.moved true
  let s : State := v.tiles.foldl (fun s x => pinChans (pinWindows s x.1) x.1) s
  reRecord (pumpBorders s) k

/-- The restore may begin: every interval up to that of the save has sealed or become void (R405). -/
def mayResume (s : State) (k : Nat) (g : Region) (v : Saved) : Bool := g.st == .load && s.settled (k / 256) v.rin

/-- RESUMPTION (R384, R405): region inp.n. -/
def execResumption (s : State) : Out :=
  let k := s.inp.n
  match mget s.regions k with
  | none => .next s
  | some g => match mget g.saved g.phase with
    | none => .next s
    | some v => if mayResume s k g v then .next (resume s k g v) else .next s

/-- PHASE_CONFIGURE (R353, R354, R457): region inp.n. The loader refuses a phase that fails its checks; a page fault of its reads holds the load;
a suspended phase is restored. -/
def execPhaseConfigure (s : State) : Out :=
  let k := s.inp.n
  match mget s.regions k with
  | none => .next s
  | some g =>
    match mget s.images g.img, mget g.saved g.phase with
    | none, _ => .next s
    | some _, some v => if mayResume s k g v then .next (resume s k g v) else .next s
    | some m, none =>
      if g.st ≠ .load ∨ mayConfigure s k g = false then .next s
      else match readImage s m with
        | .fault v => .next (loadFault s m.part v)
        | .bad => .next (endImage s g.img 1 false)
        | .ok bs =>
          match parseImage bs m.len with
          | none => .next (endImage s g.img 1 false)
          | some i =>
            if phaseOk s m.inQueue m.outQueue i g.phase then .next (reRecord (pumpBorders (configure s g.img k g m i)) k)
            else .next (endImage s g.img 1 false)

end Sys2Proof.Machine
end

