-- ==== Sys2Proof/Machine/Power.lean ====
section
/-!
DEFINITION. The time beacon (R427) and what each microsecond brings; the power budget tree (R357 to R359), energy accounts (R451), telemetry
(R360, R361) and the longshore rebalancer (R362, R363, R379).
-/

namespace Sys2Proof.Machine

open Sys2Proof

-- Islands (R357, R358)

/-- The sites of an island. -/
def islandSites (i : Nat) : List Nat := rectSites (i % 33) (i / 33) (i % 33) (i / 33)

/-- The least binned maximum of the island's live tiles (R10, R357). -/
def islandMax (s : State) (i : Nat) : Nat := ((islandSites i).filter s.enterable).foldl (fun m t => min m (s.site t).fmax) 1900

/-- What the ballast passes of the last period took of an island's measured power, in mW (R359). -/
def Island.ballast (m : Island) : Rat := ((m.ball * passEnergy m.v : Nat) : Rat) / (5 * 562500)

/-- The island's own mean power P of the last period: the tree's ballast is charged to house (R359). -/
def Island.own (m : Island) : Rat := max 0 (m.power - m.ballast)

/-- est(x, y) of R357, in mW. -/
def est (i : Nat) (m : Island) (x y : Nat) : Rat :=
  m.own * x / m.f * y / m.duty * (voltAt i x * voltAt i x : Nat) / (m.v * m.v : Nat)

/-- The island's measurements of the period; an island that the sensors do not report keeps its last power (notes/assumptions). -/
def measure (s : State) (i : Nat) : Island :=
  let m := s.island i
  let m : Island := match s.inp.meas.find? (fun x => x.island.toNat == i) with
    | some x => { m with power := x.power, temp := x.temp }
    | none => m
  let hot := if 1600 ≤ m.temp then true else if m.temp < 1520 then false else m.capped
  { m with capped := hot, fcap := if hot then max 500 (min (islandMax s i) (m.f - 80)) else islandMax s i }

/-- D(i) and F(i). -/
def demandOf (i : Nat) (m : Island) : Rat := est i m m.fcap 16
def floorOf (i : Nat) (m : Island) : Rat := est i m 500 1

/-- The islands of a region. -/
def regIslands (g : Region) : List Nat :=
  (List.range (g.iy1 + 1 - g.iy0)).flatMap (fun y => (List.range (g.ix1 + 1 - g.ix0)).map (fun x => (g.iy0 + y) * 33 + g.ix0 + x))

/-- The grants of a node with grant g to children of floor and demand (F, D). -/
def grants (g : Rat) (cs : List (Rat × Rat)) : List Rat :=
  let sf := (cs.map (fun c => c.1)).foldl (· + ·) 0
  let sd := (cs.map (fun c => c.2 - c.1)).foldl (· + ·) 0
  if g < sf then cs.map (fun c => c.1 * g / sf) else cs.map (fun c => min c.2 (c.1 + (g - sf) * (c.2 - c.1) / sd))

/-- A region of the tree: key, islands with their measurements, floor, demand. -/
structure TreeNode where
  key : Nat
  isl : List (Nat × Island)
  fl : Rat
  dm : Rat

/-- The regions with a resident phase. -/
def treeNodes (s : State) : List TreeNode :=
  (s.regions.filter (fun g => g.2.resident)).map (fun g =>
    let l := (regIslands g.2).map (fun i => (i, measure s i))
    ⟨g.1, l, (l.map (fun x => floorOf x.1 x.2)).foldl (· + ·) 0, (l.map (fun x => demandOf x.1 x.2)).foldl (· + ·) 0⟩)

/-- The grant of every region, scaled down to its partition's cap (R357). -/
def regionGrants (s : State) (ns : List TreeNode) : List (Nat × Rat) :=
  let gs := ns.zip (grants (min s.head.budget.toNat 32000 * 1000 : Nat) (ns.map (fun n => (n.fl, n.dm))))
  gs.map (fun x =>
    let p := x.1.key / 256
    let cap : Rat := (((mget s.parts p).map Partition.cap).getD 0 * 1000 : Nat)
    let tot := ((gs.filter (fun y => y.1.key / 256 == p)).map (fun y => y.2)).foldl (· + ·) 0
    (x.1.key, if cap != 0 && decide (cap < tot) then x.2 * cap / tot else x.2))

/-- The operating point of an island with grant g (R358): frequency and duty. -/
def pointFor (i : Nat) (m : Island) (g : Rat) : Nat × Nat :=
  let xs := (List.range ((m.fcap - 500) / 4 + 1)).map (fun k => 500 + 4 * ((m.fcap - 500) / 4 - k))
  match xs.find? (fun x => decide (est i m x 16 ≤ g)) with
  | some x => (x, 16)
  | none => (500, max 1 (16 * g / est i m 500 16).floor.toNat)

/-- A planned operating point: island, measurements, frequency, duty, grant. -/
structure Point where
  i : Nat
  m : Island
  f : Nat
  d : Nat
  g : Rat

/-- The planned draw of a point. -/
def Point.draw (p : Point) : Rat := est p.i p.m p.f p.d

/-- The points of a region with its grant. -/
def regionPoints (n : TreeNode) (g : Rat) : List Point :=
  (n.isl.zip (grants g (n.isl.map (fun x => (floorOf x.1 x.2, demandOf x.1 x.2))))).map (fun x =>
    let p := if g < n.fl then (500, 1) else pointFor x.1.1 x.1.2 x.2
    ⟨x.1.1, x.1.2, p.1, p.2, x.2⟩)

/-- Inserts a point in the order of island numbers. -/
def insPoint (p : Point) (l : List Point) : List Point :=
  match l with
  | [] => [p]
  | q :: r => if p.i < q.i then p :: q :: r else q :: insPoint p r

/-- Raises granted in ascending island number while the total stays within the limit (R359): each point with whether it is held. -/
def holdRaises (limit : Rat) (tot : Rat) (open' : Bool) (l : List Point) : List (Point × Bool) :=
  match l with
  | [] => []
  | p :: r =>
    let now := p.m.own
    if p.draw ≤ now then (p, false) :: holdRaises limit tot open' r
    else if open' && decide (tot - now + p.draw ≤ limit) then (p, false) :: holdRaises limit (tot - now + p.draw) true r
    else ({ p with f := p.m.f, d := p.m.duty }, true) :: holdRaises limit tot false r

/-- R359: the raises of a plan that would draw more than 1.08 x D0 are held back. -/
def rampUp (d0 : Rat) (l : List Point) : List (Point × Bool) :=
  let plan := (l.map Point.draw).foldl (· + ·) 0
  if d0 * 108 / 100 < plan then
    holdRaises (d0 * 108 / 100) ((l.map (fun p => min p.draw p.m.own)).foldl (· + ·) 0) true l
  else l.map (fun p => (p, false))

/-- The ballast of a period (R359): passes on the C-tiles of islands without a resident phase; what they cannot take is left to other C-tiles.
Each entry is an island and its passes; the rest is in units of 1 / 562,500 nJ. -/
def spreadBallast (s : State) (owed : Nat) (is : List Nat) : List (Nat × Nat) × Nat :=
  is.foldl (fun (a : List (Nat × Nat) × Nat) i =>
    if a.2 = 0 then a
    else
      let e := passEnergy (voltAt i 500)
      let cap := 39 * ((islandSites i).filter (fun t => isCTile t && s.live t)).length
      let n := min cap ((a.2 + e - 1) / e)
      (a.1 ++ [(i, n)], a.2 - n * e)) ([], owed)

/-- An island takes its operating point (R358, R340): clocks at once, between two tile cycles; duty at the next frame boundary. -/
def setIsland (s : State) (i : Nat) (m : Island) : State :=
  let m : Island := if m.f = (s.island i).f then m else { m with at0 := s.core.elapsed, cyc0 := (s.island i).cycles s.core.elapsed }
  let s := { s with head := { s.head with islands := mset s.head.islands i m } }
  s.mapTiles (fun t _ => islandNo t == i) (fun _ c => { c with sys := { c.sys with clock := m.f, fdutyNext := some (BitVec.ofNat 5 m.duty) } })

-- Energy accounts (R451)

/-- The partition that holds an island. -/
def islandOwner (s : State) (i : Nat) : Option Nat :=
  (s.parts.find? (fun q => decide (q.2.ix0 ≤ i % 33 ∧ i % 33 ≤ q.2.ix1 ∧ q.2.iy0 ≤ i / 33 ∧ i / 33 ≤ q.2.iy1))).map (fun q => q.1)

/-- What one measured unit adds to an account, in µJ: an island to its partition with its ballast to house; a shared unit in proportion to bytes. -/
def energyShare (s : State) (x : IslandMeasure) (account : Nat) : Rat :=
  let e : Rat := (x.power : Rat) * 5 / 1000
  if x.island.toNat < 1056 then
    let i := x.island.toNat
    let ball := (s.island i).ballast * 5 / 1000
    match islandOwner s i with
    | some p => if account = p then e - ball else if account = 64 then ball else 0
    | none => if account = 64 then e else 0
  else
    let n (p : Nat) : Nat := mgetD s.fabric.bytes (x.island.toNat * 64 + p) 0
    let tot := ((List.range 64).map n).sum
    if tot = 0 then (if account = 64 then e else 0)
    else if account < 64 then e * n account / tot else 0

/-- Adds an energy in µJ to an account, rounded down to 2^-16 µJ. -/
def addEnergy (a : Energy) (e : Rat) : Energy :=
  let n := a.frac + (e * 65536).floor.toNat
  { a with uj := a.uj + BitVec.ofNat 64 (n / 65536), frac := n % 65536 }

def Energy.zero : Energy := ⟨0, 0, 0, 0, 0⟩

/-- ENERGY_ATTRIBUTION (R451): the accounts of the partitions and of the house take their shares, and the bytes of a new period are counted. -/
def attributeEnergy (s : State) : State :=
  let owners := (s.inp.meas.flatMap (fun (x : IslandMeasure) => (islandOwner s x.island.toNat).toList) ++ s.fabric.bytes.map (fun (b : Nat × Nat) => b.1 % 64) ++ [64]).dedup
  let es : List (Nat × Rat) := owners.map (fun p => (p, (s.inp.meas.map (fun x => energyShare s x p)).foldl (· + ·) 0))
  let s : State := es.foldl (fun s x =>
    { s with head := { s.head with energy := mset s.head.energy x.1 (addEnergy (mgetD s.head.energy x.1 Energy.zero) x.2) } }) s
  { s with fabric := { s.fabric with bytes := [] } }

-- The rebalancer (R362, R379)

/-- The occupancy sample of a tile's actor: 256 x occupied over granted slots of its input channels, border buffers apart. -/
def occupancy (c : CTile) : Nat :=
  let l := c.ch.ins.filter (fun i => i.2.border.isNone)
  256 * (l.map (fun i => i.2.queue.length + i.2.taken)).sum / max 1 (l.map (fun i => i.2.cap)).sum

/-- REBALANCER_SAMPLE (R362): samples the actors that may move; the hottest one starts its move. -/
def rebalance (s : State) (k : Nat) (g : Region) : Region :=
  if g.theta = 0 ∨ g.st ≠ .run then g
  else
    let os := g.mig.map (fun t => (t, ((s.tile? t).map occupancy).getD 0))
    let hot := os.foldl (fun m x => mset m x.1 (if g.theta ≤ x.2 then mgetD m x.1 0 + 1 else 0)) g.hot
    let cand := os.filter (fun x => decide (4 ≤ mgetD hot x.1 0) && ((mget g.movedAt x.1).all (fun t => decide (t + 1000 ≤ s.time))))
    let best := cand.foldl (fun (b : Option (Nat × Nat)) x => match b with
      | none => some x
      | some y => if y.2 < x.2 ∨ (y.2 = x.2 ∧ x.1 < y.1) then some x else some y) none
    let g := { g with hot := hot }
    match g.move, best.bind (fun b => (spareOf s g b.1).map (fun u => (b.1, u))) with
    | none, some m => if 28 ≤ g.moved.length ∨ k / 256 = 64 then g else { g with move := some ⟨m.1, m.2, s.time, 1⟩ }
    | _, _ => g

/-- The moving actor's tile is quiet (R363 step 2): tags home, engines idle, no row slot RUNNING, no matrix operation queued, and no cut in progress
(R407). -/
def moveQuiet (c : CTile) : Bool :=
  c.ch.held.isEmpty && c.ch.taga.isEmpty && c.l0.inv.isNone && c.l1.inv.isNone && c.mx.queue.isEmpty &&
    c.ports.all (fun q => q.active.isNone && q.pending.isNone) && c.copies.isEmpty && c.aggs.isEmpty && c.row.slots.all (fun r => r.st != .running) &&
    c.recov.aligned.isEmpty && !c.recov.sweep

/-- Steps 3 and 4 of a move (R363): the tile's state, store and undo log are copied to the target, and the region's version flips. -/
def moveTile (s : State) (k : Nat) (g : Region) (m : Move) : State :=
  let s := carryTile s ((s.tile? m.src).getD CTile.reset) m.src m.dst
  let s := { s with regions := mset s.regions k (carryKeys { g with move := some { m with step := 4 } } m.src m.dst) }
  startFlip (carryCuts s (k / 256) m.src m.dst) [(k, g.rver + 1)] (some (m.src, m.dst)) false

/-- REBALANCER_MOVE (R363, R407, R422): the move of region inp.n goes on once its tile is quiet. -/
def execRebalancerMove (s : State) : Out :=
  let k := s.inp.n
  match mget s.regions k with
  | none => .next s
  | some g => match g.move with
    | none => .next s
    | some m =>
      if m.step < 4 ∧ ((s.tile? m.src).map moveQuiet).getD false then .next (moveTile s k g m) else .next s

/-- MOVE_ABANDON (R363): the tile has not become quiet within 100 µs; dispatch resumes. -/
def execMoveAbandon (s : State) : Out :=
  let k := s.inp.n
  match mget s.regions k with
  | none => .next s
  | some g => match g.move with
    | none => .next s
    | some m => if m.step < 4 ∧ m.start + 100 ≤ s.time then .next { s with regions := mset s.regions k { g with move := none } } else .next s

-- The budget period

/-- What telemetry reports of a region for the period that ends (R361). -/
def regionMeasure (s : State) (g : Region) (n : TreeNode) : RegMeasure :=
  let span (f : Island → Nat) : Nat × Nat := ((n.isl.map (fun x => f x.2)).foldl min 65535, (n.isl.map (fun x => f x.2)).foldl max 0)
  { ended := s.time / 5 * 5, power := (n.isl.map (fun x => x.2.power)).sum, grant := g.grant,
    temp := (n.isl.map (fun x => x.2.temp)).foldl max (-32768), freq := span Island.f, duty := span Island.duty, volt := span Island.v,
    ballast := (n.isl.map (fun x => x.2.ball)).sum, forced := g.forced,
    thermal := n.isl.any (fun x => (s.island x.1).capped), held := g.held, moves := g.moves }

/-- What trips the module (R455): a tile at 110 °C, or an inlet flow below 21 L/min on a side for 1 s. -/
def coolant (s : State) : State :=
  let low := s.inp.flow.any (fun x => decide (x.1 < 21000 ∨ x.2 < 21000))
  let since : Option Nat := if low then some (s.head.lowFlow.getD s.time) else if s.inp.flow.isSome then none else s.head.lowFlow
  let s := { s with head := { s.head with lowFlow := since } }
  if s.head.powered ∧ (s.inp.meas.any (fun x => decide (x.island.toNat < 1056 ∧ 1760 ≤ x.temp)) ∨ since.any (fun t => decide (1000000 ≤ s.time - t))) then
    { s with agenda := s.agenda ++ [⟨headIf, .thermalTrip, Input.none⟩] }
  else s

/-- BUDGET_PERIOD (R357 to R359, R362, R451, R455): inp.flow holds the inlet flows, inp.meas holds what the sensors measured over the last period, islands by number and shared
units from 1,056 up. -/
def execBudgetPeriod (s : State) : Out :=
  let s := coolant (attributeEnergy s)
  let ns := treeNodes s
  let gs := regionGrants s ns
  let grantOf (k : Nat) : Rat := ((gs.find? (fun x => x.1 == k)).map (fun x => x.2)).getD 0
  let pts := (ns.flatMap (fun n => regionPoints n (grantOf n.key))).foldr insPoint []
  let busy := pts.map (fun p => p.i)
  let idle := (List.range 1056).filter (fun i => !(decide (i ∈ busy)))
  let rest := idle.map (fun i => (⟨i, measure s i, 500, 16, 0⟩ : Point))
  let d0 : Rat := ((s.inp.meas.map (fun x => x.power)).sum : Nat)
  let plan := rampUp d0 ((pts ++ rest).foldr insPoint [])
  let total := (plan.map (fun p => p.1.draw)).foldl (· + ·) 0
  -- 5 µs of the deficit in mW, in units of 1 / 562,500 nJ
  let owed := if total < d0 * 92 / 100 then ((d0 * 92 / 100 - total) * 5 * 562500).ceil.toNat else 0
  let ball := spreadBallast s owed idle
  let s : State := ns.foldl (fun s n => match mget s.regions n.key with
    | none => s
    | some g =>
      let gr := grantOf n.key
      let held := plan.any (fun p => p.2 && n.isl.any (fun x => x.1 == p.1.i))
      let m := regionMeasure s g n
      let g := { g with meas := m, moves := 0, grant := gr.floor.toNat, demand := n.dm.floor.toNat, floor := n.fl.ceil.toNat,
                        forced := decide (gr < n.fl), held := held, powerSum := g.powerSum + m.power,
                        powerN := g.powerN + 1, causes := if gr < n.fl then g.causes ++ [.budget] else g.causes.filter (fun c => c != .budget) }
      let s := { s with regions := mset s.regions n.key g }
      if gr < n.fl then { s with agenda := s.agenda ++ [⟨headIf, .preemptStart, { Input.none with n := n.key }⟩] } else s) s
  let s : State := plan.foldl (fun s p =>
    setIsland s p.1.i { p.1.m with f := p.1.f, v := voltAt p.1.i p.1.f, duty := p.1.d, grant := p.1.g.floor.toNat, ball := 0 }) s
  let s : State := ball.1.foldl (fun s b => { s with head := { s.head with islands := mmod s.head.islands b.1 (fun x => { x with ball := b.2 }) } }) s
  let s := { s with head := { s.head with ballast := ball.2, draw := d0.floor.toNat, granted := (gs.map (fun (x : Nat × Rat) => x.2.floor.toNat)).sum } }
  let s := { s with regions := s.regions.map (fun (g : Nat × Region) => (g.1, rebalance s g.1 g.2)) }
  .next s

-- Telemetry (R360, R361)

/-- The record of region k. -/
def telemetryRecord (k : Nat) (g : Region) : List Byte :=
  let m := g.meas
  leBytes 8 m.ended ++ leBytes 1 (k % 256) ++ leBytes 1 g.phase ++ leBytes 2 (regIslands g).length ++ leBytes 4 m.power ++ leBytes 4 m.grant ++
    leBytes 2 (m.temp % 65536).toNat ++ leBytes 2 m.freq.1 ++ leBytes 2 m.freq.2 ++ leBytes 1 m.duty.1 ++ leBytes 1 m.duty.2 ++ leBytes 2 m.volt.1 ++
    leBytes 2 m.volt.2 ++ leBytes 4 m.ballast ++
    leBytes 1 ((if g.meas.forced then 1 else 0) + (if g.meas.thermal then 2 else 0) + (if g.meas.held then 4 else 0)) ++ leBytes 1 g.meas.moves ++
    List.replicate 26 0

/-- TELEMETRY_PERIOD (R361): partition inp.p writes one record for every region with a resident phase. -/
def execTelemetryPeriod (s : State) : Out :=
  let p := s.inp.p.toNat
  match mget s.parts p with
  | none => .next s
  | some q =>
    let op := q.telm.toNat % 4
    if op ≠ 1 ∧ (op ≠ 2 ∨ q.telmAt = 0) then .next s
    else
      let s := s.modPart p (fun q => { q with telmAt := if op = 1 then s.time + 5 * (q.telm.toNat / 256 % 2 ^ 24) else 0 })
      .next ((s.regions.filter (fun g => g.1 / 256 == p && g.2.resident)).foldl (fun s g => ringWrite s p 2 0x20000 (telemetryRecord g.1 g.2)) s)

-- The time beacon (R427)

/-- An item of Headland's agenda with a number. -/
def headItem (i : Instr) (n : Nat) : Item := ⟨headIf, i, { Input.none with n := n }⟩

/-- Steps of partitions that a microsecond makes due: periodic waves (R395), telemetry (R361). -/
def duePart (s : State) : List Item :=
  s.parts.flatMap (fun q =>
    let w := q.2.wper.toNat
    let per := if 100 ≤ w ∧ w ≤ 1000000 then w else 1000
    (if s.time % per = 0 then [⟨headIf, .periodicWaveTimer, { Input.none with p := BitVec.ofNat 6 q.1 }⟩] else []) ++
      (if q.2.telmAt ≠ 0 ∧ q.2.telmAt ≤ s.time then [⟨headIf, .telemetryPeriod, { Input.none with p := BitVec.ofNat 6 q.1 }⟩] else []))

/-- Steps of regions: quanta, graces, moves (R356, R363, R375). -/
def dueRegions (s : State) : List Item :=
  s.regions.flatMap (fun g =>
    (if g.2.st = .run ∧ causeActs s g.1 g.2 then [headItem (if g.2.since + g.2.quantum ≤ s.time then .minqExpiry else .preemptStart) g.1] else []) ++
      (if g.2.st = .grace ∧ g.2.drain = false ∧ g.2.graceEnd ≤ s.time then [headItem .graceEnd g.1] else []) ++
      (if g.2.move.any (fun m => decide (m.step < 4 ∧ m.start + 100 ≤ s.time)) then [headItem .moveAbandon g.1] else []))

/-- Steps of the fabric and of the Fjoith ports: resends and the end of a flip's grace (R417, R420, R429). -/
def dueLinks (s : State) : List Item :=
  (s.fabric.ifs.flatMap (fun i => (i.2.ents.filter (fun e => e.2.typ == .out && unacked e.2 != 0 && decide (e.2.prog + 8 ≤ s.time))).map (fun e =>
    (⟨i.1, .resendTimeout, { Input.none with n := e.1 }⟩ : Item)))) ++
  (match s.fabric.flips with
    | j :: _ => if j.sent.any (fun t => decide (t + 2 ≤ s.time)) then [headItem .flipGraceEnd 0] else []
    | [] => []) ++
  (s.fjs.zipIdx.flatMap (fun f =>
    (if f.1.sent.isEmpty = false ∧ f.1.lanes ≠ 0 ∧ f.1.prog + 4 ≤ s.time then [⟨fjIf f.2, .fjoithResendTimeout, Input.none⟩] else []) ++
      (if f.1.lanes = 0 ∧ s.time % 10000 = 0 then [⟨fjIf f.2, .fjoithRetryTimer, Input.none⟩] else [])))

/-- What the sensors report at the end of a budget period (R357, R451): every island, then the shared units; all of it free values. -/
def sensors (s : State) : List IslandMeasure :=
  (List.range 1141).map (fun u => ⟨BitVec.ofNat 11 u, Config.sensedPower s.free u, Config.sensedTemp s.free u⟩)

/-- TIME_BEACON (R427): %time advances, the quiescence trees are swept (R352), waves that have started inject their TIDEs (R395), Fjoith ports and
management answers leave, and what has fallen due comes onto the agenda. -/
def execTimeBeacon (s : State) : Out :=
  let s := { s with time := s.time + 1 }
  -- every 1,024th pulse is doubled: a site whose count disagrees takes Headland's
  let s := if s.time % 1024 = 0 then s.mapTiles (fun _ c => c.sys.tlost.isSome) (fun _ c => { c with sys := { c.sys with tlost := none } }) else s
  let s := noteWaits (sweepAll s)
  let s : State := s.parts.foldl (fun s q => match q.2.wave with
    | some w => if w.injected then s else injectTides s q.1 w
    | none => s) s
  let s : State := { s with fjs := s.fjs.map (fun (f : FjPort) => { f with out := [] }), head := { s.head with mctpReplies := s.head.mctpReplies.filter (fun x => x.1.binding == .vdm && !(s.portUp (hostIf 0))) } }
  let s : State := (List.range 48).foldl beatFj s
  let slots := if (waitingQs s).isEmpty = false ∧ s.lslots.any (fun x => x.any (fun y => decide (y.since + 250 ≤ s.time))) then [headItem .launchSlotTimeout 0] else []
  let items := (if s.time % 5 = 0 then [⟨headIf, .budgetPeriod, { Input.none with meas := sensors s, flow := some (Config.sensedFlow s.free 0, Config.sensedFlow s.free 1) }⟩] else []) ++ duePart s ++ dueRegions s ++ dueLinks s ++ slots ++
    (if s.time % 1000000 = 0 then [headItem .counterFlash 0] else [])
  .next { (if s.time % 5 = 0 then s.tick else s) with agenda := s.agenda ++ items }

/-- BEACON_LOSS (R427, R432): the agent's site has seen no beacon for 2 µs and reports it; it keeps %time by interpolation until a double pulse. -/
def execBeaconLoss (s : State) : Out :=
  let s := { s with fabric := { s.fabric with blost := s.fabric.blost + 1 } }
  if inField s.agent ∧ isCTile s.agent then
    .next (s.modTile s.agent (fun c => { c with sys := { c.sys with tlost := some (c.sys.tlost.getD (s.time, c.elapsed)) } }))
  else .next s

end Sys2Proof.Machine
end

