-- ==== Sys2Proof/Machine/Boot.lean ====
section
/-!
DEFINITION. Bring-up (R440, R441): firmware slots (R442, R447), the signed defect map and the fuse map (R423, R424, R445), training, and the
release of the tiles.
-/

namespace Sys2Proof.Machine

open Sys2Proof

/-- Field of n bits from bit i of a number. -/
def bitsOf (v i n : Nat) : Nat := v / 2 ^ i % 2 ^ n

-- Firmware slots (R442). Identity 0 is the firmware key, 1 the manufacturing key.

/-- The security version of a slot's header; the header is 8 bytes, version at 0, image length at 4 (notes/assumptions). -/
def slotSvnOf (b : List Byte) : Nat := fld b 0 2
/-- Bytes of header and image. -/
def slotBody (b : List Byte) : Nat := 8 + fld b 4 4

/-- The check of a slot's contents: 2 verified, 3 signature, 4 version, 5 size, 8 header (R442, R444). -/
def slotCheck (s : State) (b : List Byte) : Nat :=
  if Config.slotBytes < b.length then 5
  else if b.length < 8 ∨ b.length < slotBody b then 8
  else if Config.verifies 0 (b.take (slotBody b)) (b.drop (slotBody b)) = false then 3
  else if slotSvnOf b < s.fuses.minSvn then 4 else 2

/-- The slot that runs: the accepted one with the higher version, A on a tie (R440). -/
def bootSlot (s : State) : Option Bool :=
  let a := slotCheck s s.fuses.slotA = 2
  let b := slotCheck s s.fuses.slotB = 2
  if a ∧ (¬ b ∨ slotSvnOf s.fuses.slotB ≤ slotSvnOf s.fuses.slotA) then some false else if b then some true else none

-- The defect map (R423, R445)

/-- The records of the signed map. -/
def mapRecs (b : List Byte) : List Nat := (List.range (fld b 4 4)).map (fun i => fld b (32 + 8 * i) 8)

/-- The signature of the map: its length, and where it stands. -/
def mapSig (b : List Byte) : List Byte := (b.drop (32 + 8 * fld b 4 4)).take (fld b 16 2)

def recType (r : Nat) : Nat := bitsOf r 60 4
def recTile (r : Nat) : Nat := bitsOf r 44 16
def recFmax (r : Nat) : Nat := bitsOf r 31 11

/-- The order of records: TYPE, TILE, AXIS. -/
def recOrder (r : Nat) : Nat := recType r * 2 ^ 17 + recTile r * 2 + (if recType r = 2 then bitsOf r 43 1 else 0)

def sortedRecs (l : List Nat) : Bool :=
  match l with
  | a :: b :: r => decide (recOrder a < recOrder b) && sortedRecs (b :: r)
  | _ => true

/-- A record meets the rules of R423. -/
def recOk (r : Nat) : Bool :=
  if recType r = 1 then
    inField (recTile r) && decide (bitsOf r 42 2 ≠ 3 ∧ bitsOf r 0 31 = 0) &&
      (if bitsOf r 42 2 = 2 then decide (recFmax r = 0) else decide (recFmax r % 4 = 0 ∧ 1200 ≤ recFmax r ∧ recFmax r ≤ 1900))
  else
    decide (recType r = 2) && inField (recTile r) && (neighbour (recTile r) (bitsOf r 43 1)).isSome && decide (bitsOf r 38 5 ≠ 0 ∧ bitsOf r 0 38 = 0)

/-- The map meets every rule of R423. -/
def mapOk (b : List Byte) : Bool :=
  let l := mapRecs b
  decide (32 + 8 * fld b 4 4 ≤ b.length ∧ fld b 0 4 = 1 ∧ fld b 16 2 ≤ 1280) && zeros b 18 14 && sortedRecs l && l.all recOk &&
    decide ((l.filter (fun r => recType r == 1)).length = 16896)

/-- The binned maximum that the fuses hold for site t. -/
def fusedMaxOf (f : Fuses) (t : Nat) : Nat := mgetD f.fmax t 1900

/-- The map agrees with the fuse map. -/
def mapAgrees (f : Fuses) (b : List Byte) : Bool :=
  ((mapRecs b).filter (fun r => recType r == 1)).all (fun r =>
    if recTile r ∈ f.holes then bitsOf r 42 2 == 2 else recFmax r == fusedMaxOf f (recTile r))

/-- MAPERR (R441): 0 when the signed map is used. -/
def mapError (f : Fuses) : Nat :=
  let b := f.defectMap
  if f.parityOk = false then 5
  else if Config.verifies 1 (b.take (32 + 8 * fld b 4 4)) (mapSig b) = false then 1
  else if fld b 8 8 ≠ f.serial.toNat then 2
  else if mapOk b = false then 3
  else if mapAgrees f b = false then 4 else 0

/-- The sites of the signed map; those that stand as booted by default are not listed. -/
def signedSites (b : List Byte) : Map Site :=
  (((mapRecs b).filter (fun r => recType r == 1)).map (fun r =>
    (recTile r, (⟨if bitsOf r 42 2 = 0 then .live else if bitsOf r 42 2 = 1 then .spare else .hole, recFmax r, false⟩ : Site)))).filter
      (fun (x : Nat × Site) => x.2 != ⟨.live, 1900, false⟩)

/-- The links of the signed map. -/
def signedLinks (b : List Byte) : Map Link :=
  ((mapRecs b).filter (fun r => recType r == 2)).map (fun r => (2 * recTile r + bitsOf r 43 1, ⟨bitsOf r 42 1 == 1, bitsOf r 38 4, []⟩))

/-- The sites of degraded-map mode: every site that the fuses flag is a hole, every other is live (R445). -/
def degradedSites (f : Fuses) : Map Site :=
  let m : Map Site := f.fmax.foldl (fun (m : Map Site) x => mset m x.1 ⟨.live, x.2, false⟩) []
  f.holes.foldl (fun (m : Map Site) t => mset m t ⟨.hole, 0, false⟩) m

/-- The first site from t in direction w that is no hole, with its distance. -/
def nextSite (s : State) (t w fuel : Nat) : Option (Nat × Nat) :=
  match fuel with
  | 0 => none
  | fuel + 1 =>
    match neighbour t w with
    | none => none
    | some u => if (s.site u).st = .hole then (nextSite s u w fuel).map (fun x => (x.1, x.2 + 1)) else some (u, 1)

/-- XSLOT by R424: the first link of the detour that replaces a blocked straight run of n hops from a to b carries the hops by which it is longer. -/
def detourSlot (s : State) (a b n : Nat) : Option (Nat × Nat) :=
  (turnList s a b).bind (fun l => ((turnLinks a l).head?).map (fun k => (k, min 15 ((l.map (fun g => g.2)).sum - n))))

/-- The run across hole t in direction w. -/
def holeSlot (s : State) (t w : Nat) : Option (Nat × Nat) :=
  match nextSite s t ((w + 2) % 4) 132, nextSite s t w 132 with
  | some a, some b => detourSlot s a.1 b.1 (a.2 + b.2)
  | _, _ => none

/-- The runs across dead link k, one in each direction. -/
def deadLinkSlots (s : State) (k : Nat) : List (Nat × Nat) :=
  match neighbour (k / 2) (k % 2) with
  | none => []
  | some u => (detourSlot s (k / 2) u 1).toList ++ (detourSlot s u (k / 2) 1).toList

/-- The links of degraded-map mode, trained: Headland computes XSLOT from the routes it builds (R424, R445). -/
def degradedLinks (s : State) : Map Link :=
  (s.fuses.holes.flatMap (fun t => (List.range 4).filterMap (holeSlot s t)) ++
    (s.fabric.links.filter (fun l => l.2.dead)).flatMap (fun l => deadLinkSlots s l.1)).foldl (fun (m : Map Link) x =>
      let l := mgetD m x.1 Link.fresh
      mset m x.1 { l with xslot := max x.2 l.xslot }) s.fabric.links

-- Fencing at boot

/-- Enterable sites that no packable turn list of Headland reaches (R419, R440 step 5). -/
def lostSites (s : State) : List Nat :=
  ((List.range 128).flatMap (fun y => (List.range 132).map (fun x => tileId x y))).filter (fun t => s.enterable t && (turnList s headIf t).isNone)

-- Steps

/-- A module reset: everything volatile is as reset leaves it; memory cells, fuses and flash, the always-on domain and TRIP stay (R435, R440,
R441, R449, R453). -/
def resetModule (s : State) : State :=
  { State.reset with
    agenda := []
    agent := s.agent
    inp := s.inp
    mem := s.mem
    bad := s.bad
    lineKey := s.lineKey
    fuses := s.fuses
    free := s.free
    nextId := s.nextId
    head := { Headland.reset with energy := s.head.energy, trip := s.head.trip } }

/-- Step 4: host ports train, bit h of inp.n for those that come up in flit mode. -/
def trainPorts (s : State) : State :=
  { s with ports := s.ports.zipIdx.map (fun p => { p.1 with up := s.inp.n.testBit p.2 }), head := { s.head with bootStep := 4 } }

/-- Step 4: stacks (inp.v), Fjoith ports, and tile links (inp.list: those that fail, by link key). -/
def trainAll (s : State) : State :=
  let s := trainPorts s
  { s with
    head := { s.head with hbmok := s.inp.v.setWidth 32 }
    fjs := s.fjs.map (fun (f : FjPort) => { f with training := true })
    fabric := { s.fabric with
      links := s.inp.list.foldl (fun (m : Map Link) k => mset m k { mgetD m k Link.fresh with dead := true }) s.fabric.links
      deadl := BitVec.ofNat 16 s.inp.list.length } }

/-- Step 3: the map of the module, SIGNED (0), DEGRADED (1) or NONE (2), with the measurement of the map used (R447). -/
def bootMap (s : State) : State :=
  let e := mapError s.fuses
  let b := s.fuses.defectMap
  let h : Headland := { s.head with mapErr := BitVec.ofNat 4 e, bootStep := 3 }
  if e = 0 then
    { s with head := { h with map := 0, mapMeasure := shake512 b }, fabric := { s.fabric with sites := signedSites b, links := signedLinks b } }
  else if e = 5 then { s with head := { h with map := 2, mapMeasure := List.replicate 64 0 } }
  else
    { s with head := { h with map := 1, mapMeasure := shake512 (Config.degradedMap s.fuses.holes s.fuses.fmax) }, fabric := { s.fabric with sites := degradedSites s.fuses } }

/-- Steps 5 to 7: unreachable sites are fenced, the barrier network is tied and the beacon starts, and the tiles are released. -/
def releaseTiles (s : State) : State :=
  let s : State := (lostSites s).foldl (fun s t => { s with fabric := { s.fabric with sites := mset s.fabric.sites t { s.site t with dead := true },
                                                                                       fenced := s.fabric.fenced + 1 } }) s
  -- a tile binned below the nominal clock keeps its island at its maximum (R10)
  let slow := s.fabric.sites.filter (fun x => x.2.st != .hole && decide (x.2.fmax < 1500))
  let s : State := slow.foldl (fun s x =>
    let m := s.island (islandNo x.1)
    { s with head := { s.head with islands := mset s.head.islands (islandNo x.1) { m with f := min m.f x.2.fmax, v := voltAt (islandNo x.1) (min m.f x.2.fmax) } } }) s
  { s with head := { s.head with bootStep := 7 }, core := { s.core with sys := { s.core.sys with clock := (s.island (islandNo s.cur)).f } } }

/-- BRING_UP (R433, R440, R441, R446): the ROM derives the device identity key, and the steps run; after power-on or a module reset. inp.v: stacks that train; inp.n: host ports that come up; inp.list: tile links that
fail. -/
def execBringUp (s : State) : Out :=
  let s := resetModule s
  let s := { s with head := { s.head with idKey := shake512 (leBytes 32 s.fuses.secret.toNat) } }
  match bootSlot s with
  | none => .next { s with head := { s.head with recov := true, bootStep := 2 } }
  | some b =>
    let img := if b then s.fuses.slotB else s.fuses.slotA
    let s := { s with head := { s.head with fwB := b, fwSvn := BitVec.ofNat 16 (slotSvnOf img), fwMeasure := shake512 img } }
    let s := bootMap s
    if s.head.map = 2 then .next { trainPorts s with head := { (trainPorts s).head with bootStep := 6 } }
    else
      let s := trainAll s
      .next (releaseTiles (if s.head.map = 1 then { s with fabric := { s.fabric with links := degradedLinks s } } else s))

end Sys2Proof.Machine
end

