-- ==== Sys2Proof/Machine/Host.lean ====
section
/-!
DEFINITION. What the host and management do to the module (R433 to R439, R441 to R450, R453 to R455): the register spaces, partitions, queues and
their entries, keys, firmware, attestation and energy readings, and resets.
-/

namespace Sys2Proof.Machine

open Sys2Proof

-- Signed records

/-- The signature field: n bytes signed by the device identity key over m, filled to 1,280 with zero bytes (R446). -/
def signature (s : State) (m : List Byte) (n : Nat) : List Byte :=
  let g := (Config.falcon s.head.idKey m).take n
  g ++ List.replicate (1280 - g.length) 0

/-- The length that a signature over a record with the given start will have. -/
def sigLen (s : State) (m : List Byte) : Nat := min 1280 (Config.falconLen s.head.idKey m)

/-- The account of partition p (R453). -/
def State.account (s : State) (p : Nat) : Energy := mgetD s.head.energy p Energy.zero

def setAccount (s : State) (p : Nat) (e : Energy) : State := { s with head := { s.head with energy := mset s.head.energy p e } }

/-- A signed reading of partition p (R215, R454): it uses the next reading number. -/
def energyReading (s : State) (p : Nat) (nonce : Word) : List Byte × State :=
  let a := s.account p
  let a := { a with rnum := a.rnum + 1 }
  let m := leBytes 8 a.uj.toNat ++ leBytes 8 a.rnum.toNat ++ leBytes 8 s.time ++ leBytes 8 nonce.toNat ++ leBytes 2 p
  let n := sigLen s m
  let h := m ++ leBytes 2 n
  (h ++ leBytes 12 0 ++ signature s h n, { s with head := { s.head with energy := mset s.head.energy p a } })

-- Registers read (R435, R441)

/-- Lays bytes over a field of n bytes from offset o. -/
def patchField (l : List Byte) (n o : Nat) (bs : List Byte) : List Byte :=
  (List.range n).map (fun i => if o ≤ i ∧ i < o + bs.length then (bs[i - o]?).getD 0 else (l[i]?).getD 0)

def Queue.fresh : Queue :=
  { base := 0, ctl := 0, head := 0, tail := 0, read := 0, port := none, chan := none, eos := false, placed := 0, cuts := [], waitSince := none, img := none,
    start := none, bound := 0 }

/-- Queue q of partition p. -/
def State.queue (s : State) (p q : Nat) : Queue := mgetD s.queues (p * 4096 + q) Queue.fresh

/-- BOOTST (R441). -/
def bootst (s : State) : Word :=
  let up := ((s.ports.zipIdx.map (fun p => if p.1.up then 2 ^ p.2 else 0)).sum) % 16
  let b (x : Bool) (i : Nat) : Nat := if x then 2 ^ i else 0
  BitVec.ofNat 64 (s.head.hbmok.toNat * 2 ^ 32 + s.head.map.toNat * 2 ^ 30 + b s.head.fwB 29 + b s.head.recov 28 + b s.head.trip 27 +
    s.head.bootStep.toNat * 2 ^ 24 + up * 2 ^ 20 + s.head.mapErr.toNat * 2 ^ 16 + s.head.fwSvn.toNat)

/-- FABST (R432). -/
def fabst (s : State) : Word :=
  let f := s.fabric
  BitVec.ofNat 64 (f.flipCount.toNat * 2 ^ 48 + f.deadl.toNat * 2 ^ 32 + f.fenced.toNat * 2 ^ 24 + f.blost.toNat * 2 ^ 16 + f.crce.toNat * 2 ^ 8 +
    min f.setups.length 255)

/-- LIVE: live M-tiles in bits 29:16, live C-tiles in bits 13:0 (R435). -/
def liveCount (s : State) : Word :=
  let l := ((List.range 128).flatMap (fun y => (List.range 132).map (fun x => tileId x y))).filter (fun t => s.live t && ((s.site t).st == .live))
  BitVec.ofNat 64 ((l.filter (fun t => !isCTile t)).length * 2 ^ 16 + (l.filter isCTile).length)

/-- The state of partition p: 00 none, 01 defined, 10 deleting (R436). -/
def partState (s : State) (p : Nat) : Nat :=
  match mget s.parts p with
  | none => 0
  | some q => if q.deleting then 2 else 1

def State.partdef (s : State) (p : Nat) : PartDef := mgetD s.head.partdefs p ⟨0, 0, 0, 0⟩

/-- Word k of PARTDEF[p] as read. -/
def partdefWord (s : State) (p k : Nat) : Word :=
  let d := s.partdef p
  match k with
  | 0 => d.w0
  | 1 => d.w1
  | 2 => d.w2
  | _ => d.w3 + BitVec.ofNat 64 (partState s p * 16)

/-- FWCMD as read (R444). -/
def fwcmd (s : State) : Word :=
  BitVec.ofNat 64 (s.fuses.minSvn % 65536 * 2 ^ 48 + s.head.slotSvn.toNat * 2 ^ 32 + s.head.fwResult.toNat * 256 + (if s.head.fwB then 0 else 8))

/-- KEYCMD as read (R449). -/
def keycmd (c : Word) (r : BitVec 2) : Word := c + BitVec.ofNat 64 (r.toNat * 2 ^ 30)

/-- A register of module space. -/
def readModule (s : State) (o : Nat) : Word :=
  if o % 8 ≠ 0 then 0
  else if o = 0 then bootst s
  else if o = 8 then fabst s
  else if o = 0x10 then s.head.budget.setWidth 64
  else if o = 0x18 then (s.account 64).uj
  else if o = 0x20 then liveCount s
  else if o = 0x28 then s.head.sundo.setWidth 64
  else if 0x100 ≤ o ∧ o < 0x280 then ((s.fjs[(o - 0x100) / 8]?).map FjPort.bind).getD 0
  else if 0x1000 ≤ o ∧ o < 0x1800 then partdefWord s ((o - 0x1000) / 32) (o % 32 / 8)
  else if o = 0x2000 then keycmd s.head.kcmd s.head.kres
  else if o = 0x2100 then s.head.attAddr
  else if o = 0x2200 then fwcmd s
  else if o = 0x2208 then s.head.fwAddr
  else if o = 0x2210 then s.head.fwLen.setWidth 64
  else 0

/-- The window registers of a defined partition. -/
def Partition.window (q : Partition) : Window := ⟨q.mem.spans, q.mem.root, q.wper, q.esaddr, q.kmat, q.kcmd, q.kres⟩

/-- Those registers as w has them. -/
def Partition.withWindow (q : Partition) (w : Window) : Partition :=
  { q with mem := { q.mem with spans := w.spans, root := w.root }, wper := w.wper, esaddr := w.esaddr, kmat := w.kmat, kcmd := w.kcmd, kres := w.kres }

/-- The window registers of partition number p, defined or not (R435). -/
def State.window (s : State) (p : Nat) : Window :=
  match mget s.parts p with
  | some q => q.window
  | none => mgetD s.head.windows p Window.reset

/-- Changes the window registers of partition number p. -/
def State.modWindow (s : State) (p : Nat) (f : Window → Window) : State :=
  match mget s.parts p with
  | some _ => s.modPart p (fun q => q.withWindow (f q.window))
  | none => { s with head := { s.head with windows := mset s.head.windows p (f (s.window p)) } }

/-- A register of partition p's window (R408, R435, R437, R439). The recovery registers of a partition that is not defined stand at their reset
values, and it has no queues. -/
def readWindow (s : State) (p o : Nat) : Word :=
  let w := s.window p
  let part (f : Partition → Word) (d : Word) : Word := ((mget s.parts p).map f).getD d
  if o % 8 ≠ 0 then 0
  else if o < 0x20000 then
    let x := s.queue p (o / 32)
    part (fun q => if q.qcnt ≤ o / 32 then 0
      else (match o % 32 / 8 with
      | 0 => x.base
      | 1 => x.ctl
      | 2 => x.head.setWidth 64
      | _ => x.tail.setWidth 64)) 0
  else if o < 0x20200 then (w.spans[(o - 0x20000) / 8]?).getD 0
  else if o = 0x20200 then w.root
  else if o = 0x20208 then part (fun q => if q.inval.isEmpty then 0 else 0x8000000000000000) 0
  else if o = 0x20218 then w.wper.setWidth 64
  else if o = 0x20220 then part (fun q => BitVec.ofNat 64 (q.sealed.toNat * 2 ^ 32 + q.cur.toNat)) 0xFFFFFFFF00000000
  else if o = 0x20228 then part (fun q => BitVec.ofNat 64 (q.autow.toNat * 2 ^ 48 + q.mrep.toNat * 2 ^ 32 + q.rbk.toNat * 2 ^ 16 + q.stall.toNat)) 0
  else if o = 0x20230 then (s.account p).uj
  else if o = 0x20238 then (s.account p).rnum
  else if o = 0x20240 then w.esaddr
  else if o = 0x20250 then keycmd w.kcmd w.kres
  else 0

def readReg (s : State) (sp : RegSpace) (o : Nat) : Word :=
  match sp with
  | .module => readModule s o
  | .window p => readWindow s p.toNat o

-- Partitions (R436)

/-- The fields of a partition definition. -/
structure PartFields where
  ix0 : Nat
  iy0 : Nat
  ix1 : Nat
  iy1 : Nat
  kfirst : Nat
  kcnt : Nat
  cap : Nat
  qcnt : Nat
  qfirst : Nat
  ctx : Word
  dom : BitVec 16
  master : Bool
  deriving DecidableEq, Repr

def PartDef.fields (d : PartDef) : PartFields :=
  let f (w : Word) (i n : Nat) : Nat := bitsOf w.toNat i n
  { ix0 := f d.w0 46 6, iy0 := f d.w0 36 5, ix1 := f d.w0 52 6, iy1 := f d.w0 41 5, kfirst := f d.w0 24 12, kcnt := f d.w0 12 12, cap := f d.w1 32 32,
    qcnt := f d.w1 19 13, qfirst := f d.w1 7 12, ctx := d.w2, dom := BitVec.ofNat 16 (f d.w3 48 16), master := d.w3.getLsbD 47 }

/-- The ranges [a, a + m) and [b, b + n) meet. -/
def idRangesMeet (a m b n : Nat) : Bool := decide (a < b + n ∧ b < a + m)

/-- The number of the first check of CREATE that fails (R436); 0 when all hold. -/
def createError (s : State) (p : Nat) (x : PartFields) : Nat :=
  let others := s.parts.filter (fun q => q.1 != p)
  if ¬ (x.ix0 ≤ x.ix1 ∧ x.ix1 ≤ 32 ∧ x.iy0 ≤ x.iy1 ∧ x.iy1 ≤ 31) then 1
  else if others.any (fun q => decide (x.ix0 ≤ q.2.ix1 ∧ q.2.ix0 ≤ x.ix1 ∧ x.iy0 ≤ q.2.iy1 ∧ q.2.iy0 ≤ x.iy1)) then 2
  else if 4096 < x.kfirst + x.kcnt ∨ others.any (fun q => idRangesMeet x.kfirst x.kcnt q.2.mem.kfirst q.2.mem.kcnt) then 3
  else if 4096 < x.qfirst + x.qcnt ∨ others.any (fun q => idRangesMeet x.qfirst x.qcnt q.2.qfirst q.2.qcnt) then 4
  else if x.ctx.toNat % 65536 ≠ 0 then 5
  else if funcEnabled s p = false then 6
  else if x.dom ≠ 0 ∧ others.any (fun q => q.2.dom == x.dom) then 8 else 0

/-- A partition as CREATE defines it, its window registers at their reset values (R298, R386, R408, R435, R439). -/
def newPart (x : PartFields) : Partition :=
  { ix0 := x.ix0, iy0 := x.iy0, ix1 := x.ix1, iy1 := x.iy1,
    mem := { spans := List.replicate 64 0, root := 0, kfirst := x.kfirst, kcnt := x.kcnt, ctx := x.ctx },
    cap := x.cap, qfirst := x.qfirst, qcnt := x.qcnt, dom := x.dom, master := x.master, deleting := false, sealed := 0xFFFFFFFF, cur := 0,
    voidTo := 0xFFFFFFFF, wper := 1000, autow := 0, mrep := 0, rbk := 0, stall := 0, pend := false, wave := none, cuts := [], ring := 0, rings := [],
    telm := 0, telmAt := 0, inval := [], esaddr := 0, kmat := [], kcmd := 0, kres := 0, ran := [], tally := [], telmUndo := [] }

/-- Sets ERR of PARTDEF[p]. -/
def setErr (s : State) (p e : Nat) : State :=
  let d := s.partdef p
  { s with head := { s.head with partdefs := mset s.head.partdefs p { d with w3 := (d.w3 &&& 0xFFFF800000000000) ||| BitVec.ofNat 64 (e * 256) } } }

/-- CREATE of partition p: only once the tiles are released (R440), and while STATE is 00. -/
def createPart (s : State) (p : Nat) : State :=
  if partState s p ≠ 0 ∨ s.head.bootStep ≠ 7 then s
  else
    let x := (s.partdef p).fields
    match createError s p x with
    | 0 =>
      let q := (newPart x).withWindow (s.window p)
      let s : State := { s with parts := mset s.parts p q, head := { s.head with windows := mdel s.head.windows p } }
      layHeaders (s.modPart p (fun q => { q with ring := ringStart s p q })) p
    | e => setErr s p e

/-- DELETE of partition p: refused while a queue has work; else the partition is deleting until its keys, spans and queues are gone. -/
def deletePart (s : State) (p : Nat) : State :=
  if partState s p ≠ 1 then s
  else if s.queues.any (fun q => q.1 / 4096 == p && hasWork s q.1 q.2) then setErr s p 7
  else
    let s := s.modPart p (fun q => { q with deleting := true })
    { s with agenda := s.agenda ++ [⟨headIf, .partitionDeleteDone, { Input.none with p := BitVec.ofNat 6 p }⟩] }

/-- PARTDEF_CREATE (R436): partition inp.p. -/
def execPartdefCreate (s : State) : Out := .next (createPart s s.inp.p.toNat)

/-- PARTDEF_DELETE (R436): partition inp.p. -/
def execPartdefDelete (s : State) : Out := .next (deletePart s s.inp.p.toNat)

/-- Ends every image of partition p. -/
def endImages (s : State) (p code : Nat) (direct : Bool) : State :=
  (s.images.filter (fun m => m.2.part == p)).foldl (fun s m => endImage s m.1 code direct) s

/-- PARTITION_DELETE_DONE (R436, R438): the keys of partition inp.p are zeroized, its spans, PTROOT and queues are cleared, and STATE is 00. -/
def execPartitionDeleteDone (s : State) : Out :=
  let p := s.inp.p.toNat
  match mget s.parts p with
  | none => .next s
  | some q =>
    if q.deleting = false then .next s
    else
      let s := endImages s p 5 false
      .next { s with
        parts := mdel s.parts p
        queues := s.queues.filter (fun x => x.1 / 4096 != p)
        lslots := s.lslots.map (fun x => x.filter (fun y => y.queue / 4096 != p))
        head := { s.head with keys := s.head.keys.filter (fun k => !(decide (q.mem.kfirst ≤ k.1 ∧ k.1 < q.mem.kfirst + q.mem.kcnt)))
                              windows := mset s.head.windows p { q.window with spans := Window.reset.spans, root := 0 } }
        recvs := s.recvs.map (fun r => (r.1, { r.2 with leaves := r.2.leaves.filter (fun l => l.part != p), walks := r.2.walks.filter (fun w => w.part != p),
                                                        faults := r.2.faults.filter (fun w => w.part != p) })) }

/-- VF_ENABLE_WRITE (R433): VF Enable (inp.flag) and NumVFs (inp.v) of host port inp.n. -/
def execVfEnableWrite (s : State) : Out :=
  .next { s with ports := s.ports.modify s.inp.n (fun h => { h with vfEnable := s.inp.flag, numVfs := min 63 s.inp.v.toNat }) }

-- Queues (R437, R438)

/-- Changes queue q of partition p. -/
def setQueue (s : State) (p q : Nat) (f : Queue → Queue) : State :=
  if ((mget s.parts p).map (fun x => decide (q < x.qcnt))).getD false then { s with queues := mset s.queues (p * 4096 + q) (f (s.queue p q)) } else s

/-- A write of QCTL: EN stays 0 for a LOG2N outside 4 to 16 and for TYPE 11. -/
def writeQctl (v : Word) (x : Queue) : Queue :=
  if x.en then x
  else
    let l := (v.extractLsb' 8 5).toNat
    let v := v &&& 0x8000000000001F0F
    { x with ctl := if l < 4 ∨ 16 < l ∨ v.extractLsb' 0 2 = 3 then v &&& 0x7FFFFFFFFFFFFFFF else v }

/-- QTAIL of a LAUNCH or INPUT queue, written by the host. -/
def writeTail (s : State) (p q : Nat) (v : BitVec 32) : State :=
  noteWaits (setQueue s p q (fun x => if x.typ = some .output ∨ x.typ = none ∨ x.n < (v - x.head).toNat then x else { x with tail := v }))

/-- QHEAD of an OUTPUT queue, written by the host: tokens that waited for room are written. -/
def writeHead (s : State) (p q : Nat) (v : BitVec 32) : State :=
  pumpOut (setQueue s p q (fun x => if x.typ ≠ some .output ∨ x.n < (x.tail - v).toNat then x else { x with head := v })) (p * 4096 + q) 600

/-- QTAIL_WRITE (R437): queue inp.n of partition inp.p takes TAIL inp.v. -/
def execQtailWrite (s : State) : Out := .next (writeTail s s.inp.p.toNat s.inp.n (s.inp.v.setWidth 32))

/-- QHEAD_WRITE (R437): queue inp.n of partition inp.p takes HEAD inp.v. -/
def execQheadWrite (s : State) : Out := .next (writeHead s s.inp.p.toNat s.inp.n (s.inp.v.setWidth 32))

/-- A launch record (R350), or none when it is malformed. -/
def launchRecord (s : State) (k : Nat) (b : List Byte) : Option Image :=
  if zeros b 17 3 ∧ zeros b 28 4 ∧ zeros b 48 16 ∧ fld b 20 4 < 2 ^ 22 ∧ fld b 0 8 % 64 = 0 then
    some { part := k / 4096, queue := k, image := BitVec.ofNat 64 (fld b 0 8), len := fld b 8 8, phase := fld b 16 1, supv := BitVec.ofNat 22 (fld b 20 4),
           iqb := fld b 24 2, oqb := fld b 26 2, done := BitVec.ofNat 64 (fld b 32 8), utag := BitVec.ofNat 64 (fld b 40 8), regs := [], started := false,
           waits := s.time, phs := [], powers := [], cswp := none }
  else none

/-- The image of a malformed record: it has only its completion status. -/
def badImage (s : State) (k : Nat) (b : List Byte) : Image :=
  { part := k / 4096, queue := k, image := 0, len := 0, phase := 0, supv := 0, iqb := 0, oqb := 0, done := BitVec.ofNat 64 (fld b 32 8),
    utag := BitVec.ofNat 64 (fld b 40 8), regs := [], started := false, waits := s.time, phs := [], powers := [], cswp := none }

/-- A launch record of queue k has been read. -/
def takeLaunch (s : State) (k : Nat) (b : List Byte) : State :=
  let n := s.nextId
  let s : State := { s with nextId := n + 1, queues := mmod s.queues k (fun q => { q with read := q.read + 1 }) }
  match launchRecord s k b with
  | some m => { s with images := mset s.images n m }
  | none => endImage { s with images := mset s.images n (badImage s k b) } n 3 false

/-- The token of an INPUT entry (R274, R438), or none when it is malformed. -/
def inputToken (b : List Byte) (rin : BitVec 32) : Option Token :=
  let d := fld b 32 8
  let kind := bitsOf d 14 4
  let len := bitsOf d 18 3
  if (kind = 0 ∨ kind = 8) ∧ len ≤ 4 ∧ bitsOf d 21 4 = 0 then
    some { kind := BitVec.ofNat 4 kind, len := len, words := (List.range 4).map (fun j => if j < len then BitVec.ofNat 64 (fld b (8 * j) 8) else 0),
           psn := 0, stag := 0, rin := rin, ch := 0 }
  else none

/-- The interval that the next token of a host input stream of partition p bears: the one the wave closes until the stream's TIDE has gone. -/
def streamRin (s : State) (p : Nat) : BitVec 32 :=
  match mget s.parts p with
  | none => 0
  | some q => match q.wave with
    | some w => if w.injected then q.cur else w.n
    | none => q.cur

/-- An entry of INPUT queue k has been read: its token leaves on the stream. -/
def takeInput (s : State) (k : Nat) (q : Queue) (o : OutPort) (b : List Byte) : State :=
  let rin := streamRin s (k / 4096)
  match inputToken b rin with
  | none => match q.img with
    | some n => endImage s n 3 false
    | none => s
  | some t =>
    let a := hostIf (s.queuePort k)
    let s := { s with queues := mset s.queues k { q with read := q.read + 1, eos := t.kind == 8, port := some { o with credits := o.credits - 1, pos := o.pos + 1 } } }
    sendOver s a { s.origin 0 0 with tile := 0, part := k / 4096, rin := rin } o.dest o.pos t

/-- Queue k has an entry that the device reads now (R350, R437, R438): its port is up, and a LAUNCH queue holds a slot and runs no image, an INPUT
queue is a bound stream with a credit. -/
def mayRead (s : State) (k : Nat) (q : Queue) : Bool :=
  q.en && q.unread && s.portUp (hostIf (s.queuePort k)) &&
    (match q.typ with
    | some .launch => mappedQ s k && !(s.images.any (fun m => m.2.queue == k))
    | some .input => !q.eos && (q.port.map (fun o => decide (0 < o.credits))).getD false
    | _ => false)

/-- HOST_READ_COMPLETION (R350, R437, R438): the next entry of queue inp.n (partition x 4,096 + queue) has been read. -/
def execHostReadCompletion (s : State) : Out :=
  let k := s.inp.n
  match mget s.queues k with
  | none => .next s
  | some q =>
    if mayRead s k q = false then .next s
    else
      let b := s.bytes (q.entry q.read) 64
      match q.typ, q.port with
      | some .launch, _ => .next (takeLaunch s k b)
      | some .input, some o => .next (takeInput s k q o b)
      | _, _ => .next s

/-- FLR (R438): a function-level reset of function inp.p. -/
def execFlr (s : State) : Out :=
  let p := s.inp.p.toNat
  let s := endImages s p 4 true
  .next { s with queues := s.queues.map (fun q => if q.1 / 4096 = p then (q.1, { q.2 with ctl := q.2.ctl &&& 0x7FFFFFFFFFFFFFFF }) else q) }

/-- HOST_PORT_LINK_DOWN (R438): host port inp.n. -/
def execHostPortLinkDown (s : State) : Out := .next { s with ports := s.ports.modify s.inp.n (fun h => { h with up := false }) }

/-- HOST_PORT_LINK_UP (R433, R438): host port inp.n has trained in flit mode; the traffic that waited goes on. -/
def execHostPortLinkUp (s : State) : Out :=
  .next (releaseHeld { s with ports := s.ports.modify s.inp.n (fun h => { h with up := true }) } (hostIf s.inp.n))

-- Translation registers (R439)

/-- SPAN_WRITE (R298, R439): span inp.n of partition inp.p takes inp.v. Requests already sent stand at the interface that the old entry named. -/
def writeSpan (s : State) (p n : Nat) (v : Word) : State :=
  s.modWindow p (fun w => { w with spans := w.spans.set n (v &&& 0xF000003FFFFFFFFF) })

def execSpanWrite (s : State) : Out := .next (writeSpan s s.inp.p.toNat s.inp.n s.inp.v)

/-- PTROOT_WRITE (R439): partition inp.p takes inp.v. Walks begun before finish under the old root. -/
def writePtroot (s : State) (p : Nat) (v : Word) : State :=
  layHeaders (s.modWindow p (fun w => { w with root := v &&& 0x3FFFFFFF001 })) p

def execPtrootWrite (s : State) : Out := .next (writePtroot s s.inp.p.toNat s.inp.v)

-- Keys (R449)

/-- The key registers of a window (some p) or of module space (none): KMAT. -/
def kmatOf (s : State) (own : Option Nat) : List Byte :=
  match own with
  | none => s.head.kmat
  | some p => (s.window p).kmat

/-- Sets the key registers. -/
def setKeyRegs (s : State) (own : Option Nat) (kmat : List Byte) (cmd : Word) (res : BitVec 2) : State :=
  match own with
  | none => { s with head := { s.head with kmat := kmat, kcmd := cmd, kres := res } }
  | some p => s.modWindow p (fun w => { w with kmat := kmat, kcmd := cmd, kres := res })

/-- The index lies in the range that the command may name. -/
def keyInRange (s : State) (own : Option Nat) (i : Nat) : Bool :=
  match own with
  | none => decide (i < 4096)
  | some p => match mget s.parts p with
    | some q => decide (q.mem.kfirst ≤ i ∧ i < q.mem.kfirst + q.mem.kcnt)
    | none => false

/-- A partition whose range holds the index has a resident or suspended phase. -/
def keyBusy (s : State) (i : Nat) : Bool :=
  s.parts.any (fun q => decide (q.2.mem.kfirst ≤ i ∧ i < q.2.mem.kfirst + q.2.mem.kcnt) &&
    s.regions.any (fun g => g.1 / 256 == q.1 && g.2.st != .free))

/-- A key command: op 0 LOAD, 1 GEN, 2 ZERO. KMAT is cleared by a LOAD that is not answered busy. -/
def keyCommand (s : State) (own : Option Nat) (i op : Nat) : State :=
  let cmd : Word := BitVec.ofNat 64 (op * 2 ^ 16 + i)
  let m := patchField (kmatOf s own) 64 0 []
  if keyInRange s own i = false then setKeyRegs s own (if op = 0 then [] else kmatOf s own) cmd 2
  else if keyBusy s i then setKeyRegs s own (kmatOf s own) cmd 1
  else if op = 0 ∧ m.take 32 = m.drop 32 then setKeyRegs s own [] cmd 2
  else
    let key (s : State) (o : Option (List Byte)) : State := match o with
      | some b => { s with head := { s.head with keys := mset s.head.keys i b } }
      | none => { s with head := { s.head with keys := mdel s.head.keys i } }
    match op with
    | 0 => setKeyRegs (key s (some m)) own [] cmd 0
    | 1 => setKeyRegs (key s (some (leBytes 64 (Config.randomKey s.free).toNat))).tick own (kmatOf s own) cmd 0
    | _ => setKeyRegs (key s none) own (kmatOf s own) cmd 0

/-- The space that issues a key command (inp.own) as a window number. -/
def keyOwner (s : State) : Option Nat := s.inp.own.map BitVec.toNat

/-- KEYCMD_LOAD (R449): key inp.n takes KMAT; inp.own is the issuing window, none for module space. -/
def execKeycmdLoad (s : State) : Out := .next (keyCommand s (keyOwner s) s.inp.n 0)

/-- KEYCMD_GEN (R449). -/
def execKeycmdGen (s : State) : Out := .next (keyCommand s (keyOwner s) s.inp.n 1)

/-- KEYCMD_ZERO (R449). -/
def execKeycmdZero (s : State) : Out := .next (keyCommand s (keyOwner s) s.inp.n 2)

/-- A write of KEYCMD; OP 11 is none of the commands. -/
def writeKeycmd (s : State) (own : Option Nat) (v : Word) : State :=
  let op := (v.extractLsb' 16 2).toNat
  if op = 3 then s else keyCommand s own (v.toNat % 4096) op

/-- A write of 8 bytes of KMAT. -/
def writeKmat (s : State) (own : Option Nat) (o : Nat) (v : Word) : State :=
  let b := patchField (kmatOf s own) 64 o (leBytes 8 v.toNat)
  match own with
  | none => { s with head := { s.head with kmat := b } }
  | some p => s.modWindow p (fun w => { w with kmat := b })

-- Firmware (R443, R444)

/-- The slot that is not running. -/
def idleSlot (s : State) : List Byte := if s.head.fwB then s.fuses.slotA else s.fuses.slotB
def setIdleSlot (s : State) (b : List Byte) : State := { s with fuses := if s.head.fwB then { s.fuses with slotA := b } else { s.fuses with slotB := b } }

/-- LOAD (R444): ignored while RESULT is 1. With SRC = 0 the slot is erased; with SRC = 1 it holds what write-slot messages have placed. -/
def fwLoad (s : State) : State :=
  if s.head.fwResult = 1 then s
  else
    let s := if s.head.fwAddr.getLsbD 0 then s else setIdleSlot s []
    { s with head := { s.head with fwResult := 1, slotSvn := 0 }, agenda := s.agenda ++ [⟨headIf, .fwLoadDone, Input.none⟩] }

/-- COMMIT (R443, R444). -/
def fwCommit (s : State) : State :=
  if s.head.fwResult = 1 then s
  else if s.fuses.minSvn < s.head.fwSvn.toNat ∧ s.head.bootStep = 7 then
    { s with head := { s.head with fwResult := 2 }, fuses := { s.fuses with minSvn := s.head.fwSvn.toNat } }
  else { s with head := { s.head with fwResult := 7 } }

/-- FWCMD_LOAD. -/
def execFwcmdLoad (s : State) : Out := .next (fwLoad s)

/-- FWCMD_COMMIT. -/
def execFwcmdCommit (s : State) : Out := .next (fwCommit s)

/-- FW_LOAD_DONE (R442, R444): the image is in the slot and has been checked. A host port 0 that is down, or inp.flag, is a read error. -/
def execFwLoadDone (s : State) : Out :=
  if s.head.fwResult ≠ 1 then .next s
  else
    let n := s.head.fwLen.toNat
    let src := s.head.fwAddr.getLsbD 0
    let done (s : State) (r svn : Nat) : State := { s with head := { s.head with fwResult := BitVec.ofNat 4 r, slotSvn := BitVec.ofNat 16 svn } }
    if Config.slotBytes < n then .next (done s 5 0)
    else if src = false ∧ (s.inp.flag ∨ s.portUp (hostIf 0) = false) then .next (done s 6 0)
    else
      let b := if src then (idleSlot s).take n else s.bytes (hostKey (s.head.fwAddr.toNat / 4096 * 4096)) n
      let s := setIdleSlot s b
      let r := if b.length < n then 8 else slotCheck s b
      .next (done s r (if r = 2 then slotSvnOf b else 0))

-- Attestation and readings (R448, R454)

/-- The 1,536-byte attestation report (R448). -/
def attestation (s : State) (nonce : List Byte) : List Byte :=
  let defs := (List.range 64).flatMap (fun p => (List.range 4).flatMap (fun k => leBytes 8 (partdefWord s p k).toNat))
  let m := leBytes 1 1 ++ leBytes 7 s.fuses.serial.toNat ++ patchField nonce 32 0 [] ++ patchField s.head.fwMeasure 64 0 [] ++
    patchField s.head.mapMeasure 64 0 [] ++ leBytes 8 (bootst s).toNat ++ leBytes 8 s.time ++ patchField (shake512 defs) 64 0 [] ++ leBytes 6 0
  let n := sigLen s m
  let h := m ++ leBytes 2 n
  h ++ signature s h n

/-- The report goes to ATTADDR directly. -/
def attest (s : State) (nonce : List Byte) : State := s.puts (hostKey s.head.attAddr.toNat) (attestation s nonce)

/-- ATTNONCE_WRITE (R448): the nonce is inp.nonce. -/
def execAttnonceWrite (s : State) : Out := .next (attest s (leBytes 32 s.inp.nonce.toNat))

/-- A write of ESNONCE: the record goes to ESADDR directly (R454). -/
def writeEsnonce (s : State) (p : Nat) (v : Word) : State :=
  let r := energyReading s p v
  r.2.puts (hostKey (s.window p).esaddr.toNat) r.1

/-- ESNONCE_WRITE (R454): partition inp.p, nonce inp.v. -/
def execEsnonceWrite (s : State) : Out := .next (writeEsnonce s s.inp.p.toNat s.inp.v)

/-- COUNTER_FLASH (R453): every second the counters are written to flash. -/
def execCounterFlash (s : State) : Out :=
  .next { s with head := { s.head with energy := s.head.energy.map (fun (e : Nat × Energy) => (e.1, { e.2 with flashUj := e.2.uj, flashRnum := e.2.rnum })) } }

/-- An account after a loss of auxiliary power: it resumes from flash, and RNUM advances by 2^32, in flash as well, so that no number is used again. -/
def Energy.resumed (e : Energy) : Energy :=
  { e with uj := e.flashUj, frac := 0, rnum := e.flashRnum + 0x100000000, flashRnum := e.flashRnum + 0x100000000 }

/-- AUX_POWER_LOSS (R453): the counters of every partition number and of the house. -/
def execAuxPowerLoss (s : State) : Out :=
  .next ((List.range 65).foldl (fun s p => setAccount s p (s.account p).resumed) s)

-- Registers written (R435)

/-- SUNDO (R450): only while no partition is defined. -/
def writeSundo (s : State) (v : Word) : State := if s.parts.isEmpty then { s with head := { s.head with sundo := v.setWidth 4 } } else s

/-- SUNDO_WRITE (R450): inp.v. -/
def execSundoWrite (s : State) : Out := .next (writeSundo s s.inp.v)

/-- A write of PARTDEF[p] word k (R436). -/
def writePartdef (s : State) (p k : Nat) (v : Word) : State :=
  let d := s.partdef p
  let put (s : State) (d : PartDef) : State := { s with head := { s.head with partdefs := mset s.head.partdefs p d } }
  match k with
  | 0 => if partState s p = 0 then put s { d with w0 := v &&& 0x03FFFFFFFFFFF000 } else s
  | 1 => if partState s p = 0 then put s { d with w1 := v &&& 0xFFFFFFFFFFFFFF80 } else s
  | 2 => if partState s p = 0 then put s { d with w2 := v } else s
  | _ =>
    let d' := { d with w3 := (v &&& 0xFFFF800000000000) ||| (d.w3 &&& 0xF00) }
    let s := (put s d').modPart p (fun q => { q with dom := d'.fields.dom, master := d'.fields.master })
    (match v.toNat % 8 with
    | 1 => createPart s p
    | 2 => deletePart s p
    | _ => s)

/-- A write of FJB[k]: PVAL and PPORT are read-only (R430). The ring of a domain that spans modules has one token, that of the lowest MOD (R135); a
partition that no port joins to another any more has its own. The units of a port bound now tell each other their contributors (R431). -/
def writeFjb (s : State) (k : Nat) (v : Word) : State :=
  let old := s
  let s := s.modFj k (fun f => { f with bind := (v &&& 0x80FFFF00FFFF003F) ||| (f.bind &&& 0x0000007F00000000) })
  let s := wakeColl (announce s k) k
  let ring (p : Nat) (q : Partition) : Nat :=
    if ringLower s p && !(ringLower old p) then ringAway
    else if q.ring = ringAway ∧ (ringPort s p).isNone then ringStart s p q
    else q.ring
  { s with parts := s.parts.map (fun x => (x.1, { x.2 with ring := ring x.1 x.2 })) }

/-- A write to module space. -/
def writeModule (s : State) (o : Nat) (v : Word) : State :=
  if o % 8 ≠ 0 then s
  else if o = 0 then (if v.getLsbD 27 then s else { s with head := { s.head with trip := false } })
  else if o = 0x10 then { s with head := { s.head with budget := v.setWidth 16 } }
  else if o = 0x18 then { s with head := { s.head with energy := mset s.head.energy 64 { s.account 64 with uj := v } } }
  else if o = 0x28 then writeSundo s v
  else if 0x100 ≤ o ∧ o < 0x280 then writeFjb s ((o - 0x100) / 8) v
  else if 0x1000 ≤ o ∧ o < 0x1800 then writePartdef s ((o - 0x1000) / 32) (o % 32 / 8) v
  else if o = 0x2000 then writeKeycmd s none v
  else if 0x2020 ≤ o ∧ o < 0x2060 then writeKmat s none (o - 0x2020) v
  else if o = 0x2100 then { s with head := { s.head with attAddr := v } }
  else if 0x2108 ≤ o ∧ o < 0x2128 then
    let b := patchField s.head.nonceIn 32 (o - 0x2108) (leBytes 8 v.toNat)
    let s := { s with head := { s.head with nonceIn := b } }
    if o = 0x2120 then attest s b else s
  else if o = 0x2200 then (match v.toNat % 8 with
    | 1 => fwLoad s
    | 2 => fwCommit s
    | _ => s)
  else if o = 0x2208 then { s with head := { s.head with fwAddr := v &&& 0xFFFFFFFFFFFFF001 } }
  else if o = 0x2210 then { s with head := { s.head with fwLen := v.setWidth 32 } }
  else s

/-- A write to the window of partition p. Its counters never decrease (R453): a smaller value is ignored. -/
def writeWindow (s : State) (p o : Nat) (v : Word) : State :=
  if o % 8 ≠ 0 then s
  else if o < 0x20000 then
    (match o % 32 / 8 with
    | 0 => setQueue s p (o / 32) (fun x => if x.en then x else { x with base := v })
    | 1 => noteWaits (setQueue s p (o / 32) (writeQctl v))
    | 2 => writeHead s p (o / 32) (v.setWidth 32)
    | _ => writeTail s p (o / 32) (v.setWidth 32))
  else if o < 0x20200 then writeSpan s p ((o - 0x20000) / 8) v
  else if o = 0x20200 then writePtroot s p v
  else if o = 0x20208 then
    invalidate { s with inp := { s.inp with p := BitVec.ofNat 6 p } } (if v.getLsbD 0 then none else some (v.extractLsb' 16 41).toNat)
  else if o = 0x20210 then
    let s := { s with inp := { s.inp with p := BitVec.ofNat 6 p, flag := v.getLsbD 1, addr := (v.extractLsb' 16 41).toNat } }
    if v.getLsbD 0 then fretry s (fun s a f => f.reqs.foldl (fun s m => virtErr s a m .protection) s) else fretry s (retryPage p)
  else if o = 0x20218 then s.modWindow p (fun w => { w with wper := v.setWidth 32 })
  else if o = 0x20230 then (if v.toNat < (s.account p).uj.toNat then s else setAccount s p { s.account p with uj := v })
  else if o = 0x20238 then (if v.toNat < (s.account p).rnum.toNat then s else setAccount s p { s.account p with rnum := v })
  else if o = 0x20240 then s.modWindow p (fun w => { w with esaddr := v })
  else if o = 0x20248 then writeEsnonce s p v
  else if o = 0x20250 then writeKeycmd s (some p) v
  else if 0x20260 ≤ o ∧ o < 0x202A0 then writeKmat s (some p) (o - 0x20260) v
  else s

def writeReg (s : State) (sp : RegSpace) (o : Nat) (v : Word) : State :=
  match sp with
  | .module => writeModule s o v
  | .window p => writeWindow s p.toNat o v

/-- REGISTER_WRITE (R430, R435): a write of inp.v at offset inp.off of space inp.sp. -/
def execRegisterWrite (s : State) : Out := .next (writeReg s s.inp.sp s.inp.off.toNat s.inp.v)

-- Out-of-band management (R434)

/-- The requester of an MCTP request. -/
def MctpRequest.ep (r : MctpRequest) : MctpEp :=
  match r with
  | .control e _ => e
  | .read e _ _ => e
  | .write e _ _ _ => e
  | .attest e _ => e
  | .reading e _ _ => e
  | .writeSlot e _ _ => e

/-- A message in the baseline transmission units of 64 bytes. -/
def mctpUnits (bs : List Byte) : List (List Byte) := (List.range (max 1 ((bs.length + 63) / 64))).map (fun i => (bs.drop (64 * i)).take 64)

/-- An answer to endpoint e: a status byte (0 done, 1 busy, 2 refused), then data. -/
def mctpAnswer (s : State) (e : MctpEp) (bs : List Byte) : State :=
  { s with head := { s.head with mctpReplies := s.head.mctpReplies ++ (mctpUnits bs).map (fun u => (e, u)) } }

/-- MCTP_REQUEST (R434, R444, R448): inp.mctp. A second request of an endpoint whose answer has not left is answered busy. A vendor-defined message
needs host port 0. -/
def execMctpRequest (s : State) : Out :=
  match s.inp.mctp with
  | none => .next s
  | some r =>
    if r.ep.binding = .vdm ∧ s.portUp (hostIf 0) = false then .next s
    else if s.head.mctpReplies.any (fun x => x.1 == r.ep) then .next (mctpAnswer s r.ep [1])
    else match r with
      | .control e bs => .next (mctpAnswer s.tick e (Config.mctpControl s.free bs))
      | .read e sp o => .next (mctpAnswer s e (0 :: leBytes 8 (readReg s sp o.toNat).toNat))
      | .write e sp o v => .next (mctpAnswer (writeReg s sp o.toNat v) e [0])
      | .attest e n => .next (mctpAnswer s e (0 :: attestation s (leBytes 32 n.toNat)))
      | .reading e p n =>
        let x := energyReading s p.toNat n
        .next (mctpAnswer x.2 e (0 :: x.1))
      | .writeSlot e o bs =>
        if (s.head.fwResult = 1 ∧ s.head.fwAddr.getLsbD 0 = false) ∨ 48 < bs.length ∨ Config.slotBytes < o + bs.length then .next (mctpAnswer s e [2])
        else
          let b := idleSlot s
          .next (mctpAnswer (setIdleSlot s (patchField b (max b.length (o + bs.length)) o bs)) e [0])

-- Trips (R455)

/-- THERMAL_TRIP (R438, R455): the tile field and the shore bridges lose power; every image ends with THERMAL_TRIP, and the unsealed intervals are
lost. -/
def execThermalTrip (s : State) : Out :=
  let s : State := s.images.foldl (fun s m => endImage s m.1 6 true) s
  .next { s with
    head := { s.head with trip := true, powered := false }
    core := CTile.reset
    tiles := []
    mts := []
    net := []
    inbox := []
    waiting := []
    fabric := { s.fabric with flits := [], ifs := [] }
    recvs := s.recvs.map (fun r => (r.1, { Recv.reset with hold := if 0x10050 ≤ r.1 then r.2.hold.filter (fun h => s.sealedIn h.part h.rin) else [] }))
    parts := s.parts.map (fun (q : Nat × Partition) => (q.1, { q.2 with wave := none, cuts := [], pend := false })) }

end Sys2Proof.Machine
end

