-- ==== Sys2Proof/Machine/SystemOps.lean ====
section
/-!
DEFINITION. The system instructions that reach the schedulers and Headland (R208, R215, R217, R218): ECNT, CSWP and XFLUSH, and the steps that
complete them.
-/

namespace Sys2Proof.Machine

open Sys2Proof

/-- The program image of the focus tile's phase. -/
def imageHere (s : State) : Option Image := ((s.regionOf s.cur).map (fun g => g.img)).bind (fun n => mget s.images n)

/-- The image declares region index r. -/
def regionDeclared (s : State) (r : Nat) : Bool := ((imageHere s).map (fun m => decide (r < m.regs.length))).getD false

/-- The image declares phase index p. -/
def phaseDeclared (s : State) (p : Nat) : Bool := ((imageHere s).map (fun m => decide (p < m.phs.length))).getD false

/-- CSWP (R217): the request is made at commit step 5. -/
def execCswp (p : BitVec 2) (s : State) : Out :=
  fire (.cswp p) s (fun _ x s =>
    let c := x.l.toNat
    if x.lp then trapPoison .special
    else if c / 2 ^ 17 ≠ 0 ∨ regionDeclared s (c % 256) = false ∨ phaseDeclared s (c / 256 % 256) = false then trapNow .sysDesc
    else .done (addAct s x.slot 0 (.cswp x.l)) none)

/-- The memory tiles that XFLUSH's region index names: of that region of the image, or of the whole partition. -/
def flushScope (s : State) (r : Nat) : List Nat :=
  if r = 255 then (s.mts.filter (fun m => s.mPart m.1 == s.core.sys.part.getD 64)).map (fun m => m.1)
  else match (imageHere s).bind (fun m => m.regs[r]?) with
    | some k => (regMts s k).map (fun m => m.1)
    | none => []

/-- XFLUSH (R218): the write-backs start when it fires. -/
def execXflush (p : BitVec 2) (b : BitVec 7) (a : BitVec 7) (s : State) : Out :=
  fire (.xflush p b a) s (fun _ x s =>
    let c := x.l.toNat
    if x.lp then trapPoison .special
    else if c / 2 ^ 9 ≠ 0 ∨ (c % 256 ≠ 255 ∧ regionDeclared s (c % 256) = false) then trapNow .sysDesc
    else
      let id := s.nextId
      let s : State := (flushScope s (c % 256)).foldl (fun s t => flushTile s t (x.l.getLsbD 8)) s.fresh
      let s := addWait s x (.xflush id)
      .done { s with agenda := s.agenda ++ [⟨s.cur, .xflushDone, { Input.none with n := id }⟩] } none)

/-- A wait of one level of the focus tile that ok accepts ends: its value 0 lands. buf: what enters the store buffer with it. -/
def endWait (s : State) (hi : Bool) (ok : WaitFor → Bool) (own : Bool) (buf : Wait → List BufOp) : State :=
  let l := s.core.level hi
  match l.blk with
  | none => s
  | some b =>
    match b.waits.find? (fun w => ok w.what) with
    | none => s
    | some w =>
      match wordInfo ((b.slots[w.slot]?).getD (emptySlot 0)).word with
      | none => s
      | some x =>
        let b := { b with waits := b.waits.erase w, stores := b.stores ++ buf w }
        let anc := if own then w.anc ||| (1#32 <<< w.slot) else w.anc
        s.setLevel hi { l with blk := some (landDeliv b ⟨s.core.cyc, w.slot, x.2.t0, x.2.t1, .val 0 false, anc, none, none⟩) }

/-- The same at whichever level holds the wait. -/
def endWaits (s : State) (ok : WaitFor → Bool) (own : Bool) (buf : Wait → List BufOp) : State :=
  let s := endWait (endWait s true ok own buf) false ok own buf
  if s.core.run.isSome then takePending s else s

/-- XFLUSH_DONE (R218): every line written back by the XFLUSH with identity inp.n has been performed. -/
def execXflushDone (s : State) : Out :=
  .next (endWaits s (fun w => match w with
    | .xflush i => i == s.inp.n
    | _ => false) false (fun _ => []))

/-- ECNT (R208, R215): the reading is taken when it fires, and its number stays used. -/
def execEcnt (p : BitVec 2) (b : BitVec 7) (a : BitVec 7) (s : State) : Out :=
  fire (.ecnt p b a) s (fun _ x s =>
    match localTrap (addr32 x.l) x.lp 16 1328 0x7FBFF with
    | some t => t
    | none =>
      if x.rp then trapPoison .special
      else
        let r := energyReading s (s.core.sys.part.getD 64) x.r
        let s := addWait r.2 x (.record (addr32 x.l) r.1)
        .done { s with agenda := s.agenda ++ [⟨s.cur, .ecntRecordReady, Input.none⟩] } none)

/-- ECNT_RECORD_READY (R116, R215): the record stands in the store buffer of the block that waits for it. -/
def execEcntRecordReady (s : State) : Out :=
  .next (endWaits s (fun w => match w with
    | .record _ _ => true
    | _ => false) true (fun w => match w.what with
    | .record a bs => [⟨w.slot, none, .record a bs, w.anc, s.core.cyc⟩]
    | _ => []))

end Sys2Proof.Machine
end

