-- ==== Sys2Proof/Machine/Dispatch.lean ====
section
/-!
DEFINITION. The one meaning of each constructor of Instr.
-/

namespace Sys2Proof.Machine

open Sys2Proof

def exec (i : Instr) (s : State) : Host.Outcome State Fault Refusal :=
  match i with
  | .bro x0 x1 x2 => Sys2Proof.Machine.execBro x0 x1 x2 s
  | .brr x0 x1 => Sys2Proof.Machine.execBrr x0 x1 s
  | .callo x0 x1 x2 => Sys2Proof.Machine.execCallo x0 x1 x2 s
  | .callr x0 x1 => Sys2Proof.Machine.execCallr x0 x1 s
  | .ret x0 x1 => Sys2Proof.Machine.execRet x0 x1 s
  | .hend x0 x1 => Sys2Proof.Machine.execHend x0 x1 s
  | .trapi x0 x1 => Sys2Proof.Machine.execTrapi x0 x1 s
  | .brk x0 x1 => Sys2Proof.Machine.execBrk x0 x1 s
  | .nop x0 => Sys2Proof.Machine.execNop x0 s
  | .rstl x0 x1 => Sys2Proof.Machine.execRstl x0 x1 s
  | .mov x0 x1 x2 => Sys2Proof.Machine.execMov x0 x1 x2 s
  | .movi x0 x1 => Sys2Proof.Machine.execMovi x0 x1 s
  | .genc x0 x1 x2 => Sys2Proof.Machine.execGenc x0 x1 x2 s
  | .read x0 x1 x2 x3 => Sys2Proof.Machine.execRead x0 x1 x2 x3 s
  | .write x0 x1 => Sys2Proof.Machine.execWrite x0 x1 s
  | .mfs x0 x1 x2 => Sys2Proof.Machine.execMfs x0 x1 x2 s
  | .mts x0 x1 => Sys2Proof.Machine.execMts x0 x1 s
  | .null x0 x1 x2 => Sys2Proof.Machine.execNull x0 x1 x2 s
  | .sel x0 x1 => Sys2Proof.Machine.execSel x0 x1 s
  | .add x0 x1 x2 => Sys2Proof.Machine.execAdd x0 x1 x2 s
  | .sub x0 x1 x2 => Sys2Proof.Machine.execSub x0 x1 x2 s
  | .mul x0 x1 x2 => Sys2Proof.Machine.execMul x0 x1 x2 s
  | .mulhs x0 x1 x2 => Sys2Proof.Machine.execMulhs x0 x1 x2 s
  | .mulhu x0 x1 x2 => Sys2Proof.Machine.execMulhu x0 x1 x2 s
  | .divs x0 x1 x2 => Sys2Proof.Machine.execDivs x0 x1 x2 s
  | .divu x0 x1 x2 => Sys2Proof.Machine.execDivu x0 x1 x2 s
  | .rems x0 x1 x2 => Sys2Proof.Machine.execRems x0 x1 x2 s
  | .remu x0 x1 x2 => Sys2Proof.Machine.execRemu x0 x1 x2 s
  | .min x0 x1 x2 => Sys2Proof.Machine.execMin x0 x1 x2 s
  | .max x0 x1 x2 => Sys2Proof.Machine.execMax x0 x1 x2 s
  | .minu x0 x1 x2 => Sys2Proof.Machine.execMinu x0 x1 x2 s
  | .maxu x0 x1 x2 => Sys2Proof.Machine.execMaxu x0 x1 x2 s
  | .and x0 x1 x2 => Sys2Proof.Machine.execAnd x0 x1 x2 s
  | .or x0 x1 x2 => Sys2Proof.Machine.execOr x0 x1 x2 s
  | .xor x0 x1 x2 => Sys2Proof.Machine.execXor x0 x1 x2 s
  | .andn x0 x1 x2 => Sys2Proof.Machine.execAndn x0 x1 x2 s
  | .orn x0 x1 x2 => Sys2Proof.Machine.execOrn x0 x1 x2 s
  | .xnor x0 x1 x2 => Sys2Proof.Machine.execXnor x0 x1 x2 s
  | .shl x0 x1 x2 => Sys2Proof.Machine.execShl x0 x1 x2 s
  | .shr x0 x1 x2 => Sys2Proof.Machine.execShr x0 x1 x2 s
  | .sar x0 x1 x2 => Sys2Proof.Machine.execSar x0 x1 x2 s
  | .rol x0 x1 x2 => Sys2Proof.Machine.execRol x0 x1 x2 s
  | .ror x0 x1 x2 => Sys2Proof.Machine.execRor x0 x1 x2 s
  | .abs x0 x1 x2 => Sys2Proof.Machine.execAbs x0 x1 x2 s
  | .clz x0 x1 x2 => Sys2Proof.Machine.execClz x0 x1 x2 s
  | .ctz x0 x1 x2 => Sys2Proof.Machine.execCtz x0 x1 x2 s
  | .popc x0 x1 x2 => Sys2Proof.Machine.execPopc x0 x1 x2 s
  | .brev x0 x1 x2 => Sys2Proof.Machine.execBrev x0 x1 x2 s
  | .bswap x0 x1 x2 => Sys2Proof.Machine.execBswap x0 x1 x2 s
  | .sextB x0 x1 x2 => Sys2Proof.Machine.execSextB x0 x1 x2 s
  | .sextH x0 x1 x2 => Sys2Proof.Machine.execSextH x0 x1 x2 s
  | .sextW x0 x1 x2 => Sys2Proof.Machine.execSextW x0 x1 x2 s
  | .zextB x0 x1 x2 => Sys2Proof.Machine.execZextB x0 x1 x2 s
  | .zextH x0 x1 x2 => Sys2Proof.Machine.execZextH x0 x1 x2 s
  | .zextW x0 x1 x2 => Sys2Proof.Machine.execZextW x0 x1 x2 s
  | .addW x0 x1 x2 => Sys2Proof.Machine.execAddW x0 x1 x2 s
  | .subW x0 x1 x2 => Sys2Proof.Machine.execSubW x0 x1 x2 s
  | .mulW x0 x1 x2 => Sys2Proof.Machine.execMulW x0 x1 x2 s
  | .mulhsW x0 x1 x2 => Sys2Proof.Machine.execMulhsW x0 x1 x2 s
  | .mulhuW x0 x1 x2 => Sys2Proof.Machine.execMulhuW x0 x1 x2 s
  | .divsW x0 x1 x2 => Sys2Proof.Machine.execDivsW x0 x1 x2 s
  | .divuW x0 x1 x2 => Sys2Proof.Machine.execDivuW x0 x1 x2 s
  | .remsW x0 x1 x2 => Sys2Proof.Machine.execRemsW x0 x1 x2 s
  | .remuW x0 x1 x2 => Sys2Proof.Machine.execRemuW x0 x1 x2 s
  | .minW x0 x1 x2 => Sys2Proof.Machine.execMinW x0 x1 x2 s
  | .maxW x0 x1 x2 => Sys2Proof.Machine.execMaxW x0 x1 x2 s
  | .minuW x0 x1 x2 => Sys2Proof.Machine.execMinuW x0 x1 x2 s
  | .maxuW x0 x1 x2 => Sys2Proof.Machine.execMaxuW x0 x1 x2 s
  | .andW x0 x1 x2 => Sys2Proof.Machine.execAndW x0 x1 x2 s
  | .orW x0 x1 x2 => Sys2Proof.Machine.execOrW x0 x1 x2 s
  | .xorW x0 x1 x2 => Sys2Proof.Machine.execXorW x0 x1 x2 s
  | .andnW x0 x1 x2 => Sys2Proof.Machine.execAndnW x0 x1 x2 s
  | .ornW x0 x1 x2 => Sys2Proof.Machine.execOrnW x0 x1 x2 s
  | .xnorW x0 x1 x2 => Sys2Proof.Machine.execXnorW x0 x1 x2 s
  | .shlW x0 x1 x2 => Sys2Proof.Machine.execShlW x0 x1 x2 s
  | .shrW x0 x1 x2 => Sys2Proof.Machine.execShrW x0 x1 x2 s
  | .sarW x0 x1 x2 => Sys2Proof.Machine.execSarW x0 x1 x2 s
  | .rolW x0 x1 x2 => Sys2Proof.Machine.execRolW x0 x1 x2 s
  | .rorW x0 x1 x2 => Sys2Proof.Machine.execRorW x0 x1 x2 s
  | .absW x0 x1 x2 => Sys2Proof.Machine.execAbsW x0 x1 x2 s
  | .clzW x0 x1 x2 => Sys2Proof.Machine.execClzW x0 x1 x2 s
  | .ctzW x0 x1 x2 => Sys2Proof.Machine.execCtzW x0 x1 x2 s
  | .popcW x0 x1 x2 => Sys2Proof.Machine.execPopcW x0 x1 x2 s
  | .brevW x0 x1 x2 => Sys2Proof.Machine.execBrevW x0 x1 x2 s
  | .bswapW x0 x1 x2 => Sys2Proof.Machine.execBswapW x0 x1 x2 s
  | .addi x0 x1 x2 => Sys2Proof.Machine.execAddi x0 x1 x2 s
  | .addiW x0 x1 x2 => Sys2Proof.Machine.execAddiW x0 x1 x2 s
  | .andi x0 x1 x2 => Sys2Proof.Machine.execAndi x0 x1 x2 s
  | .ori x0 x1 x2 => Sys2Proof.Machine.execOri x0 x1 x2 s
  | .xori x0 x1 x2 => Sys2Proof.Machine.execXori x0 x1 x2 s
  | .shli x0 x1 x2 x3 => Sys2Proof.Machine.execShli x0 x1 x2 x3 s
  | .shri x0 x1 x2 x3 => Sys2Proof.Machine.execShri x0 x1 x2 x3 s
  | .sari x0 x1 x2 x3 => Sys2Proof.Machine.execSari x0 x1 x2 x3 s
  | .roli x0 x1 x2 x3 => Sys2Proof.Machine.execRoli x0 x1 x2 x3 s
  | .rori x0 x1 x2 x3 => Sys2Proof.Machine.execRori x0 x1 x2 x3 s
  | .teq x0 x1 x2 x3 => Sys2Proof.Machine.execTeq x0 x1 x2 x3 s
  | .tne x0 x1 x2 x3 => Sys2Proof.Machine.execTne x0 x1 x2 x3 s
  | .tlt x0 x1 x2 x3 => Sys2Proof.Machine.execTlt x0 x1 x2 x3 s
  | .tle x0 x1 x2 x3 => Sys2Proof.Machine.execTle x0 x1 x2 x3 s
  | .tltu x0 x1 x2 x3 => Sys2Proof.Machine.execTltu x0 x1 x2 x3 s
  | .tleu x0 x1 x2 x3 => Sys2Proof.Machine.execTleu x0 x1 x2 x3 s
  | .teqi x0 x1 x2 => Sys2Proof.Machine.execTeqi x0 x1 x2 s
  | .tnei x0 x1 x2 => Sys2Proof.Machine.execTnei x0 x1 x2 s
  | .tlti x0 x1 x2 => Sys2Proof.Machine.execTlti x0 x1 x2 s
  | .tlei x0 x1 x2 => Sys2Proof.Machine.execTlei x0 x1 x2 s
  | .tltui x0 x1 x2 => Sys2Proof.Machine.execTltui x0 x1 x2 s
  | .tleui x0 x1 x2 => Sys2Proof.Machine.execTleui x0 x1 x2 s
  | .lop3 x0 x1 x2 => Sys2Proof.Machine.execLop3 x0 x1 x2 s
  | .fshl x0 x1 x2 => Sys2Proof.Machine.execFshl x0 x1 x2 s
  | .fshr x0 x1 x2 => Sys2Proof.Machine.execFshr x0 x1 x2 s
  | .extb x0 x1 x2 x3 x4 => Sys2Proof.Machine.execExtb x0 x1 x2 x3 x4 s
  | .insb x0 x1 => Sys2Proof.Machine.execInsb x0 x1 s
  | .appc x0 x1 x2 => Sys2Proof.Machine.execAppc x0 x1 x2 s
  | .fadd x0 x1 x2 x3 => Sys2Proof.Machine.execFadd x0 x1 x2 x3 s
  | .fsub x0 x1 x2 x3 => Sys2Proof.Machine.execFsub x0 x1 x2 x3 s
  | .fmul x0 x1 x2 x3 => Sys2Proof.Machine.execFmul x0 x1 x2 x3 s
  | .fdiv x0 x1 x2 x3 => Sys2Proof.Machine.execFdiv x0 x1 x2 x3 s
  | .fsqrt x0 x1 x2 x3 => Sys2Proof.Machine.execFsqrt x0 x1 x2 x3 s
  | .fmin x0 x1 x2 => Sys2Proof.Machine.execFmin x0 x1 x2 s
  | .fmax x0 x1 x2 => Sys2Proof.Machine.execFmax x0 x1 x2 s
  | .fabs x0 x1 x2 => Sys2Proof.Machine.execFabs x0 x1 x2 s
  | .fneg x0 x1 x2 => Sys2Proof.Machine.execFneg x0 x1 x2 s
  | .fteq x0 x1 x2 => Sys2Proof.Machine.execFteq x0 x1 x2 s
  | .ftlt x0 x1 x2 => Sys2Proof.Machine.execFtlt x0 x1 x2 s
  | .ftle x0 x1 x2 => Sys2Proof.Machine.execFtle x0 x1 x2 s
  | .ftun x0 x1 x2 => Sys2Proof.Machine.execFtun x0 x1 x2 s
  | .fclass x0 x1 x2 => Sys2Proof.Machine.execFclass x0 x1 x2 s
  | .frnd x0 x1 x2 x3 => Sys2Proof.Machine.execFrnd x0 x1 x2 x3 s
  | .fexp2 x0 x1 x2 x3 => Sys2Proof.Machine.execFexp2 x0 x1 x2 x3 s
  | .flog2 x0 x1 x2 x3 => Sys2Proof.Machine.execFlog2 x0 x1 x2 x3 s
  | .ffma x0 x1 x2 => Sys2Proof.Machine.execFfma x0 x1 x2 s
  | .cvtfiW x0 x1 x2 x3 => Sys2Proof.Machine.execCvtfiW x0 x1 x2 x3 s
  | .cvtfiWU x0 x1 x2 x3 => Sys2Proof.Machine.execCvtfiWU x0 x1 x2 x3 s
  | .cvtfiD x0 x1 x2 x3 => Sys2Proof.Machine.execCvtfiD x0 x1 x2 x3 s
  | .cvtfiDU x0 x1 x2 x3 => Sys2Proof.Machine.execCvtfiDU x0 x1 x2 x3 s
  | .cvtifW x0 x1 x2 x3 => Sys2Proof.Machine.execCvtifW x0 x1 x2 x3 s
  | .cvtifWU x0 x1 x2 x3 => Sys2Proof.Machine.execCvtifWU x0 x1 x2 x3 s
  | .cvtifD x0 x1 x2 x3 => Sys2Proof.Machine.execCvtifD x0 x1 x2 x3 s
  | .cvtifDU x0 x1 x2 x3 => Sys2Proof.Machine.execCvtifDU x0 x1 x2 x3 s
  | .cvtffH x0 x1 x2 x3 => Sys2Proof.Machine.execCvtffH x0 x1 x2 x3 s
  | .cvtffBf x0 x1 x2 x3 => Sys2Proof.Machine.execCvtffBf x0 x1 x2 x3 s
  | .cvtffFH x0 x1 x2 => Sys2Proof.Machine.execCvtffFH x0 x1 x2 s
  | .cvtffFBf x0 x1 x2 => Sys2Proof.Machine.execCvtffFBf x0 x1 x2 s
  | .cvtd x0 x1 x2 x3 => Sys2Proof.Machine.execCvtd x0 x1 x2 x3 s
  | .cvtq8 x0 x1 x2 x3 x4 x5 => Sys2Proof.Machine.execCvtq8 x0 x1 x2 x3 x4 x5 s
  | .cvtq6 x0 x1 x2 x3 x4 x5 => Sys2Proof.Machine.execCvtq6 x0 x1 x2 x3 x4 x5 s
  | .cvtq4 x0 x1 x2 x3 x4 x5 => Sys2Proof.Machine.execCvtq4 x0 x1 x2 x3 x4 x5 s
  | .srseed x0 x1 x2 => Sys2Proof.Machine.execSrseed x0 x1 x2 s
  | .bscale x0 x1 x2 x3 => Sys2Proof.Machine.execBscale x0 x1 x2 x3 s
  | .qblk x0 x1 x2 x3 x4 x5 => Sys2Proof.Machine.execQblk x0 x1 x2 x3 x4 x5 s
  | .dqblk x0 x1 x2 x3 => Sys2Proof.Machine.execDqblk x0 x1 x2 x3 s
  | .lutld x0 x1 x2 x3 => Sys2Proof.Machine.execLutld x0 x1 x2 x3 s
  | .lutenc x0 x1 x2 x3 => Sys2Proof.Machine.execLutenc x0 x1 x2 x3 s
  | .ldB x0 x1 x2 x3 => Sys2Proof.Machine.execLdB x0 x1 x2 x3 s
  | .ldH x0 x1 x2 x3 => Sys2Proof.Machine.execLdH x0 x1 x2 x3 s
  | .ldW x0 x1 x2 x3 => Sys2Proof.Machine.execLdW x0 x1 x2 x3 s
  | .ldD x0 x1 x2 x3 => Sys2Proof.Machine.execLdD x0 x1 x2 x3 s
  | .ldBSx x0 x1 x2 x3 => Sys2Proof.Machine.execLdBSx x0 x1 x2 x3 s
  | .ldHSx x0 x1 x2 x3 => Sys2Proof.Machine.execLdHSx x0 x1 x2 x3 s
  | .ldWSx x0 x1 x2 x3 => Sys2Proof.Machine.execLdWSx x0 x1 x2 x3 s
  | .stB x0 x1 x2 x3 x4 => Sys2Proof.Machine.execStB x0 x1 x2 x3 x4 s
  | .stH x0 x1 x2 x3 x4 => Sys2Proof.Machine.execStH x0 x1 x2 x3 x4 s
  | .stW x0 x1 x2 x3 x4 => Sys2Proof.Machine.execStW x0 x1 x2 x3 x4 s
  | .stD x0 x1 x2 x3 x4 => Sys2Proof.Machine.execStD x0 x1 x2 x3 x4 s
  | .ldo x0 x1 x2 x3 => Sys2Proof.Machine.execLdo x0 x1 x2 x3 s
  | .sto x0 x1 x2 x3 x4 => Sys2Proof.Machine.execSto x0 x1 x2 x3 x4 s
  | .clro x0 x1 x2 x3 x4 => Sys2Proof.Machine.execClro x0 x1 x2 x3 x4 s
  | .scld x0 x1 x2 x3 => Sys2Proof.Machine.execScld x0 x1 x2 x3 s
  | .scst x0 x1 x2 x3 x4 => Sys2Proof.Machine.execScst x0 x1 x2 x3 x4 s
  | .atom x0 x1 x2 x3 x4 x5 => Sys2Proof.Machine.execAtom x0 x1 x2 x3 x4 x5 s
  | .atomn x0 x1 x2 x3 x4 x5 => Sys2Proof.Machine.execAtomn x0 x1 x2 x3 x4 x5 s
  | .cas x0 x1 x2 => Sys2Proof.Machine.execCas x0 x1 x2 s
  | .join2 x0 x1 x2 => Sys2Proof.Machine.execJoin2 x0 x1 x2 s
  | .join3 x0 x1 => Sys2Proof.Machine.execJoin3 x0 x1 s
  | .fence x0 x1 x2 => Sys2Proof.Machine.execFence x0 x1 x2 s
  | .send x0 x1 x2 x3 x4 x5 x6 => Sys2Proof.Machine.execSend x0 x1 x2 x3 x4 x5 x6 s
  | .sendr x0 x1 x2 x3 x4 x5 x6 => Sys2Proof.Machine.execSendr x0 x1 x2 x3 x4 x5 x6 s
  | .sendm x0 x1 x2 x3 x4 x5 => Sys2Proof.Machine.execSendm x0 x1 x2 x3 x4 x5 s
  | .eos x0 x1 x2 x3 x4 => Sys2Proof.Machine.execEos x0 x1 x2 x3 x4 s
  | .taga x0 x1 => Sys2Proof.Machine.execTaga x0 x1 s
  | .tagr x0 => Sys2Proof.Machine.execTagr x0 s
  | .tblk x0 x1 => Sys2Proof.Machine.execTblk x0 x1 s
  | .tunb x0 x1 => Sys2Proof.Machine.execTunb x0 x1 s
  | .bari x0 x1 x2 x3 => Sys2Proof.Machine.execBari x0 x1 x2 x3 s
  | .bara x0 x1 x2 x3 => Sys2Proof.Machine.execBara x0 x1 x2 x3 s
  | .barx x0 x1 x2 x3 => Sys2Proof.Machine.execBarx x0 x1 x2 x3 s
  | .mwin x0 x1 => Sys2Proof.Machine.execMwin x0 x1 s
  | .mwend x0 => Sys2Proof.Machine.execMwend x0 s
  | .seal x0 => Sys2Proof.Machine.execSeal x0 s
  | .sealw x0 x1 => Sys2Proof.Machine.execSealw x0 x1 s
  | .irst x0 x1 x2 x3 x4 => Sys2Proof.Machine.execIrst x0 x1 x2 x3 x4 s
  | .rld x0 x1 x2 x3 => Sys2Proof.Machine.execRld x0 x1 x2 x3 s
  | .rgo x0 x1 x2 x3 => Sys2Proof.Machine.execRgo x0 x1 x2 x3 s
  | .rstop x0 x1 x2 x3 => Sys2Proof.Machine.execRstop x0 x1 x2 x3 s
  | .rdrain x0 x1 x2 x3 x4 => Sys2Proof.Machine.execRdrain x0 x1 x2 x3 x4 s
  | .rstat x0 x1 x2 x3 x4 => Sys2Proof.Machine.execRstat x0 x1 x2 x3 x4 s
  | .mma x0 x1 x2 x3 x4 => Sys2Proof.Machine.execMma x0 x1 x2 x3 x4 s
  | .mmas x0 x1 x2 x3 x4 => Sys2Proof.Machine.execMmas x0 x1 x2 x3 x4 s
  | .mclr x0 x1 x2 x3 => Sys2Proof.Machine.execMclr x0 x1 x2 x3 s
  | .mattr x0 x1 x2 x3 x4 => Sys2Proof.Machine.execMattr x0 x1 x2 x3 x4 s
  | .mfade x0 x1 x2 x3 => Sys2Proof.Machine.execMfade x0 x1 x2 x3 s
  | .mstat x0 x1 x2 => Sys2Proof.Machine.execMstat x0 x1 x2 s
  | .lutsel x0 x1 x2 x3 => Sys2Proof.Machine.execLutsel x0 x1 x2 x3 s
  | .mlda x0 x1 x2 x3 => Sys2Proof.Machine.execMlda x0 x1 x2 x3 s
  | .mdrain x0 x1 x2 x3 x4 x5 => Sys2Proof.Machine.execMdrain x0 x1 x2 x3 x4 x5 s
  | .apdef x0 x1 x2 x3 => Sys2Proof.Machine.execApdef x0 x1 x2 x3 s
  | .strmIn x0 x1 x2 x3 => Sys2Proof.Machine.execStrmIn x0 x1 x2 x3 s
  | .strmOut x0 x1 x2 x3 => Sys2Proof.Machine.execStrmOut x0 x1 x2 x3 s
  | .sbar x0 x1 x2 x3 => Sys2Proof.Machine.execSbar x0 x1 x2 x3 s
  | .bcopy x0 x1 x2 x3 x4 => Sys2Proof.Machine.execBcopy x0 x1 x2 x3 x4 s
  | .bcopyh x0 x1 x2 x3 x4 => Sys2Proof.Machine.execBcopyh x0 x1 x2 x3 x4 s
  | .agcfg x0 x1 x2 x3 x4 => Sys2Proof.Machine.execAgcfg x0 x1 x2 x3 x4 s
  | .aggo x0 x1 x2 x3 x4 => Sys2Proof.Machine.execAggo x0 x1 x2 x3 x4 s
  | .coll x0 x1 x2 x3 => Sys2Proof.Machine.execColl x0 x1 x2 x3 s
  | .trap x0 => Sys2Proof.Machine.execTrap x0 s
  | .eres x0 x1 x2 => Sys2Proof.Machine.execEres x0 x1 x2 s
  | .ekill x0 x1 x2 => Sys2Proof.Machine.execEkill x0 x1 x2 s
  | .mfsp x0 x1 x2 => Sys2Proof.Machine.execMfsp x0 x1 x2 s
  | .mtsp x0 => Sys2Proof.Machine.execMtsp x0 s
  | .halt x0 => Sys2Proof.Machine.execHalt x0 s
  | .dbg x0 => Sys2Proof.Machine.execDbg x0 s
  | .wdog x0 => Sys2Proof.Machine.execWdog x0 s
  | .ecnt x0 x1 x2 => Sys2Proof.Machine.execEcnt x0 x1 x2 s
  | .telm x0 => Sys2Proof.Machine.execTelm x0 s
  | .cswp x0 => Sys2Proof.Machine.execCswp x0 s
  | .xflush x0 x1 x2 => Sys2Proof.Machine.execXflush x0 x1 x2 s
  | .blockFetchDone => Sys2Proof.Machine.execBlockFetchDone s
  | .fetchFrame => Sys2Proof.Machine.execFetchFrame s
  | .resultDelivery => Sys2Proof.Machine.execResultDelivery s
  | .blockCommit => Sys2Proof.Machine.execBlockCommit s
  | .commitWaitRelease => Sys2Proof.Machine.execCommitWaitRelease s
  | .blockDead => Sys2Proof.Machine.execBlockDead s
  | .mwinOverrun => Sys2Proof.Machine.execMwinOverrun s
  | .watchdog => Sys2Proof.Machine.execWatchdog s
  | .dispatchDecision => Sys2Proof.Machine.execDispatchDecision s
  | .tokenArrival => Sys2Proof.Machine.execTokenArrival s
  | .tagReturnToken => Sys2Proof.Machine.execTagReturnToken s
  | .legacyAck => Sys2Proof.Machine.execLegacyAck s
  | .creditReturn => Sys2Proof.Machine.execCreditReturn s
  | .trapCreditRequest => Sys2Proof.Machine.execTrapCreditRequest s
  | .trapTokenSend => Sys2Proof.Machine.execTrapTokenSend s
  | .trapAnswerArrival => Sys2Proof.Machine.execTrapAnswerArrival s
  | .loadReply => Sys2Proof.Machine.execLoadReply s
  | .atomicApply => Sys2Proof.Machine.execAtomicApply s
  | .atomicReply => Sys2Proof.Machine.execAtomicReply s
  | .mTileRequest => Sys2Proof.Machine.execMTileRequest s
  | .heldAccessRelease => Sys2Proof.Machine.execHeldAccessRelease s
  | .stoApply => Sys2Proof.Machine.execStoApply s
  | .clroApply => Sys2Proof.Machine.execClroApply s
  | .agcfgApply => Sys2Proof.Machine.execAgcfgApply s
  | .postCommitReport => Sys2Proof.Machine.execPostCommitReport s
  | .scRingToken => Sys2Proof.Machine.execScRingToken s
  | .scstAcknowledge => Sys2Proof.Machine.execScstAcknowledge s
  | .barrierLineComplete => Sys2Proof.Machine.execBarrierLineComplete s
  | .haltArrival => Sys2Proof.Machine.execHaltArrival s
  | .rowArrayCycle => Sys2Proof.Machine.execRowArrayCycle s
  | .rowRound => Sys2Proof.Machine.execRowRound s
  | .rowSlotCompletion => Sys2Proof.Machine.execRowSlotCompletion s
  | .rowStall => Sys2Proof.Machine.execRowStall s
  | .matrixOpBegin => Sys2Proof.Machine.execMatrixOpBegin s
  | .matrixOpEnd => Sys2Proof.Machine.execMatrixOpEnd s
  | .mmasStagingStart => Sys2Proof.Machine.execMmasStagingStart s
  | .ballastPass => Sys2Proof.Machine.execBallastPass s
  | .strmBindingEnd => Sys2Proof.Machine.execStrmBindingEnd s
  | .streamErrorReply => Sys2Proof.Machine.execStreamErrorReply s
  | .barrierObjectUpdate => Sys2Proof.Machine.execBarrierObjectUpdate s
  | .aggoDone => Sys2Proof.Machine.execAggoDone s
  | .xflushDone => Sys2Proof.Machine.execXflushDone s
  | .collTokenArrival => Sys2Proof.Machine.execCollTokenArrival s
  | .shoreRequest => Sys2Proof.Machine.execShoreRequest s
  | .virtualRequestArrival => Sys2Proof.Machine.execVirtualRequestArrival s
  | .translationWalkEnd => Sys2Proof.Machine.execTranslationWalkEnd s
  | .timeBeacon => Sys2Proof.Machine.execTimeBeacon s
  | .beaconLoss => Sys2Proof.Machine.execBeaconLoss s
  | .phaseFinish => Sys2Proof.Machine.execPhaseFinish s
  | .phaseStarvedSave => Sys2Proof.Machine.execPhaseStarvedSave s
  | .phasePick => Sys2Proof.Machine.execPhasePick s
  | .phaseConfigure => Sys2Proof.Machine.execPhaseConfigure s
  | .minqExpiry => Sys2Proof.Machine.execMinqExpiry s
  | .preemptStart => Sys2Proof.Machine.execPreemptStart s
  | .graceEnd => Sys2Proof.Machine.execGraceEnd s
  | .contextSave => Sys2Proof.Machine.execContextSave s
  | .resumption => Sys2Proof.Machine.execResumption s
  | .budgetPeriod => Sys2Proof.Machine.execBudgetPeriod s
  | .rebalancerMove => Sys2Proof.Machine.execRebalancerMove s
  | .moveAbandon => Sys2Proof.Machine.execMoveAbandon s
  | .telemetryPeriod => Sys2Proof.Machine.execTelemetryPeriod s
  | .launchSlotMap => Sys2Proof.Machine.execLaunchSlotMap s
  | .launchSlotTimeout => Sys2Proof.Machine.execLaunchSlotTimeout s
  | .periodicWaveTimer => Sys2Proof.Machine.execPeriodicWaveTimer s
  | .waveStart => Sys2Proof.Machine.execWaveStart s
  | .actorAlign => Sys2Proof.Machine.execActorAlign s
  | .tileCut => Sys2Proof.Machine.execTileCut s
  | .agentCut => Sys2Proof.Machine.execAgentCut s
  | .waveComplete => Sys2Proof.Machine.execWaveComplete s
  | .sealPoint => Sys2Proof.Machine.execSealPoint s
  | .sealed => Sys2Proof.Machine.execSealed s
  | .retagSweepEnd => Sys2Proof.Machine.execRetagSweepEnd s
  | .uncorrectable => Sys2Proof.Machine.execUncorrectable s
  | .rollback => Sys2Proof.Machine.execRollback s
  | .flitHop => Sys2Proof.Machine.execFlitHop s
  | .flitReceive => Sys2Proof.Machine.execFlitReceive s
  | .ackReceive => Sys2Proof.Machine.execAckReceive s
  | .ackTimer => Sys2Proof.Machine.execAckTimer s
  | .resendTimeout => Sys2Proof.Machine.execResendTimeout s
  | .linkDead => Sys2Proof.Machine.execLinkDead s
  | .siteDeath => Sys2Proof.Machine.execSiteDeath s
  | .flip => Sys2Proof.Machine.execFlip s
  | .flipGraceEnd => Sys2Proof.Machine.execFlipGraceEnd s
  | .connectionCreate => Sys2Proof.Machine.execConnectionCreate s
  | .fjoithFrameReceive => Sys2Proof.Machine.execFjoithFrameReceive s
  | .fjoithResendTimeout => Sys2Proof.Machine.execFjoithResendTimeout s
  | .fjoithLaneLoss => Sys2Proof.Machine.execFjoithLaneLoss s
  | .fjoithRetrainDone => Sys2Proof.Machine.execFjoithRetrainDone s
  | .fjoithRetryTimer => Sys2Proof.Machine.execFjoithRetryTimer s
  | .fjoithControlFlit => Sys2Proof.Machine.execFjoithControlFlit s
  | .mctpRequest => Sys2Proof.Machine.execMctpRequest s
  | .partdefCreate => Sys2Proof.Machine.execPartdefCreate s
  | .partdefDelete => Sys2Proof.Machine.execPartdefDelete s
  | .qtailWrite => Sys2Proof.Machine.execQtailWrite s
  | .qheadWrite => Sys2Proof.Machine.execQheadWrite s
  | .spanWrite => Sys2Proof.Machine.execSpanWrite s
  | .ptrootWrite => Sys2Proof.Machine.execPtrootWrite s
  | .invalPage => Sys2Proof.Machine.execInvalPage s
  | .invalAll => Sys2Proof.Machine.execInvalAll s
  | .fretryRetry => Sys2Proof.Machine.execFretryRetry s
  | .fretryAbort => Sys2Proof.Machine.execFretryAbort s
  | .esnonceWrite => Sys2Proof.Machine.execEsnonceWrite s
  | .attnonceWrite => Sys2Proof.Machine.execAttnonceWrite s
  | .keycmdLoad => Sys2Proof.Machine.execKeycmdLoad s
  | .keycmdGen => Sys2Proof.Machine.execKeycmdGen s
  | .keycmdZero => Sys2Proof.Machine.execKeycmdZero s
  | .fwcmdLoad => Sys2Proof.Machine.execFwcmdLoad s
  | .fwLoadDone => Sys2Proof.Machine.execFwLoadDone s
  | .fwcmdCommit => Sys2Proof.Machine.execFwcmdCommit s
  | .sundoWrite => Sys2Proof.Machine.execSundoWrite s
  | .registerWrite => Sys2Proof.Machine.execRegisterWrite s
  | .flr => Sys2Proof.Machine.execFlr s
  | .bringUp => Sys2Proof.Machine.execBringUp s
  | .thermalTrip => Sys2Proof.Machine.execThermalTrip s
  | .counterFlash => Sys2Proof.Machine.execCounterFlash s
  | .auxPowerLoss => Sys2Proof.Machine.execAuxPowerLoss s
  | .engineBeat => Sys2Proof.Machine.execEngineBeat s
  | .remoteTileRequest => Sys2Proof.Machine.execRemoteTileRequest s
  | .hostPortLinkDown => Sys2Proof.Machine.execHostPortLinkDown s
  | .hostPortLinkUp => Sys2Proof.Machine.execHostPortLinkUp s
  | .vfEnableWrite => Sys2Proof.Machine.execVfEnableWrite s
  | .hostReadCompletion => Sys2Proof.Machine.execHostReadCompletion s
  | .ecntRecordReady => Sys2Proof.Machine.execEcntRecordReady s
  | .invalidationDone => Sys2Proof.Machine.execInvalidationDone s
  | .partitionDeleteDone => Sys2Proof.Machine.execPartitionDeleteDone s

end Sys2Proof.Machine
end

