-- ==== Sys2Proof/Machine/Schedule.lean ====
section
/-!
DEFINITION. Which indivisible step comes next. The manual leaves the order of the part's steps to the device (R240, R458); the model takes
the steps that are due (the agenda) first, then a fixed natural order (notes/assumptions).
-/

namespace Sys2Proof.Machine

open Sys2Proof

/-- The step that takes a message which has arrived at an agent. -/
def arrival (a : Nat) (b : Payload) : Instr :=
  if a < 0x10000 ∧ isCTile a then
    match b with
    | .token _ _ _ => .tokenArrival
    | .trapToken _ _ => .tokenArrival
    | .segToken _ _ _ _ => .tokenArrival
    | .credit _ _ => .creditReturn
    | .borderCredit _ => .creditReturn
    | .creditTo _ => .creditReturn
    | .tret _ _ => .tagReturnToken
    | .borderTret _ _ => .tagReturnToken
    | .ack _ _ => .legacyAck
    | .trapAsk _ _ => .trapCreditRequest
    | .trapGrant => .trapTokenSend
    | .answer _ _ => .trapAnswerArrival
    | .halt _ => .haltArrival
    | .reply _ _ _ => .loadReply
    | .atomReply _ _ => .atomicReply
    | .scAck _ => .scstAcknowledge
    | .report _ _ => .postCommitReport
    | .engData (.port _ _) _ _ (some _) => .streamErrorReply
    | .engDone (.port _ _) _ (some _) => .streamErrorReply
    | .engData _ _ _ _ => .engineBeat
    | .engDone _ _ _ => .engineBeat
    | .aggoEnd _ _ _ _ => .aggoDone
    | .bobj _ _ => .barrierObjectUpdate
    | _ => .remoteTileRequest
  else if a < 0x10000 then
    match b with
    | .engData _ _ _ _ => .engineBeat
    | .engDone _ _ _ => .engineBeat
    | .trapGrant => .trapTokenSend
    | .sto _ _ => .stoApply
    | .clro _ _ => .clroApply
    | .atomic _ _ _ _ _ _ => .atomicApply
    | .agcfg _ _ _ => .agcfgApply
    | _ => .mTileRequest
  else
    match b with
    | .shoreTok _ _ => .shoreRequest
    | .collTok _ _ => .collTokenArrival
    | .hostTok _ _ => .tokenArrival
    | .token _ _ _ => .tokenArrival
    | .credit _ _ => .creditReturn
    | .borderCredit _ => .creditReturn
    | .creditTo _ => .creditReturn
    | .trapGrant => .trapTokenSend
    | _ => .virtualRequestArrival

/-- A notice in a queue that has not asked for its credit. -/
def asksNow (q : List Notice) : Bool :=
  match q with
  | [] => false
  | n :: _ => !n.asked

/-- An agent whose trap queue has an entry to send (R238). -/
def askingAgent (s : State) : Option Nat :=
  if asksNow s.core.ch.traps then some s.cur
  else match s.tiles.find? (fun x => asksNow x.2.ch.traps) with
    | some x => some x.1
    | none =>
      match s.mts.find? (fun x => asksNow x.2.notices) with
      | some x => some x.1
      | none =>
        match s.recvs.find? (fun x => asksNow x.2.notices) with
        | some x => some x.1
        | none => (s.fjs.findIdx? (fun f => asksNow f.notices)).map fjIf

/-- The tile whose cycle ends next: the one whose current cycle ends first by its own clock (R11), the lowest tile ID of several. -/
def nextTile (s : State) : Nat :=
  (s.tiles.foldl (fun (b : Nat × Nat) x =>
    let e := x.2.elapsed + x.2.period
    if e < b.1 ∨ (e = b.1 ∧ x.1 < b.2) then (e, x.1) else b) (s.core.elapsed + s.core.period, s.cur)).2

/-- Steps at an agent: a compute tile of the field comes into focus. -/
def State.begin (s : State) (agent : Nat) (inp : Input) : State :=
  let s := if inField agent && decide (agent < 0x10000) then s.focus agent else s
  { s with agent := agent, inp := inp }

/-- The step of the tile in focus, other than a firing, that is due: commit, block entry, dispatch (R64, R68, R56, R229). -/
def tileStep (s : State) : Option Instr :=
  let blk : Option Instr := match s.blk? with
    | some b =>
      if debugHeld s then none
      else if b.phase = .committing then some .blockCommit
      else if b.phase = .commitWait ∧ b.pend = none ∧ ((commitHold s b).any = false ∨ rowStuck s b) then some .commitWaitRelease else none
    | none => none
  match blk with
  | some i => some i
  | none =>
    if (s.level.fetch.any (fun f => f.left == 0 && !f.fresh)) ∧ s.core.run.isSome ∧ s.inv?.isSome ∧ s.core.sys.stopped = false then some .blockFetchDone
    else if (decisionLevel s).isSome then some .dispatchDecision
    else none

/-- The oldest virtual request at interface a that is not held back can go on (R394, R373, R438). -/
def virtGo (s : State) (a : Nat) : Bool :=
  let isV (m : Msg) : Bool := (virtReq m.body).isSome && (match m.body with
    | .shoreTok _ _ => false
    | _ => true)
  if inputBlocked s a ∨ s.portUp a = false then false
  else match (mgetD s.inbox a []).find? (fun m => isV m && !(decide (256 ≤ faultLoad (s.recv a) (reqPart m)))) with
    | none => false
    | some m => decide (0x10020 ≤ a ∧ a < 0x10050 ∧ m.src < 0x20000) || (serveVirt s a m).isSome

/-- The step that takes message m at agent a makes progress. -/
def takeable (s : State) (a : Nat) (m : Msg) : Bool :=
  match arrival a m.body with
  | .virtualRequestArrival => (virtReq m.body).isNone || virtGo s a
  | .remoteTileRequest => isTileReq m.body
  | .tokenArrival =>
    (match m.body with
    | .trapToken c _ => s.takesTraps a c
    | _ => true)
  | .trapCreditRequest =>
    (match m.body with
    | .trapAsk c _ => s.takesTraps a c
    | _ => true)
  | _ => true

/-- The next message that an agent takes. -/
def nextArrival (s : State) : Option (Nat × Msg) := s.inbox.findSome? (fun x => (x.2.find? (takeable s x.1)).map (fun m => (x.1, m)))

/-- The message can leave its interface, or ask for its connection (R415, R417). -/
def canInject (s : State) (m : Msg) : Bool :=
  match outEntry s m.src m.dst with
  | none => !(decide ((m.src, m.dst) ∈ s.fabric.setups))
  | some e => e.2.dead || decide (unacked e.2 < 32 ∧ (s.iface m.src).retry.length < retryCap m.src)

/-- Headland can create the connection that has waited longest: entries are free, or may be evicted, at both ends (R415). -/
def canConnect (s : State) : Bool :=
  match s.fabric.setups with
  | [] => false
  | x :: _ => (outEntry s x.1 x.2).isSome || ((freeIndex s x.1).isSome &&
      (match (if deadEnd s x.2 then proxyFor s x.2 else some x.2) with
      | none => true
      | some b => (freeIndex s b).isSome))

/-- An entry whose ACK is due (R417): interface and index. -/
def lateAck (s : State) : Option (Nat × Nat) := s.fabric.ifs.findSome? (fun i => (i.2.ents.find? (fun e => ackDue s e.2)).map (fun e => (i.1, e.1)))

/-- The fabric has a step to do. -/
def fabricStep (s : State) : Option Instr :=
  if canConnect s then some .connectionCreate
  else if s.fabric.flits.any (movable s) ∨ s.net.any (canInject s) then some .flitHop else none

/-- The tile that holds its partition's SC ring token, when the token has something to do (R135). -/
def ringStep (s : State) : Option Nat :=
  s.parts.findSome? (fun q =>
    if inField q.2.ring = false ∨ 0x10000 ≤ q.2.ring then none
    else
      let ops := s.allTiles.any (fun x => x.2.sys.part == some q.1 && !x.2.ch.sc.isEmpty)
      let sent := ((s.tile? q.2.ring).map (fun c => c.ch.sc.any (fun o => o.sent))).getD false
      if (ops || (ringPort s q.1).isSome) && !sent then some q.2.ring else none)

/-- A step of a wave (R395 to R402). -/
def waveStep (s : State) : Option Item :=
  let part (p : Nat) : Input := { Input.none with p := BitVec.ofNat 6 p }
  s.parts.findSome? (fun q =>
    let p := q.1
    if waveFree q.2 && sealMaster q.2 then some ⟨headIf, .waveStart, part p⟩
    else match q.2.wave with
      | none => none
      | some w =>
        if sealReady s p q.2 w then some ⟨headIf, .sealPoint, part p⟩
        else if waveDone s p q.2 w then some ⟨headIf, .waveComplete, part p⟩
        else
          let tile : Option Item := (domTiles s p).findSome? (fun x =>
            match waveAt s x.2 with
            | none => none
            | some n =>
              match (actorsOf x.2).find? (alignReady x.2 n) with
              | some a => some ⟨x.1, .actorAlign, { Input.none with n := a }⟩
              | none =>
                let moving := ((s.regionOf x.1).bind (fun g => g.move)).any (fun m => m.src == x.1 || m.dst == x.1)
                if cutReady x.2 n && !moving then some ⟨x.1, .tileCut, Input.none⟩ else none)
          match tile with
          | some i => some i
          | none => ((domMts s p).find? (fun m => !(later m.2.rin w.n) && !m.2.sweep && !w.complete)).map (fun m => ⟨m.1, .agentCut, Input.none⟩))

/-- The launch unit has a slot to free or to map, or an image to start. -/
def launchReady (s : State) : Bool :=
  s.lslots.any (fun x => x.any (slotIdle s)) || (s.lslots.any Option.isNone && (oldestWaiting s).isSome) ||
    (s.images.any (fun m => !m.2.started && mappedQ s m.2.queue) && startImages s != s)

/-- A region in LOAD can go on: its context may be restored, or its load makes progress. -/
def loadReady (s : State) (k : Nat) (g : Region) : Option Instr :=
  match mget g.saved g.phase, mget s.images g.img with
  | some v, _ => if mayResume s k g v then some .resumption else none
  | none, none => none
  | none, some m =>
    if g.st == .load && mayConfigure s k g && (match readImage s m with
      | .fault v => loadFault s m.part v != s
      | _ => true) then some .phaseConfigure else none

/-- A step of region k (R352 to R363, R375 to R384). -/
def regionStep (s : State) (k : Nat) (g : Region) : Option Instr :=
  match g.st with
  | .load => loadReady s k g
  | .run =>
    if phaseDone s k g then some .phaseFinish
    else if starved s k g then some .phaseStarvedSave
    else if g.move.any (fun m => decide (m.step < 4) && ((s.tile? m.src).map moveQuiet).getD false) then some .rebalancerMove
    else none
  | .grace => if (if g.drain then regionAtRest s k g else (regTiles s k).all (fun x => graceOver x.2)) then some .graceEnd else none
  | .save => if saveReady s k g then some .contextSave else none
  | .free => none
  | .suspended => none

/-- A step of Headland or of an interface that is ready. -/
def moduleStep (s : State) : Option Item :=
  match ringStep s with
  | some t => some ⟨t, .scRingToken, Input.none⟩
  | none =>
    match s.recvs.findSome? (fun r => (r.2.walks.findIdx? (fun w => !w.noticed)).map (fun i => (r.1, i))) with
    | some x => some ⟨x.1, .translationWalkEnd, { Input.none with n := x.2 }⟩
    | none =>
      match (waveStep s).or ((s.recvs.find? (fun r => missReady s r.1)).map (fun r => ⟨r.1, .virtualRequestArrival, Input.none⟩)) with
      | some i => some i
      | none =>
        match s.queues.find? (fun q => mayRead s q.1 q.2) with
        | some q => some (headItem .hostReadCompletion q.1)
        | none =>
          if launchReady s then some (headItem .launchSlotMap 0)
          else if (pickPhase s).isSome then some (headItem .phasePick 0)
          else s.regions.findSome? (fun g => (regionStep s g.1 g.2).map (fun i => headItem i g.1))

/-- The step that comes next when no step is due and nothing fires: of the tile in focus, an arrival, a trap queue, the fabric, the module, and
last the end of a tile cycle. -/
def quietStep (s : State) : Instr × State :=
  match tileStep s with
  | some i => (i, s.begin s.cur Input.none)
  | none =>
    match nextArrival s with
    | some x => (arrival x.1 x.2.body, s.begin x.1 Input.none)
    | none =>
      match askingAgent s with
      | some a => (.trapTokenSend, s.begin a Input.none)
      | none =>
        match fabricStep s, lateAck s with
        | some i, _ => (i, s.begin headIf Input.none)
        | none, some x => (.ackTimer, s.begin x.1 { Input.none with n := x.2 })
        | none, none =>
          match moduleStep s with
          | some i => (i.step, s.begin i.agent i.inp)
          | none => (.resultDelivery, s.begin (nextTile s) Input.none)

/-- The step that comes next, with the state in which it happens. -/
def nextStep (s : State) : Instr × State :=
  match s.agenda with
  | it :: r => (it.step, { s with agenda := r }.begin it.agent it.inp)
  | [] =>
    match pickSlot s, s.blk? with
    | some k, some b =>
      (match decode ((b.slots[k]?).getD (emptySlot 0)).word with
      | .ok i => (i, { s.begin s.cur Input.none with core := { s.core with slot := k } })
      | .error _ => quietStep s)
    | _, _ => quietStep s

end Sys2Proof.Machine
end

