-- ==== Sys2Proof/Machine/Step.lean ====
section
/-!
DEFINITION. One step of the machine: the step that comes next, run by exec; and the placing of one instruction word as the next to fire.
-/

namespace Sys2Proof.Machine

open Sys2Proof

/-- One indivisible step of the part. -/
def step (s : State) : Host.Outcome State Fault Refusal := exec (nextStep s).1 (nextStep s).2

/-- The block window that withFetchWord gives the tile in focus: the word in slot 0 with its operand buffers full, its predicate matched,
and 31 NOPs. -/
def probeBlk (s : State) (w : Word32) : Blk :=
  let third : Word := if (w.extractLsb' 22 2) = (3 : BitVec 2) then 1 else 0
  let full (v : Word) : Option Opd := some ⟨.val v false, 0⟩
  { newBlk s 0 0 (w :: List.replicate 31 0x0900007F) with
    slots := { emptySlot w with l := full 0, r := full 0, t := full third } :: List.replicate 31 (emptySlot 0x0900007F) }

/-- An invocation of actor 0 through channel 0 that holds the window. -/
def probeInv : Inv :=
  { id := 0, chan := 0, tag := 0, act := 0, ent := 0, priv := true, leg := false, desc := 0, entry := [], toks := [], sealw := false, rin := 0,
    frozen := none, aborted := false, pendTrap := none }

/-- The instruction whose word is w placed where step takes its next one: slot 0 of the block in the window of the tile in focus, with its
operands arrived. A block comes to stand there through boot, launch, PHASE_CONFIGURE and dispatch (notes/assumptions). -/
def State.withFetchWord (s : State) (_nbits w : Nat) : State :=
  let hi := s.core.run.getD false
  let l := s.core.level hi
  let inv := l.inv.getD probeInv
  let c := s.core.setLevel hi { l with inv := some { inv with frozen := none }, fetch := none, blk := some (probeBlk s (BitVec.ofNat 32 w)) }
  { s with agenda := [], core := { c with run := some hi, fired := 0, mems := 0, staging := none, sys := { c.sys with stopped := false } } }

end Sys2Proof.Machine
end

