-- ==== Sys2Proof/Safety.lean ====
section
/-!
DEFINITION. What counts as a safe run, and the terms the statements use: when an instruction of the window fires, what its firing delivers,
and what a step leaves alone.
-/

namespace Sys2Proof.Safety

open Sys2Proof Sys2Proof.Machine

/-- Memory stands in its canonical form. -/
abbrev MemOk (s : State) : Prop := memWf s.mem = true

/-- The machine goes on: it neither faults nor refuses. -/
def Goes (o : Host.Outcome State Fault Refusal) : Prop :=
  match o with
  | .next _ => True
  | .fault _ => False
  | .refused _ => False

-- Firing (R31, R60, R62, R97, R139)

/-- What must hold for the instruction in the slot in focus to be taken at all: its block is not past its commit (R65), it has not fired, its operands
have arrived, and the credit and the staging buffer it needs are free. The answer is its form and its slot. -/
def standing (i : Instr) (s : State) : Option (Info × Slot) :=
  match infoOf i, s.blk? with
  | some f, some b =>
    match b.slots[s.core.slot]? with
    | none => none
    | some sl =>
      if b.phase ≠ .committing ∧ b.trap = none ∧ sl.st = .waiting ∧ ready f sl = true ∧ creditFree s i sl = true ∧
        (needsStaging i = true → stagingFree s = true) then some (f, sl) else none
  | _, _ => none

/-- The instruction in the slot in focus fires normally in this step: no operand is null, and its predicate is not poisoned and matches. The
answer is its form and the operands it fires with. -/
def firing (i : Instr) (s : State) : Option (Info × Args) :=
  match standing i s with
  | none => none
  | some (f, sl) =>
    if hasNull f sl = false ∧ (f.pr = 0 ∨ (argsOf f s.core.slot sl).tp = false) ∧ predMatches f.pr (argsOf f s.core.slot sl).t = true then
      some (f, argsOf f s.core.slot sl)
    else none

/-- The state in which the slot in focus has fired, before the effect of its instruction. -/
def marked (s : State) (f : Info) : State := markSlot s s.core.slot .fired f

/-- Whenever i fires normally, the only effect is one token on its way to its targets, of value v and poison p (R61). -/
def Gives (i : Instr) (v : State → Args → Word) (p : State → Args → Bool) : Prop :=
  ∀ s f a, firing i s = some (f, a) →
    exec i s = .next (deliver (marked s f) s.core.slot f f.lat (.val (v s a) (p s a)) a.anc none)

/-- Of one operand, whose poison it carries (R76). -/
def Gives1 (i : Instr) (v : Word → Word) : Prop := Gives i (fun _ a => v a.l) (fun _ a => a.lp)
/-- Of two. -/
def Gives2 (i : Instr) (v : Word → Word → Word) : Prop := Gives i (fun _ a => v a.l a.r) (fun _ a => a.lp || a.rp)
/-- Of three. -/
def Gives3 (i : Instr) (v : Word → Word → Word → Word) : Prop := Gives i (fun _ a => v a.l a.r a.t) (fun _ a => a.lp || a.rp || a.tp)

/-- The same for an instruction that also marks status bits for the commit (R47, R98). -/
def GivesF (i : Instr) (v : Args → Word × Status) (p : Args → Bool) : Prop :=
  ∀ s f a, firing i s = some (f, a) →
    exec i s = .next (deliver (orFpst (marked s f) (v a).2) s.core.slot f f.lat (.val (v a).1 (p a)) a.anc none)
def GivesF1 (i : Instr) (v : Word → Word × Status) : Prop := GivesF i (fun a => v a.l) (fun a => a.lp)
def GivesF2 (i : Instr) (v : Word → Word → Word × Status) : Prop := GivesF i (fun a => v a.l a.r) (fun a => a.lp || a.rp)
def GivesF3 (i : Instr) (v : Word → Word → Word → Word × Status) : Prop := GivesF i (fun a => v a.l a.r a.t) (fun a => a.lp || a.rp || a.tp)

/-- Whenever i fires normally it completes: some value goes to its targets, with poison p of the operands, and some status is marked. -/
def Delivers (i : Instr) (p : Args → Bool) : Prop :=
  ∀ s f a, firing i s = some (f, a) →
    ∃ v st, exec i s = .next (deliver (orFpst (marked s f) st) s.core.slot f f.lat (.val v (p a)) a.anc none)
/-- The same with an FP32 pattern, zero-extended (R96). -/
def Delivers32 (i : Instr) (p : Args → Bool) : Prop :=
  ∀ s f a, firing i s = some (f, a) →
    ∃ (v : F32) (st : Status), exec i s = .next (deliver (orFpst (marked s f) st) s.core.slot f f.lat (.val (v.setWidth 64) (p a)) a.anc none)

/-- On operands of which ok holds, i delivers v of them and marks the status st. -/
def GivesOn (i : Instr) (ok : Args → Prop) (v : Args → Word) (st : Args → Status) : Prop :=
  ∀ s f a, firing i s = some (f, a) → ok a →
    ∃ p, exec i s = .next (deliver (orFpst (marked s f) (st a)) s.core.slot f f.lat (.val (v a) p) a.anc none)

/-- Whenever i fires normally and ok holds of its operands, the state becomes eff of the marked state, its form and its operands. -/
def Does (i : Instr) (ok : State → Args → Prop) (eff : State → Info → Args → State) : Prop :=
  ∀ s f a, firing i s = some (f, a) → ok s a → exec i s = .next (eff (marked s f) f a)

/-- Whenever i fires normally and ok holds of its operands, it takes a trap of cause c and use u with the given detail, at its slot. -/
def Traps (i : Instr) (ok : State → Args → Prop) (c : Cause) (u : Option Use) (detail : Args → Word) : Prop :=
  ∀ s f a, firing i s = some (f, a) → ok s a →
    exec i s = .next (takeTrap (marked s f) ⟨s.core.slot, c, u, 0, detail a, false, false⟩)

/-- Delivers the value 0 or another word, not poisoned, at the form's latency. -/
def answers (s : State) (f : Info) (a : Args) (v : Word) : State := deliver s a.slot f f.lat (.val v false) a.anc none

/-- Bits k - 1 to 0 of a number as a signed number (R53). -/
def signedField (k v : Nat) : Int := if 2 * (v % 2 ^ k) < 2 ^ k then ((v % 2 ^ k : Nat) : Int) else ((v % 2 ^ k : Nat) : Int) - 2 ^ k

-- Addresses (R120, R289)

/-- R120: the address of a load, store or IRST: the operand plus the signed offset times the size, modulo 2^64. -/
def accessAt (x : Word) (o : BitVec 10) (size : Nat) : Word := BitVec.ofInt 64 (x.toNat + o.toInt * size)
/-- A tile-store address outside the undo region, aligned to the access size. -/
abbrev inStore (a : Word) (size : Nat) : Prop := a.toNat < 0x80000 ∧ a.toNat % size = 0 ∧ ¬(0x60000 ≤ a.toNat ∧ a.toNat < 0x70000)
/-- An address in the populated part of a window, aligned to the access size. -/
abbrev inWindow (a : Word) (size : Nat) : Prop :=
  0x400000 ≤ a.toNat ∧ a.toNat < 0x1400000 ∧ a.toNat % 0x400000 < 0x300000 ∧ a.toNat % size = 0
/-- Neither a tile-store address nor one of a populated window. -/
abbrev outOfLocal (a : Word) : Prop := 0x80000 ≤ a.toNat ∧ ¬(0x400000 ≤ a.toNat ∧ a.toNat < 0x1400000 ∧ a.toNat % 0x400000 < 0x300000)
/-- No address of a populated window. -/
abbrev outOfWindow (a : Word) : Prop := ¬(0x400000 ≤ a.toNat ∧ a.toNat < 0x1400000 ∧ a.toNat % 0x400000 < 0x300000)
/-- A virtual address. -/
abbrev inVirtual (a : Word) (size : Nat) : Prop := 0x0100000000000000 ≤ a.toNat ∧ a.toNat % size = 0

/-- What every access of size bytes that reaches the classes local (the tile store and the windows, or the windows alone) traps on (R120, R123,
R124, R289), once its address a is not poisoned. store: the tile store is reached. -/
def AccessTraps (i : Instr) (ok : State → Args → Prop) (at' : Args → Word) (size : Nat) (store : Bool) : Prop :=
  Traps i (fun _ x => x.lp = true) .poisonUse (some .address) (fun _ => 0) ∧
  Traps i (fun s x => x.lp = false ∧ ok s x ∧ (if store then outOfLocal (at' x) else outOfWindow (at' x))) .addressRange none at' ∧
  Traps i (fun s x => x.lp = false ∧ ok s x ∧ ¬(if store then outOfLocal (at' x) else outOfWindow (at' x)) ∧ (at' x).toNat % size ≠ 0)
    .misaligned none at' ∧
  (store = true → Traps i (fun s x => x.lp = false ∧ ok s x ∧ 0x60000 ≤ (at' x).toNat ∧ (at' x).toNat < 0x70000 ∧ (at' x).toNat % size = 0)
    .protection none at')

/-- The value of a load's bytes (R125). -/
def loaded (sx : Bool) (size n : Nat) : Word := if sx then BitVec.ofInt 64 (signedField (8 * size) n) else BitVec.ofNat 64 n

/-- The load of size bytes at a from the focus tile's store (R125): its bytes as the block's store buffer forwards them, else as they stand in
memory, little-endian, four cycles later. -/
def loadStore (s : State) (f : Info) (x : Args) (a : Word) (size : Nat) (sx : Bool) : State :=
  let w := fwdBytes s x.anc a.toNat size
  deliver w.2 x.slot f 4 (.val (loaded sx size (leNat (fillBytes w.1 (w.2.bytes (tileKey s.cur a.toNat) size)))) false) x.anc none

/-- The load of size bytes at a through a window (R65, R66, R70, R125): the block's own stores give all its bytes, and it delivers them ten cycles
later; else the request body leaves and its reply is owed. -/
def loadWindow (s : State) (f : Info) (x : Args) (a : Word) (size : Nat) (sx : Bool) (body : Word → Payload) : State :=
  let w := fwdBytes s x.anc a.toNat size
  if w.1.all Option.isSome then deliver w.2 x.slot f 10 (.val (loaded sx size (leNat (w.1.map (fun b => b.getD 0)))) false) x.anc none
  else
    (addOwed w.2 ⟨w.2.nextId, x.slot, sx, size, none, x.anc, w.1, a, s.core.cyc + 10⟩).request (s.origin x.slot 0) a body
      (fun c => .reply 0 false (some c))

/-- A plain load of size bytes: what it does and what it traps on (R120, R124, R125). -/
def LoadsAs (i : BitVec 2 → BitVec 1 → BitVec 10 → BitVec 7 → Instr) (size : Nat) (sx : Bool) : Prop :=
  ∀ p w o a,
    Does (i p w o a) (fun s x => x.lp = false ∧ inStore (accessAt x.l o size) size ∧
        s.isBad (tileKey s.cur (accessAt x.l o size).toNat) size = none)
      (fun s f x => loadStore s f x (accessAt x.l o size) size sx) ∧
    Does (i p w o a) (fun _ x => x.lp = false ∧ inWindow (accessAt x.l o size) size) (fun s f x => loadWindow s f x (accessAt x.l o size) size sx (fun b => .load b size)) ∧
    AccessTraps (i p w o a) (fun _ _ => True) (fun x => accessAt x.l o size) size true

/-- A buffered store of size bytes: the operation enters the store buffer, memory waits for the commit, and the completion of value 0 leaves one
cycle later with the LSID (R66, R122, R127). A poisoned datum is the poison trap at a store (R124). -/
def StoresAs (i : BitVec 2 → BitVec 1 → BitVec 4 → BitVec 10 → BitVec 7 → Instr) (size : Nat) (store : Bool) (op : Word → Word → SOp) : Prop :=
  ∀ p w l o a,
    (store = true → Does (i p w l o a) (fun _ x => x.lp = false ∧ x.rp = false ∧ inStore (accessAt x.l o size) size)
      (fun s f x => bufferOp s f x l (op (accessAt x.l o size) x.r))) ∧
    Does (i p w l o a) (fun _ x => x.lp = false ∧ x.rp = false ∧ inWindow (accessAt x.l o size) size)
      (fun s f x => bufferOp s f x l (op (accessAt x.l o size) x.r)) ∧
    Traps (i p w l o a) (fun _ x => x.lp = false ∧ x.rp = true) .poisonUse (some .store) (fun _ => 0) ∧
    AccessTraps (i p w l o a) (fun _ x => x.rp = false) (fun x => accessAt x.l o size) size store

/-- An address that atomics reach (R120): of a populated window, of a remote tile or virtual, aligned to n bytes. -/
abbrev atomicAt (a : Word) (n : Nat) : Prop :=
  a.toNat % n = 0 ∧ (¬outOfWindow a ∨ a.toNat / 2 ^ 48 = 1 ∨ 2 ^ 56 ≤ a.toNat)

/-- What an atomic of n bytes traps on (R120, R124, R129), data telling whether a data operand is poisoned. -/
def AtomicTraps (i : Instr) (data : Args → Bool) (n : Nat) : Prop :=
  Traps i (fun _ x => x.lp = true) .poisonUse (some .address) (fun _ => 0) ∧
  Traps i (fun _ x => x.lp = false ∧ data x = true) .poisonUse (some .store) (fun _ => 0) ∧
  Traps i (fun _ x => x.lp = false ∧ data x = false ∧ outOfWindow x.l ∧ x.l.toNat / 2 ^ 48 ≠ 1 ∧ x.l.toNat < 2 ^ 56) .addressRange none (fun x => x.l) ∧
  Traps i (fun _ x => x.lp = false ∧ data x = false ∧ (¬outOfWindow x.l ∨ x.l.toNat / 2 ^ 48 = 1 ∨ 2 ^ 56 ≤ x.l.toNat) ∧ x.l.toNat % n ≠ 0)
    .misaligned none (fun x => x.l)

/-- A trap that carries a number in INFO (R366). -/
def TrapsInfo (i : Instr) (ok : State → Args → Prop) (c : Cause) (info : BitVec 32) : Prop :=
  ∀ s f a, firing i s = some (f, a) → ok s a → exec i s = .next (takeTrap (marked s f) ⟨s.core.slot, c, none, info, 0, false, false⟩)

/-- R140, R225, R231, R234: the lowest tag of the pool of the running entry that its actor holds neither for an invocation nor through TAGA and
that this cycle's dispatch decision does not take; none in legacy arc mode. -/
def freeTag (s : State) : Option (BitVec 8) :=
  if s.task.getLsbD 2 then none
  else ((List.range ((s.task.extractLsb' 71 4).toNat + 1)).map (fun n => BitVec.ofNat 8 ((s.task.extractLsb' 75 8).toNat + n))).find?
    (fun t => !decide ((s.act, t) ∈ s.core.ch.held ∨ (s.act, t) ∈ s.core.ch.taga ∨ dueTag s = some (s.act, t)))

-- Ranges that an instruction reads or names in the tile store (R113, R120, R189, R289)

/-- A range of n bytes at a that an instruction may read: aligned, below the frozen-block buffer and outside the undo region (R289). -/
abbrev rangeOk (a align n : Nat) : Prop := a % align = 0 ∧ a + n ≤ 0x7FC00 ∧ ¬(a < 0x70000 ∧ 0x60000 < a + n)

/-- The n words of a range of the tile store as the block reads them, its own older stores forwarded, and the state after the reading. -/
def wordsAt (s : State) (x : Args) (a n : Nat) : List Word × State :=
  (wordsOf (readEls s x.anc a 8 n).1 n, (readEls s x.anc a 8 n).2)

/-- What the reading of n bytes below top at an operand's address traps on. -/
def RangeTrapsTo (i : Instr) (at' : Args → Word) (align n top : Nat) : Prop :=
  Traps i (fun _ x => x.lp = true) .poisonUse (some .address) (fun _ => 0) ∧
  Traps i (fun _ x => x.lp = false ∧ (at' x).toNat % align ≠ 0) .misaligned none at' ∧
  Traps i (fun _ x => x.lp = false ∧ (at' x).toNat % align = 0 ∧ top < (at' x).toNat + n) .addressRange none at' ∧
  Traps i (fun _ x => x.lp = false ∧ (at' x).toNat % align = 0 ∧ (at' x).toNat + n ≤ top ∧ (at' x).toNat < 0x70000 ∧
    0x60000 < (at' x).toNat + n) .protection none at'
/-- The same below the frozen-block buffer. -/
def RangeTraps (i : Instr) (at' : Args → Word) (align n : Nat) : Prop := RangeTrapsTo i at' align n 0x7FC00

/-- An instruction that is recorded for the commit and delivers 0. -/
def queues (s : State) (f : Info) (x : Args) (a : ActKind) : State := answers (addAct s x.slot 0 a) f x 0

/-- A trap that no operand brings a detail to. -/
def TrapsPlain (i : Instr) (ok : State → Args → Prop) (c : Cause) : Prop := Traps i ok c none (fun _ => 0)

/-- A poisoned operand of a configuring instruction (R76). -/
def PoisonTraps (i : Instr) (bad : Args → Bool) (u : Use) : Prop := Traps i (fun _ x => bad x = true) .poisonUse (some u) (fun _ => 0)

/-- The trap that comes to a slot in place of its completion, lat cycles later (R166, R189). -/
def trapsLater (s : State) (x : Args) (lat : Nat) (c : Cause) (info : BitVec 32) : State :=
  deliverTrap s x.slot lat ⟨x.slot, c, none, info, 0, false, false⟩

/-- An instruction that reads an n-word descriptor (R189): it is taken when ok holds of the words, and traps in the cycle of the completion
otherwise. eff is what is recorded for the commit. -/
def DescOf (i : Instr) (n : Nat) (ok : State → Args → List Word → Prop) (bad : State → List Word → Prop) (c : Cause)
    (eff : State → Args → List Word → ActKind) : Prop :=
  (∀ s f x, firing i s = some (f, x) → x.lp = false → rangeOk (x.l.toNat % 2 ^ 32) 16 (8 * n) →
    (ok (marked s f) x (wordsAt (marked s f) x (x.l.toNat % 2 ^ 32) n).1 →
      exec i s = .next (queues (wordsAt (marked s f) x (x.l.toNat % 2 ^ 32) n).2 f x
        (eff (marked s f) x (wordsAt (marked s f) x (x.l.toNat % 2 ^ 32) n).1))) ∧
    (bad (marked s f) (wordsAt (marked s f) x (x.l.toNat % 2 ^ 32) n).1 →
      exec i s = .next (trapsLater (wordsAt (marked s f) x (x.l.toNat % 2 ^ 32) n).2 x 4 c 0))) ∧
  RangeTraps i (fun x => BitVec.ofNat 64 (x.l.toNat % 2 ^ 32)) 16 (8 * n)

-- Integer views (R87)

/-- R87: an operation f over the unsigned views a, b and the signed views of n-bit operands, reduced to n bits and zero-extended. -/
def aluView (n : Nat) (f : Int → Int → Int → Int → Int) (x y : Word) : Word :=
  let a : Int := x.toNat % 2 ^ n
  let b : Int := y.toNat % 2 ^ n
  let sg (v : Int) : Int := if 2 * v < 2 ^ n then v else v - 2 ^ n
  BitVec.ofInt 64 (f a b (sg a) (sg b) % 2 ^ n)

/-- Both widths of one operation of R88: i at 64 bits, j its .w form. -/
def AluBoth (i j : BitVec 2 → BitVec 7 → BitVec 7 → Instr) (f : Nat → Int → Int → Int → Int → Int) : Prop :=
  (∀ p b a, Gives2 (i p b a) (aluView 64 (f 64))) ∧ (∀ p b a, Gives2 (j p b a) (aluView 32 (f 32)))

/-- The same for the one-input operations. -/
def AluOne (i j : BitVec 2 → BitVec 7 → BitVec 7 → Instr) (f : Nat → Int → Int → Int) : Prop :=
  (∀ p b a, Gives1 (i p b a) (fun x => aluView 64 (fun v _ s _ => f 64 v s) x 0)) ∧
  (∀ p b a, Gives1 (j p b a) (fun x => aluView 32 (fun v _ s _ => f 32 v s) x 0))

/-- The number made of n bits. -/
def fromBits (n : Nat) (f : Nat → Bool) : Nat := ((List.range n).map (fun i => if f i then 2 ^ i else 0)).sum

/-- The width a W bit selects (R36). -/
def widthOf (w : BitVec 1) : Nat := if w = 1 then 32 else 64

-- The shifts and rotates of R88, over unsigned views a, b and the signed view x
def shiftLeft (n : Nat) (a b _ _ : Int) : Int := if (n : Int) ≤ b then 0 else a * 2 ^ b.toNat
def shiftRight (n : Nat) (a b _ _ : Int) : Int := if (n : Int) ≤ b then 0 else a / 2 ^ b.toNat
def shiftArith (n : Nat) (_ b x _ : Int) : Int := if (n : Int) ≤ b then (if x < 0 then -1 else 0) else x / 2 ^ b.toNat
def rotateLeft (n : Nat) (a b _ _ : Int) : Int := fromBits n (fun i => a.toNat.testBit ((i + (n - b.toNat % n)) % n))
def rotateRight (n : Nat) (a b _ _ : Int) : Int := fromBits n (fun i => a.toNat.testBit ((i + b.toNat % n) % n))

-- FP32 patterns (R99, R101, R102)

/-- The pattern is a NaN: exponent all ones and a nonzero fraction. -/
def nanPat (x : F32) : Bool := decide (0x7F800000 < x.toNat % 2 ^ 31)
/-- A signalling NaN: bit 22 clear. -/
def sigPat (x : F32) : Bool := nanPat x && !x.getLsbD 22
/-- An infinity, a zero, and a pattern below zero that is no NaN. -/
def infPat (x : F32) : Bool := decide (x.toNat % 2 ^ 31 = 0x7F800000)
def zeroPat (x : F32) : Bool := decide (x.toNat % 2 ^ 31 = 0)
def belowPat (x : F32) : Bool := decide (0x80000000 < x.toNat ∧ x.toNat ≤ 0xFF800000)
/-- The bit 31 that has the XOR of two signs. -/
def signs (x y : F32) : Nat := if decide (2 ^ 31 ≤ x.toNat) = decide (2 ^ 31 ≤ y.toNat) then 0 else 2 ^ 31
/-- The place of a pattern in the order of R101, in which -0 is below +0. -/
def orderKey (x : F32) : Int := if x.toNat < 2 ^ 31 then (x.toNat : Int) else -1 - ((x.toNat % 2 ^ 31 : Nat) : Int)
/-- Its place in the order of R102, in which the zeros are equal. -/
def valueKey (x : F32) : Int := if x.toNat < 2 ^ 31 then (x.toNat : Int) else -((x.toNat % 2 ^ 31 : Nat) : Int)
/-- NV when c holds, else no status. -/
def nvIf (c : Bool) : Status := if c then 1 else 0
/-- R101: the lesser operand by a key, with the NaN cases. -/
def minPat (key : F32 → Int) (x y : F32) : F32 :=
  if nanPat x && nanPat y then 0x7FC00000 else if nanPat x then y else if nanPat y then x else if key x ≤ key y then x else y
/-- R102: the class of a pattern as a bit number. -/
def classOf (x : F32) : Nat :=
  let neg := decide (2 ^ 31 ≤ x.toNat)
  let m := x.toNat % 2 ^ 31
  if 0x7F800000 < m then (if x.getLsbD 22 then 9 else 8)
  else if m = 0x7F800000 then (if neg then 0 else 7)
  else if m = 0 then (if neg then 3 else 4)
  else if m < 0x00800000 then (if neg then 2 else 5)
  else if neg then 1 else 6

-- Messages (R277, R312)

/-- m is the oldest message that has arrived at the step's agent and that ok accepts. -/
abbrev oldest (s : State) (ok : Payload → Bool) (m : Msg) : Prop := (mgetD s.inbox s.agent []).find? (fun x => ok x.body) = some m

/-- The state once message m has been taken out of the inbox of the step's agent. -/
def without (s : State) (m : Msg) : State :=
  let q := (mgetD s.inbox s.agent []).erase m
  { s with inbox := if q.isEmpty then mdel s.inbox s.agent else mset s.inbox s.agent q }

/-- Takes message m whenever it is the oldest that ok accepts and P holds of it: the next state is eff of the state without it. -/
def TakesMsg (i : Instr) (ok : Payload → Bool) (P : State → Msg → Prop) (eff : State → Msg → State) : Prop :=
  ∀ s m, oldest s ok m → P (without s m) m → exec i s = .next (eff (without s m) m)

/-- Takes message m, as TakesMsg, after this cycle's dispatch decision if that is still to be made (R229, R240). -/
def ArrivesMsg (i : Instr) (ok : Payload → Bool) (P : State → Msg → Prop) (eff : State → Msg → State) : Prop :=
  ∀ s m, oldest s ok m → P (noteArrival (without s m)) m → exec i s = .next (eff (noteArrival (without s m)) m)

def isTret (b : Payload) : Bool := match b with | .tret _ _ => true | .borderTret _ _ => true | _ => false
def isAck (b : Payload) : Bool := match b with | .ack _ _ => true | _ => false
def isCredit (b : Payload) : Bool := match b with | .credit _ _ => true | .borderCredit _ => true | .creditTo _ => true | _ => false
def isTrapAsk (b : Payload) : Bool := match b with | .trapAsk _ _ => true | _ => false
def isTrapGrant (b : Payload) : Bool := match b with | .trapGrant => true | _ => false
def isAnswer (b : Payload) : Bool := match b with | .answer _ _ => true | _ => false
def isHalt (b : Payload) : Bool := match b with | .halt _ => true | _ => false
def isReply (b : Payload) : Bool := match b with | .reply _ _ _ => true | _ => false
def isAtomReply (b : Payload) : Bool := match b with | .atomReply _ _ => true | _ => false
def isScAck (b : Payload) : Bool := match b with | .scAck _ => true | _ => false
def isReport (b : Payload) : Bool := match b with | .report _ _ => true | _ => false
def isBobj (b : Payload) : Bool := match b with | .bobj _ _ => true | _ => false
def isAggoEnd (b : Payload) : Bool := match b with | .aggoEnd _ _ _ _ => true | _ => false
def isCollTok (b : Payload) : Bool := match b with | .collTok _ _ => true | _ => false
def isShoreTok (b : Payload) : Bool := match b with | .shoreTok _ _ => true | _ => false
def isTileToken (b : Payload) : Bool := match b with | .token _ _ _ => true | .trapToken _ _ => true | .segToken _ _ _ _ => true | _ => false
def isTileCredit (b : Payload) : Bool := match b with | .credit _ _ => true | .borderCredit _ => true | _ => false
def isHostTok (b : Payload) : Bool := match b with | .hostTok _ _ => true | _ => false
def isStreamError (b : Payload) : Bool :=
  match b with
  | .engData (.port _ _) _ _ (some _) => true
  | .engDone (.port _ _) _ (some _) => true
  | _ => false

def isSto (b : Payload) : Bool := match b with | .sto _ _ => true | _ => false
def isClro (b : Payload) : Bool := match b with | .clro _ _ => true | _ => false
def isAtomic (b : Payload) : Bool := match b with | .atomic _ _ _ _ _ _ => true | _ => false
def isAgcfg (b : Payload) : Bool := match b with | .agcfg _ _ _ => true | _ => false
/-- What a reply with value v, poison p or error err brings to the slot that is owed it (R61, R66, R122, R123). -/
def replyDeliv (b : Blk) (o : Owed) (due : Nat) (v : Word) (p : Bool) (err : Option Cause) : Deliv :=
  match err with
  | some c => ⟨due, o.slot, noT, noT, .null, 0, none, some ⟨o.slot, c, none, 0, o.a, false, false⟩⟩
  | none =>
    match wordInfo ((b.slots[o.slot]?).getD (emptySlot 0)).word with
    | some x => ⟨due, o.slot, x.2.t0, x.2.t1, .val v p, o.anc ||| (if o.lsid.isSome then 1#32 <<< o.slot else 0), o.lsid, none⟩
    | none => ⟨due, o.slot, noT, noT, .null, 0, none, none⟩

/-- A reply to message m, owed to block b of level hi as o: it lands now, once the least latency o.due has passed, and waits for that cycle before
(R125, R130). pre: what the reply does beside that. -/
def Replies (i : Instr) (ok : Payload → Bool) (body : Word → Bool → Option Cause → Payload) (poison : Bool → Bool) (value : Owed → Word → Word)
    (pre : State → Nat → State) : Prop :=
  ∀ s m v p err hi b o, oldest s ok m → m.body = body v p err → owedLevel s.core m.id = some hi → (s.core.level hi).blk = some b →
    b.owed.find? (fun x => x.id == m.id) = some o →
    let rest := { b with owed := b.owed.filter (fun x => x.id != m.id) }
    let d := landDeliv rest (replyDeliv b o s.core.cyc (value o v) (poison p) err)
    let t := (pre (without s m) m.id).setLevel hi { s.core.level hi with blk := some d }
    let later := { rest with fly := b.fly ++ [replyDeliv b o o.due (value o v) (poison p) err] }
    (o.due ≤ s.core.cyc → exec i s = .next (if s.core.run = some hi then takePending t else t)) ∧
    (s.core.cyc < o.due → exec i s = .next ((pre (without s m) m.id).setLevel hi { s.core.level hi with blk := some later }))

/-- The requests that an M_TILE_REQUEST step takes: those with no step of their own. -/
def isPlainReq (b : Payload) : Bool :=
  match b with
  | .sto _ _ => false
  | .clro _ _ => false
  | .atomic _ _ _ _ _ _ => false
  | .agcfg _ _ _ => false
  | .engData _ _ _ _ => false
  | .engDone _ _ _ => false
  | .trapGrant => false
  | _ => true

/-- Request m is the oldest at the memory tile of the step and ok accepts it, nothing stands at the tile's input, no request is held there, the
requester's partition and image own the tile, and the n bytes at off are populated and lie in a segment of mode md (R290, R292, R312). -/
def reaches (s : State) (ok : Payload → Bool) (m : Msg) (md : SegMode) (off n : Nat) : Prop :=
  oldest s isMReq m ∧ ok m.body = true ∧ (s.mt s.agent).held = [] ∧ (s.mt s.agent).input = [] ∧ ownsSite (without s m) m.org s.agent = true ∧
    off + n ≤ (48 - (s.mt s.agent).units) * 65536 ∧
    ∃ k g, segOf (s.mt s.agent) off = some (k, g) ∧ g.mode = md

/-- State t holds bs at key k (given that s holds its memory in canonical form) and every other byte as s holds it. -/
def BytesAt (s t : State) (k : Nat) (bs : List Byte) : Prop :=
  (MemOk s → t.bytes k bs.length = bs) ∧ ∀ j, j < k ∨ k + bs.length ≤ j → t.byte j = s.byte j

/-- The answer to message m, of the same identity, is the last message on the net (R277, R312). -/
def Answered (s t : State) (m : Msg) (b : Payload) : Prop := t.net = s.net ++ [⟨m.id, m.dst, m.src, m.org, b⟩]

-- What a step leaves alone

/-- Both register banks and the committed specials of both levels are as before (R59, R47, R72, R79, R110). -/
def BanksKept (s t : State) : Prop :=
  ∀ hi, (t.core.level hi).regs = (s.core.level hi).regs ∧ (t.core.level hi).fpst = (s.core.level hi).fpst ∧
    (t.core.level hi).seed = (s.core.level hi).seed ∧ (t.core.level hi).link = (s.core.level hi).link ∧
    (t.core.level hi).rstl = (s.core.level hi).rstl

/-- No byte has changed, of a tile, the shore or the host. -/
def MemKept (s t : State) : Prop := ∀ k, t.byte k = s.byte k

end Sys2Proof.Safety
end

