-- ==== Sys2Proof/Certificates/Slice0/Obligations.lean ====
section
/-!
DEFINITION. The statements for the provers. Each docstring names the rules of spec/ it formalises, or the log entry of a choice it rests on.
-/

open Sys2Proof Sys2Proof.Machine Sys2Proof.Safety

-- The integer and logic instructions (chapter 3)

/-- R87 and the arithmetic rows of R88, at 64 bits and as .w forms: sums, products, quotients, remainders, minima and maxima. -/
def Obligations.IntegerArithmeticResults : Prop :=
  AluBoth .add .addW (fun _ a b _ _ => a + b) ∧
  AluBoth .sub .subW (fun _ a b _ _ => a - b) ∧
  AluBoth .mul .mulW (fun _ a b _ _ => a * b) ∧
  AluBoth .mulhs .mulhsW (fun n _ _ x y => x * y / 2 ^ n) ∧
  AluBoth .mulhu .mulhuW (fun n a b _ _ => a * b / 2 ^ n) ∧
  AluBoth .divs .divsW (fun n _ _ x y => if y = 0 then 2 ^ n - 1 else x.tdiv y) ∧
  AluBoth .divu .divuW (fun n a b _ _ => if b = 0 then 2 ^ n - 1 else a / b) ∧
  AluBoth .rems .remsW (fun _ _ _ x y => if y = 0 then x else x - y * x.tdiv y) ∧
  AluBoth .remu .remuW (fun _ a b _ _ => if b = 0 then a else a - b * (a / b)) ∧
  AluBoth .min .minW (fun _ _ _ x y => min x y) ∧
  AluBoth .max .maxW (fun _ _ _ x y => max x y) ∧
  AluBoth .minu .minuW (fun _ a b _ _ => min a b) ∧
  AluBoth .maxu .maxuW (fun _ a b _ _ => max a b)

/-- The logic, shift and rotate rows of R88, at 64 bits and as .w forms.
The one-input rows of R88: ABS, the bit counts, BREV and BSWAP at both widths, and the extensions. -/
def Obligations.LogicShiftAndUnaryResults : Prop :=
  (AluBoth .and .andW (fun n a b _ _ => fromBits n (fun i => a.toNat.testBit i && b.toNat.testBit i)) ∧
  AluBoth .or .orW (fun n a b _ _ => fromBits n (fun i => a.toNat.testBit i || b.toNat.testBit i)) ∧
  AluBoth .xor .xorW (fun n a b _ _ => fromBits n (fun i => a.toNat.testBit i != b.toNat.testBit i)) ∧
  AluBoth .andn .andnW (fun n a b _ _ => fromBits n (fun i => a.toNat.testBit i && !(b.toNat.testBit i))) ∧
  AluBoth .orn .ornW (fun n a b _ _ => fromBits n (fun i => a.toNat.testBit i || !(b.toNat.testBit i))) ∧
  AluBoth .xnor .xnorW (fun n a b _ _ => fromBits n (fun i => a.toNat.testBit i == b.toNat.testBit i)) ∧
  AluBoth .shl .shlW shiftLeft ∧
  AluBoth .shr .shrW shiftRight ∧
  AluBoth .sar .sarW shiftArith ∧
  AluBoth .rol .rolW rotateLeft ∧
  AluBoth .ror .rorW rotateRight) ∧
  (AluOne .abs .absW (fun _ _ s => if s < 0 then -s else s) ∧
  AluOne .clz .clzW (fun n v _ => ((List.range n).filter (fun i => v.toNat < 2 ^ i)).length) ∧
  AluOne .ctz .ctzW (fun n v _ => ((List.range n).filter (fun i => v.toNat % 2 ^ (i + 1) = 0)).length) ∧
  AluOne .popc .popcW (fun n v _ => ((List.range n).filter (fun i => v.toNat.testBit i)).length) ∧
  AluOne .brev .brevW (fun n v _ => fromBits n (fun i => v.toNat.testBit (n - 1 - i))) ∧
  AluOne .bswap .bswapW (fun n v _ => fromBits n (fun i => v.toNat.testBit (8 * (n / 8 - 1 - i / 8) + i % 8))) ∧
  (∀ p b a, Gives1 (.sextB p b a) (fun x => BitVec.ofInt 64 (signedField 8 x.toNat)) ∧
    Gives1 (.sextH p b a) (fun x => BitVec.ofInt 64 (signedField 16 x.toNat)) ∧
    Gives1 (.sextW p b a) (fun x => BitVec.ofInt 64 (signedField 32 x.toNat))) ∧
  (∀ p b a, Gives1 (.zextB p b a) (fun x => BitVec.ofNat 64 (x.toNat % 2 ^ 8)) ∧
    Gives1 (.zextH p b a) (fun x => BitVec.ofNat 64 (x.toNat % 2 ^ 16)) ∧
    Gives1 (.zextW p b a) (fun x => BitVec.ofNat 64 (x.toNat % 2 ^ 32))))

/-- R89: the immediate forms. A .w shift immediate of 32 or more is refused at fetch; the words say nothing of it.
R90: the tests deliver 1 when the relation holds and 0 otherwise. -/
def Obligations.ImmediateAndTestResults : Prop :=
  ((∀ p i a, Gives1 (.addi p i a) (fun x => BitVec.ofInt 64 (x.toNat + i.toInt))) ∧
  (∀ p i a, Gives1 (.addiW p i a) (fun x => BitVec.ofInt 64 (((x.toNat % 2 ^ 32 : Nat) + i.toInt) % 2 ^ 32))) ∧
  (∀ p i a, Gives1 (.andi p i a) (fun x => x &&& BitVec.ofInt 64 i.toInt) ∧ Gives1 (.ori p i a) (fun x => x ||| BitVec.ofInt 64 i.toInt) ∧
    Gives1 (.xori p i a) (fun x => x ^^^ BitVec.ofInt 64 i.toInt)) ∧
  (∀ p (w : BitVec 1) (s : BitVec 6) a, (w = 1 → s.toNat < 32) →
    Gives1 (.shli p w s a) (fun x => aluView (widthOf w) (shiftLeft (widthOf w)) x (s.setWidth 64)) ∧
    Gives1 (.shri p w s a) (fun x => aluView (widthOf w) (shiftRight (widthOf w)) x (s.setWidth 64)) ∧
    Gives1 (.sari p w s a) (fun x => aluView (widthOf w) (shiftArith (widthOf w)) x (s.setWidth 64)) ∧
    Gives1 (.roli p w s a) (fun x => aluView (widthOf w) (rotateLeft (widthOf w)) x (s.setWidth 64)) ∧
    Gives1 (.rori p w s a) (fun x => aluView (widthOf w) (rotateRight (widthOf w)) x (s.setWidth 64)))) ∧
  ((∀ p w b a,
    Gives2 (.teq p w b a) (aluView (widthOf w) (fun x y _ _ => if x = y then 1 else 0)) ∧
    Gives2 (.tne p w b a) (aluView (widthOf w) (fun x y _ _ => if x ≠ y then 1 else 0)) ∧
    Gives2 (.tlt p w b a) (aluView (widthOf w) (fun _ _ x y => if x < y then 1 else 0)) ∧
    Gives2 (.tle p w b a) (aluView (widthOf w) (fun _ _ x y => if x ≤ y then 1 else 0)) ∧
    Gives2 (.tltu p w b a) (aluView (widthOf w) (fun x y _ _ => if x < y then 1 else 0)) ∧
    Gives2 (.tleu p w b a) (aluView (widthOf w) (fun x y _ _ => if x ≤ y then 1 else 0))) ∧
  (∀ p (i : BitVec 15) a,
    Gives1 (.teqi p i a) (fun x => if x.toInt = i.toInt then 1 else 0) ∧
    Gives1 (.tnei p i a) (fun x => if x.toInt ≠ i.toInt then 1 else 0) ∧
    Gives1 (.tlti p i a) (fun x => if x.toInt < i.toInt then 1 else 0) ∧
    Gives1 (.tlei p i a) (fun x => if x.toInt ≤ i.toInt then 1 else 0) ∧
    Gives1 (.tltui p i a) (fun x => if x.toNat < (BitVec.ofInt 64 i.toInt).toNat then 1 else 0) ∧
    Gives1 (.tleui p i a) (fun x => if x.toNat ≤ (BitVec.ofInt 64 i.toInt).toNat then 1 else 0)))

/-- R91 to R94: LOP3 by its truth table, the funnel shifts over the concatenated operands, EXTB for a field that lies in the word, and INSB.
R82 to R85 and R133: the copies and constants, SEL, READ, MFS and the joins; MOVI, GENC, NULL and MFS never deliver poison (R76).
R46, R85: what the special registers of the running level read as. -/
def Obligations.FieldMoveAndSpecialResults : Prop :=
  (((∀ t b a, Gives3 (.lop3 t b a) (fun x y z => BitVec.ofNat 64 (fromBits 64 (fun i =>
    t.toNat.testBit (4 * (x.getLsbD i).toNat + 2 * (y.getLsbD i).toNat + (z.getLsbD i).toNat))))) ∧
  (∀ w b a, Gives3 (.fshl w b a) (fun x y z =>
    let n := widthOf w
    BitVec.ofNat 64 ((x.toNat % 2 ^ n * 2 ^ n + y.toNat % 2 ^ n) * 2 ^ (z.toNat % n) / 2 ^ n % 2 ^ n))) ∧
  (∀ w b a, Gives3 (.fshr w b a) (fun x y z =>
    let n := widthOf w
    BitVec.ofNat 64 ((x.toNat % 2 ^ n * 2 ^ n + y.toNat % 2 ^ n) / 2 ^ (z.toNat % n) % 2 ^ n))) ∧
  (∀ p (sx : BitVec 1) (w o : BitVec 6) a, o.toNat + (w.toNat + 1) ≤ 64 → Gives1 (.extb p sx w o a) (fun x =>
    let k := w.toNat + 1
    if sx = 1 then BitVec.ofInt 64 (signedField k (x.toNat / 2 ^ o.toNat)) else BitVec.ofNat 64 (x.toNat / 2 ^ o.toNat % 2 ^ k))) ∧
  (∀ b a, Gives3 (.insb b a) (fun x y c =>
    let p := c.toNat % 2 ^ 6
    let w := c.toNat / 2 ^ 8 % 2 ^ 6 + 1
    let mask := (2 ^ w - 1) * 2 ^ p % 2 ^ 64
    BitVec.ofNat 64 (fromBits 64 (fun i => if mask.testBit i then (y.toNat * 2 ^ p % 2 ^ 64).testBit i else x.toNat.testBit i))))) ∧
  ((∀ p b a, Gives1 (.mov p b a) (fun x => x)) ∧
  (∀ i a, Gives (.movi i a) (fun _ _ => BitVec.ofInt 64 i.toInt) (fun _ _ => false)) ∧
  (∀ p i a, Gives (.genc p i a) (fun _ _ => BitVec.ofInt 64 i.toInt) (fun _ _ => false)) ∧
  (∀ p i a, Gives1 (.appc p i a) (fun x => BitVec.ofNat 64 (x.toNat * 2 ^ 14 + i.toNat))) ∧
  (∀ p b a s f x, firing (.null p b a) s = some (f, x) → exec (.null p b a) s = .next (deliver (marked s f) s.core.slot f f.lat .null x.anc none)) ∧
  (∀ b a, Gives (.sel b a) (fun _ x => if x.t ≠ 0 then x.l else x.r) (fun _ x => (if x.t ≠ 0 then x.lp else x.rp) || x.tp)) ∧
  (∀ p r b a, Gives (.read p r b a) (fun s _ => (s.level.regs.getD r.toNat ⟨0, false⟩).v) (fun s _ => (s.level.regs.getD r.toNat ⟨0, false⟩).p)) ∧
  (∀ p n a, Gives (.mfs p n a) (fun s _ => specialRead s n) (fun _ _ => false)) ∧
  (∀ p b a, Gives (.join2 p b a) (fun _ x => x.l) (fun _ x => x.lp)) ∧
  (∀ b a, Gives (.join3 b a) (fun _ x => x.l) (fun _ x => x.lp)))) ∧
  (∀ s : State,
    specialRead s 0x00 = BitVec.ofNat 64 s.core.cyc ∧ specialRead s 0x01 = BitVec.ofNat 64 s.cur ∧
    specialRead s 0x04 = (if s.core.run = some true then 1 else 0) ∧
    (∀ i, s.inv? = some i → specialRead s 0x02 = i.chan.setWidth 64 ∧ specialRead s 0x03 = i.tag.setWidth 64 ∧ specialRead s 0x05 = i.rin.setWidth 64) ∧
    specialRead s 0x06 = s.core.sys.rver.setWidth 64 ∧ specialRead s 0x07 = s.core.sys.fduty.setWidth 64 ∧ specialRead s 0x08 = s.core.sys.disc ∧
    specialRead s 0x09 = s.level.seed.setWidth 64 ∧ specialRead s 0x0A = s.level.fpst.setWidth 64 ∧
    specialRead s 0x0B = s.level.link.setWidth 64 ∧ specialRead s 0x0C = s.level.rstl.setWidth 64 ∧
    specialRead s 0x0E = s.core.sys.region.setWidth 64 ∧ specialRead s 0x0F = BitVec.ofNat 64 (s.core.time s.time))

-- The floating-point, conversion and quantisation instructions (chapter 4)

/-- R96, R100, R103: the arithmetic instructions read FP32 operands from bits 31:0, deliver their zero-extended result with the operands'
poison, and mark its status for the commit. The values are those of Machine/Numfmt.lean, computed exactly and rounded once (R98).
R99, R100: FABS and FNEG clear and invert bit 31 of every pattern and mark no status.
Where a clause rests on the model's own choice, that is log entry 39. -/
def Obligations.FloatArithmeticAndSignResults : Prop :=
  ((∀ p m b a,
    GivesF2 (.fadd p m b a) (on2 (fAdd m)) ∧ GivesF2 (.fsub p m b a) (on2 (fSub m)) ∧ GivesF2 (.fmul p m b a) (on2 (fMul m)) ∧
    GivesF2 (.fdiv p m b a) (on2 (fDiv m)) ∧ GivesF1 (.fsqrt p m b a) (on1 (fSqrt m)) ∧ GivesF1 (.frnd p m b a) (on1 (fRnd m)) ∧
    GivesF1 (.fexp2 p m b a) (on1 (fExp2 m)) ∧ GivesF1 (.flog2 p m b a) (on1 (fLog2 m))) ∧
  (∀ m b a, GivesF3 (.ffma m b a) (on3 (fFma m)))) ∧
  (∀ p b a,
    GivesF1 (.fabs p b a) (fun x => (BitVec.ofNat 64 (x.toNat % 2 ^ 31), 0)) ∧
    GivesF1 (.fneg p b a) (fun x => (BitVec.ofNat 64 ((x.toNat + 2 ^ 31) % 2 ^ 32), 0)))

/-- R101: FMIN and FMAX, fn 0x05 and 0x06 with rounding mode 000, deliver the lesser or greater operand in the order in which -0 is below +0, the other
operand of a single NaN, and qnan for two; a signalling NaN sets NV. -/
def Obligations.FloatMinMaxResults : Prop :=
  ∀ p b a,
    GivesF2 (.fmin p b a) (on2 (fun x y => (minPat orderKey x y, nvIf (sigPat x || sigPat y)))) ∧
    GivesF2 (.fmax p b a) (on2 (fun x y => (minPat (fun z => -orderKey z) x y, nvIf (sigPat x || sigPat y)))) ∧
    encodeNat (.fmin p b a) = some (0x30000000 + p.toNat * 2 ^ 22 + 0x05 * 2 ^ 14 + b.toNat * 2 ^ 7 + a.toNat) ∧
    encodeNat (.fmax p b a) = some (0x30000000 + p.toNat * 2 ^ 22 + 0x06 * 2 ^ 14 + b.toNat * 2 ^ 7 + a.toNat)

/-- R102: the four tests deliver 1 or 0 in the order in which the zeros are equal, with NV as the table gives it, and FCLASS delivers exactly one bit and
sets no status. -/
def Obligations.FloatTestAndClassResults : Prop :=
  ∀ p b a,
    GivesF2 (.fteq p b a) (on2 (fun x y => (if nanPat x || nanPat y then 0 else if valueKey x = valueKey y then 1 else 0, nvIf (sigPat x || sigPat y)))) ∧
    GivesF2 (.ftlt p b a) (on2 (fun x y => (if nanPat x || nanPat y then 0 else if valueKey x < valueKey y then 1 else 0, nvIf (nanPat x || nanPat y)))) ∧
    GivesF2 (.ftle p b a) (on2 (fun x y => (if nanPat x || nanPat y then 0 else if valueKey x ≤ valueKey y then 1 else 0, nvIf (nanPat x || nanPat y)))) ∧
    GivesF2 (.ftun p b a) (on2 (fun x y => (if nanPat x || nanPat y then 1 else 0, nvIf (sigPat x || sigPat y)))) ∧
    GivesF1 (.fclass p b a) (fun x => (BitVec.ofNat 64 (2 ^ classOf (x.setWidth 32)), 0))

/-- R104 to R107: the conversions between FP32, integers and the 16-bit formats, and CVTD, which marks no status.
R109, R110, R112, R118: CVTQ with the draw that its slot gives it in stochastic mode, BSCALE and LUTENC.
R113 to R117: on addresses that raise no trap, QBLK and DQBLK take the staging buffer, put their bytes into the store buffer to be written at
the commit, and deliver their completion; LUTLD records the table for the commit.
Where a clause rests on the model's own choice, that is log entries 9, 36, 130, 131. -/
def Obligations.ConversionAndQuantisationResults : Prop :=
  ((∀ p m b a,
    GivesF1 (.cvtfiW p m b a) (onFI 32 (-2 ^ 31) (2 ^ 31 - 1) m) ∧ GivesF1 (.cvtfiWU p m b a) (onFI 32 0 (2 ^ 32 - 1) m) ∧
    GivesF1 (.cvtfiD p m b a) (onFI 64 (-2 ^ 63) (2 ^ 63 - 1) m) ∧ GivesF1 (.cvtfiDU p m b a) (onFI 64 0 (2 ^ 64 - 1) m) ∧
    GivesF1 (.cvtifW p m b a) (fun x => onIF (signedField 32 x.toNat) m) ∧ GivesF1 (.cvtifWU p m b a) (fun x => onIF ((x.toNat % 2 ^ 32 : Nat) : Int) m) ∧
    GivesF1 (.cvtifD p m b a) (fun x => onIF x.toInt m) ∧ GivesF1 (.cvtifDU p m b a) (fun x => onIF (x.toNat : Int) m) ∧
    GivesF1 (.cvtffH p m b a) (onFF fp16 m) ∧ GivesF1 (.cvtffBf p m b a) (onFF bf16 m)) ∧
  (∀ p b a, GivesF1 (.cvtffFH p b a) (onWiden fp16) ∧ GivesF1 (.cvtffFBf p b a) (onWiden bf16)) ∧
  (∀ p f b a, Gives (.cvtd p f b a) (fun s x => word32 (widen (elemVal f.toNat x.l.toNat (s.table (x.l.toNat / 256 % 4))))) (fun _ x => x.lp))) ∧
  ((∀ p m d t b a s f x,
    let q (c : Nat) := quant (f32Of x.l) (x.r.toNat % 256) c d.toNat m (if d = 2 then drawBits (draw16Next (drawState (marked s f) x.slot)) else 0)
    let out (q : Nat × Status) := deliver (orFpst (marked s f) q.2) s.core.slot f f.lat (.val (BitVec.ofNat 64 q.1) (x.lp || x.rp)) x.anc none
    (firing (.cvtq8 p m d t b a) s = some (f, x) →
      exec (.cvtq8 p m d t b a) s = .next (out (q (if t = 0 then 3 else if t = 1 then 4 else if t = 2 then 8 else 9)))) ∧
    (firing (.cvtq6 p m d t b a) s = some (f, x) → exec (.cvtq6 p m d t b a) s = .next (out (q (if t = 0 then 5 else 6)))) ∧
    (firing (.cvtq4 p m d t b a) s = some (f, x) → exec (.cvtq4 p m d t b a) s = .next (out (q (if t = 0 then 7 else 0xA))))) ∧
  (∀ p f b a, GivesF1 (.bscale p f b a) (fun x => (BitVec.ofNat 64 (bscale f.toNat (f32Of x)).1, (bscale f.toNat (f32Of x)).2))) ∧
  (∀ p t b a s f x, firing (.lutenc p t b a) s = some (f, x) →
    let r := lutEnc (s.table t.toNat) (f32Of x.l)
    exec (.lutenc p t b a) s = .next (deliver (orFpst (marked s f) r.2) s.core.slot f f.lat (.val (BitVec.ofNat 64 r.1) x.lp) x.anc none))) ∧
  ((∀ p t d m b a, Does (.qblk p t d m b a) (fun _ x => (blkTrap x (addr32 x.l) (addr32 x.r) (codeBytes (fmtWidth t) + 1)).isNone)
    (fun s f x =>
      let r := readEls s x.anc (addr32 x.l).toNat 4 32
      let q := qblkCodes t.toNat d.toNat (rm2 m) (words32 r.1 32) (if d = 2 then drawList (drawState s x.slot) 32 else [])
      stageOut r.2 f x (addr32 x.r) (leBytes (codeBytes (fmtWidth t)) (packCodes (fmtWidth t) q.1) ++ [BitVec.ofNat 8 q.2.1]) q.2.2)) ∧
  (∀ p t b a, Does (.dqblk p t b a) (fun _ x => (blkTrap x (addr32 x.r) (addr32 x.l) (codeBytes (fmtWidth t) + 1)).isNone)
    (fun s f x =>
      let w := fmtWidth t
      let r := readEls s x.anc (addr32 x.l).toNat 1 (codeBytes w + 1)
      let sc := ((r.1[codeBytes w]?).getD 0).toNat
      let vs := (unpackCodes w 32 (leNat (r.1.take (codeBytes w)))).map (fun c => scaled (elemVal t.toNat c []) sc)
      stageOut r.2 f x (addr32 x.r) ((vs.map (fun v => leBytes 4 v.1.toNat)).flatten) (vs.foldl (fun st v => st ||| v.2) 0))) ∧
  (∀ p t b a, Does (.lutld p t b a) (fun _ x => (localTrap (addr32 x.l) x.lp 16 1024 0x7FBFF).isNone)
    (fun s f x =>
      let r := readEls s x.anc (addr32 x.l).toNat 4 256
      answers (addAct (takeStaging r.2 17) x.slot (s.core.cyc + 17) (.lutld t ((words32 r.1 256).map (fun v => v &&& 0x7FFFF)))) f x 0)))

/-- R96, R99, R100, R103 to R107, R109, R112, R118: whatever their operands, the arithmetic, the conversions and the quantisations of one element
complete, with a zero-extended result, the OR of their operands' poison and some status, on every pattern; and on the patterns that the special
cases of these rules name (NaNs, infinities, zeros, operands below zero) with the result and the status those cases give.
Where a clause rests on the model's own choice, that is log entries 9, 36. -/
def Obligations.FloatAndConversionWordsComplete : Prop :=
  let l (x : Args) : F32 := x.l.setWidth 32
  let r (x : Args) : F32 := x.r.setWidth 32
  let t (x : Args) : F32 := x.t.setWidth 32
  let two (x : Args) : Bool := x.lp || x.rp
  let qnan : Args → Word := fun _ => 0x7FC00000
  let nans (x : Args) : Status := nvIf (sigPat (l x) || sigPat (r x))
  (∀ p m b a,
    (Delivers32 (.fadd p m b a) two ∧ Delivers32 (.fsub p m b a) two ∧ Delivers32 (.fmul p m b a) two ∧ Delivers32 (.fdiv p m b a) two ∧
      Delivers32 (.fsqrt p m b a) (·.lp) ∧ Delivers32 (.frnd p m b a) (·.lp) ∧ Delivers32 (.fexp2 p m b a) (·.lp) ∧
      Delivers32 (.flog2 p m b a) (·.lp) ∧ Delivers32 (.ffma m b a) (fun x => x.lp || x.rp || x.tp) ∧
      Delivers32 (.fabs p b a) (·.lp) ∧ Delivers32 (.fneg p b a) (·.lp)) ∧
    (∀ i ∈ [Instr.fadd p m b a, .fsub p m b a, .fmul p m b a, .fdiv p m b a], GivesOn i (fun x => nanPat (l x) || nanPat (r x)) qnan nans) ∧
    (∀ i ∈ [Instr.fsqrt p m b a, .frnd p m b a, .fexp2 p m b a, .flog2 p m b a],
      GivesOn i (fun x => nanPat (l x)) qnan (fun x => nvIf (sigPat (l x)))) ∧
    GivesOn (.fadd p m b a) (fun x => infPat (l x) ∧ infPat (r x) ∧ l x ≠ r x) qnan (fun _ => 1) ∧
    GivesOn (.fadd p m b a) (fun x => infPat (l x) ∧ ¬infPat (r x) ∧ ¬nanPat (r x)) (fun x => (l x).setWidth 64) (fun _ => 0) ∧
    GivesOn (.fsub p m b a) (fun x => infPat (l x) ∧ l x = r x) qnan (fun _ => 1) ∧
    GivesOn (.fsub p m b a) (fun x => infPat (r x) ∧ ¬infPat (l x) ∧ ¬nanPat (l x)) (fun x => (r x ^^^ 0x80000000#32).setWidth 64) (fun _ => 0) ∧
    GivesOn (.fmul p m b a) (fun x => (infPat (l x) ∧ zeroPat (r x)) ∨ (zeroPat (l x) ∧ infPat (r x))) qnan (fun _ => 1) ∧
    GivesOn (.fmul p m b a) (fun x => infPat (l x) ∧ ¬zeroPat (r x) ∧ ¬nanPat (r x)) (fun x => BitVec.ofNat 64 (signs (l x) (r x) + 0x7F800000))
      (fun _ => 0) ∧
    GivesOn (.fdiv p m b a) (fun x => (zeroPat (l x) ∧ zeroPat (r x)) ∨ (infPat (l x) ∧ infPat (r x))) qnan (fun _ => 1) ∧
    GivesOn (.fdiv p m b a) (fun x => zeroPat (r x) ∧ ¬zeroPat (l x) ∧ ¬infPat (l x) ∧ ¬nanPat (l x))
      (fun x => BitVec.ofNat 64 (signs (l x) (r x) + 0x7F800000)) (fun _ => 2) ∧
    GivesOn (.fdiv p m b a) (fun x => infPat (r x) ∧ ¬infPat (l x) ∧ ¬nanPat (l x)) (fun x => BitVec.ofNat 64 (signs (l x) (r x))) (fun _ => 0) ∧
    GivesOn (.fsqrt p m b a) (fun x => belowPat (l x)) qnan (fun _ => 1) ∧
    (∀ i ∈ [Instr.fsqrt p m b a, .frnd p m b a], GivesOn i (fun x => zeroPat (l x) ∨ l x = 0x7F800000#32) (fun x => (l x).setWidth 64) (fun _ => 0)) ∧
    GivesOn (.frnd p m b a) (fun x => infPat (l x)) (fun x => (l x).setWidth 64) (fun _ => 0) ∧
    GivesOn (.fexp2 p m b a) (fun x => l x = 0xFF800000#32) (fun _ => 0) (fun _ => 0) ∧
    GivesOn (.fexp2 p m b a) (fun x => l x = 0x7F800000#32) (fun _ => 0x7F800000) (fun _ => 0) ∧
    GivesOn (.fexp2 p m b a) (fun x => zeroPat (l x)) (fun _ => 0x3F800000) (fun _ => 0) ∧
    GivesOn (.flog2 p m b a) (fun x => zeroPat (l x)) (fun _ => 0xFF800000) (fun _ => 2) ∧
    GivesOn (.flog2 p m b a) (fun x => belowPat (l x)) qnan (fun _ => 1) ∧
    GivesOn (.flog2 p m b a) (fun x => l x = 0x7F800000#32) (fun _ => 0x7F800000) (fun _ => 0) ∧
    GivesOn (.flog2 p m b a) (fun x => l x = 0x3F800000#32) (fun _ => 0) (fun _ => 0) ∧
    GivesOn (.ffma m b a) (fun x => (infPat (l x) ∧ zeroPat (r x)) ∨ (zeroPat (l x) ∧ infPat (r x))) qnan (fun _ => 1) ∧
    GivesOn (.ffma m b a) (fun x => nanPat (l x) ∨ nanPat (r x)) qnan (fun x => nvIf (sigPat (l x) || sigPat (r x) || sigPat (t x))) ∧
    GivesOn (.ffma m b a) (fun x => nanPat (t x) ∧ ¬infPat (l x) ∧ ¬nanPat (l x) ∧ ¬infPat (r x) ∧ ¬nanPat (r x)) qnan
      (fun x => nvIf (sigPat (t x))) ∧
    GivesOn (.fabs p b a) (fun _ => True) (fun x => (l x &&& 0x7FFFFFFF#32).setWidth 64) (fun _ => 0) ∧
    GivesOn (.fneg p b a) (fun _ => True) (fun x => (l x ^^^ 0x80000000#32).setWidth 64) (fun _ => 0)) ∧
  (∀ p m b a,
    (∀ i ∈ [Instr.cvtfiW p m b a, .cvtfiWU p m b a, .cvtfiD p m b a, .cvtfiDU p m b a],
      Delivers i (·.lp) ∧ GivesOn i (fun x => nanPat (l x)) (fun _ => 0) (fun _ => 1) ∧ GivesOn i (fun x => zeroPat (l x)) (fun _ => 0) (fun _ => 0)) ∧
    GivesOn (.cvtfiW p m b a) (fun x => infPat (l x)) (fun x => if (l x).msb then 0x80000000 else 0x7FFFFFFF) (fun _ => 1) ∧
    GivesOn (.cvtfiWU p m b a) (fun x => infPat (l x)) (fun x => if (l x).msb then 0 else 0xFFFFFFFF) (fun _ => 1) ∧
    GivesOn (.cvtfiD p m b a) (fun x => infPat (l x)) (fun x => if (l x).msb then 0x8000000000000000 else 0x7FFFFFFFFFFFFFFF) (fun _ => 1) ∧
    GivesOn (.cvtfiDU p m b a) (fun x => infPat (l x)) (fun x => if (l x).msb then 0 else 0xFFFFFFFFFFFFFFFF) (fun _ => 1) ∧
    (∀ i ∈ [Instr.cvtifW p m b a, .cvtifWU p m b a, .cvtifD p m b a, .cvtifDU p m b a],
      Delivers32 i (·.lp) ∧ GivesOn i (fun x => x.l = 0) (fun _ => 0) (fun _ => 0) ∧ GivesOn i (fun x => x.l = 1) (fun _ => 0x3F800000) (fun _ => 0)) ∧
    GivesOn (.cvtifW p m b a) (fun x => l x = 0xFFFFFFFF#32) (fun _ => 0xBF800000) (fun _ => 0) ∧
    GivesOn (.cvtifD p m b a) (fun x => x.l = 0xFFFFFFFFFFFFFFFF#64) (fun _ => 0xBF800000) (fun _ => 0) ∧
    Delivers (.cvtffH p m b a) (·.lp) ∧ Delivers (.cvtffBf p m b a) (·.lp) ∧
    GivesOn (.cvtffH p m b a) (fun x => nanPat (l x)) (fun _ => 0x7E00) (fun x => nvIf (sigPat (l x))) ∧
    GivesOn (.cvtffBf p m b a) (fun x => nanPat (l x)) (fun _ => 0x7FC0) (fun x => nvIf (sigPat (l x))) ∧
    GivesOn (.cvtffH p m b a) (fun x => infPat (l x)) (fun x => if (l x).msb then 0xFC00 else 0x7C00) (fun _ => 0) ∧
    GivesOn (.cvtffBf p m b a) (fun x => infPat (l x)) (fun x => if (l x).msb then 0xFF80 else 0x7F80) (fun _ => 0)) ∧
  (∀ p b a, Delivers32 (.cvtffFH p b a) (·.lp) ∧ Delivers32 (.cvtffFBf p b a) (·.lp) ∧
    GivesOn (.cvtffFH p b a) (fun x => 0x7C00 < x.l.toNat % 2 ^ 15) qnan (fun x => nvIf (!x.l.getLsbD 9)) ∧
    GivesOn (.cvtffFBf p b a) (fun x => 0x7F80 < x.l.toNat % 2 ^ 15) qnan (fun x => nvIf (!x.l.getLsbD 6)) ∧
    GivesOn (.cvtffFH p b a) (fun x => x.l.toNat % 2 ^ 16 = 0x3C00) (fun _ => 0x3F800000) (fun _ => 0) ∧
    GivesOn (.cvtffFBf p b a) (fun x => x.l.toNat % 2 ^ 16 = 0x3F80) (fun _ => 0x3F800000) (fun _ => 0)) ∧
  (∀ p f b a, Delivers32 (.cvtd p f b a) (·.lp) ∧
    (f = 3 → GivesOn (.cvtd p f b a) (fun x => x.l.toNat % 2 ^ 7 = 0x7F) qnan (fun _ => 0)) ∧
    (f = 8 → GivesOn (.cvtd p f b a) (fun x => x.l.toNat % 2 ^ 8 = 0xFF) (fun _ => 0xBF800000) (fun _ => 0)) ∧
    (f = 9 → GivesOn (.cvtd p f b a) (fun x => x.l.toNat % 2 ^ 8 = 0xFF) (fun _ => 0x437F0000) (fun _ => 0)) ∧
    (f = 10 → GivesOn (.cvtd p f b a) (fun x => x.l.toNat % 2 ^ 4 = 8) (fun _ => 0xC1000000) (fun _ => 0))) ∧
  (∀ p m d k b a,
    (∀ i ∈ [Instr.cvtq8 p m d k b a, .cvtq6 p m d k b a, .cvtq4 p m d k b a], Delivers i two) ∧
    (∀ e ∈ [(0, 0x7F), (1, 0x7E), (2, 0), (3, 0)], k = BitVec.ofNat 3 e.1 →
      GivesOn (.cvtq8 p m d k b a) (fun x => nanPat (l x) ∨ x.r.toNat % 256 = 0xFF) (fun _ => BitVec.ofNat 64 e.2) (fun _ => 1)) ∧
    (∀ i ∈ [Instr.cvtq6 p m d k b a, .cvtq4 p m d k b a],
      GivesOn i (fun x => nanPat (l x) ∨ x.r.toNat % 256 = 0xFF) (fun _ => 0) (fun _ => 1)) ∧
    (k = 1 → GivesOn (.cvtq8 p m d k b a) (fun x => infPat (l x) ∧ x.r.toNat % 256 ≠ 0xFF) (fun x => if (l x).msb then 0xFC else 0x7C)
      (fun _ => 32))) ∧
  (∀ p f b a, Delivers (.bscale p f b a) (·.lp) ∧ GivesOn (.bscale p f b a) (fun x => nanPat (l x)) (fun _ => 0xFF) (fun _ => 1) ∧
    GivesOn (.bscale p f b a) (fun x => infPat (l x)) (fun _ => 0xFE) (fun _ => 32) ∧
    GivesOn (.bscale p f b a) (fun x => zeroPat (l x)) (fun _ => 0) (fun _ => 0)) ∧
  (∀ p k b a, Delivers (.lutenc p k b a) (·.lp)) ∧
  (∀ p k d m b a s f x, firing (.qblk p k d m b a) s = some (f, x) → (blkTrap x (addr32 x.l) (addr32 x.r) (codeBytes (fmtWidth k) + 1)).isNone →
    ∃ u bs st, exec (.qblk p k d m b a) s = .next (stageOut u f x (addr32 x.r) bs st) ∧ bs.length = codeBytes (fmtWidth k) + 1 ∧ u.mem = s.mem) ∧
  (∀ p k b a s f x, firing (.dqblk p k b a) s = some (f, x) → (blkTrap x (addr32 x.r) (addr32 x.l) (codeBytes (fmtWidth k) + 1)).isNone →
    ∃ u bs st, exec (.dqblk p k b a) s = .next (stageOut u f x (addr32 x.r) bs st) ∧ bs.length = 128 ∧ u.mem = s.mem) ∧
  (∀ p k b a s f x, firing (.lutld p k b a) s = some (f, x) → (localTrap (addr32 x.l) x.lp 16 1024 0x7FBFF).isNone →
    ∃ u ws, exec (.lutld p k b a) s = .next (answers (addAct u x.slot (s.core.cyc + 17) (.lutld k ws)) f x 0) ∧ ws.length = 256 ∧ u.mem = s.mem)

-- Exits, commit effects, memory, tokens and synchronisation (chapters 3 and 5)

/-- R78, R80: on operands that raise no trap, an exit fires toward the block it names: 16 bytes times the signed offset from the block's own
address, the operand's low 32 bits, %link as committed, or the end of the invocation.
R64, R69: the first exit of a block is recorded and the first resolution of a register too; a second one traps at its slot.
R78, R81, R208: where the exits and the traps by instruction trap: a poisoned or misformed branch target, a misaligned %link, TRAPI with its
code and TRAP with its operand and that operand's poison.
R80 to R86, R111, R142, R143: the words that deliver nothing. WRITE resolves its register; RSTL, MTS, SRSEED, MWEND and SEAL are recorded
for the commit; NOP has no effect; BRK has one only when the tile's debug enable is set; MWIN opens a window at level 0 when none is open. -/
def Obligations.ControlAndSilentWords : Prop :=
  (((∀ p e o, Does (.bro p e o) (fun _ _ => True) (fun s _ x => fireExit s x.slot (.jump (BitVec.ofInt 32 (s.blkAddr.toNat + 16 * o.toInt))))) ∧
  (∀ p e o, Does (.callo p e o) (fun _ _ => True) (fun s _ x => fireExit s x.slot (.call (BitVec.ofInt 32 (s.blkAddr.toNat + 16 * o.toInt))))) ∧
  (∀ p e, Does (.brr p e) (fun _ x => x.lp = false ∧ x.l.toNat < 2 ^ 32 ∧ x.l.toNat % 16 = 0)
    (fun s _ x => fireExit s x.slot (.jump (BitVec.ofNat 32 x.l.toNat)))) ∧
  (∀ p e, Does (.callr p e) (fun _ x => x.lp = false ∧ x.l.toNat < 2 ^ 32 ∧ x.l.toNat % 16 = 0)
    (fun s _ x => fireExit s x.slot (.call (BitVec.ofNat 32 x.l.toNat)))) ∧
  (∀ p e, Does (.ret p e) (fun s _ => s.level.link.toNat % 16 = 0) (fun s _ x => fireExit s x.slot (.jump s.level.link))) ∧
  (∀ p e, Does (.hend p e) (fun _ _ => True) (fun s _ x => fireExit s x.slot .hend))) ∧
  (∀ (s : State) (b : Blk) (k : Nat), s.blk? = some b →
    (∀ e, b.exit = none → fireExit s k e = s.setBlk { b with exit := some e }) ∧
    (∀ e e', b.exit = some e' → fireExit s k e = takeTrap s ⟨k, .exitConflict, none, 0, 0, false, false⟩) ∧
    (∀ g r, (∀ w ∈ b.wregs, w.1 ≠ g) → resolveReg s k g r = s.setBlk { b with wregs := b.wregs ++ [(g, r)] }) ∧
    (∀ g r r', (g, r') ∈ b.wregs → resolveReg s k g r = takeTrap s ⟨k, .doubleResolve, none, 0, 0, false, false⟩)) ∧
  ((∀ p e, Traps (.brr p e) (fun _ x => x.lp = true) .poisonUse (some .branch) (fun _ => 0) ∧
    Traps (.brr p e) (fun _ x => x.lp = false ∧ (2 ^ 32 ≤ x.l.toNat ∨ x.l.toNat % 16 ≠ 0)) .badBranch none (fun x => x.l)) ∧
  (∀ p e, Traps (.callr p e) (fun _ x => x.lp = true) .poisonUse (some .branch) (fun _ => 0) ∧
    Traps (.callr p e) (fun _ x => x.lp = false ∧ (2 ^ 32 ≤ x.l.toNat ∨ x.l.toNat % 16 ≠ 0)) .badBranch none (fun x => x.l)) ∧
  (∀ p e s f a, firing (.ret p e) s = some (f, a) → s.level.link.toNat % 16 ≠ 0 →
    exec (.ret p e) s = .next (takeTrap (marked s f) ⟨s.core.slot, .badBranch, none, 0, BitVec.ofNat 64 s.level.link.toNat, false, false⟩)) ∧
  (∀ p c, Traps (.trapi p c) (fun _ _ => True) .userTrap none (fun _ => BitVec.ofNat 64 c.toNat)) ∧
  (∀ p s f a, firing (.trap p) s = some (f, a) →
    exec (.trap p) s = .next (takeTrap (marked s f) ⟨s.core.slot, .userTrap, none, 0, a.l, a.lp, false⟩)) ∧
  (∀ p n, Traps (.mts p n) (fun _ x => x.lp = true) .poisonUse (some .special) (fun _ => 0)))) ∧
  ((∀ p r, Does (.write p r) (fun _ _ => True) (fun s _ x => resolveReg s x.slot r (some ⟨x.l, x.lp⟩))) ∧
  (∀ p, Does (.nop p) (fun _ _ => True) (fun s _ _ => s)) ∧
  (∀ p c, Does (.brk p c) (fun s _ => s.core.sys.dbgen = false) (fun s _ _ => s) ∧
    Does (.brk p c) (fun s _ => s.core.sys.dbgen = true) (fun s _ _ => { s with core := { s.core with sys := { s.core.sys with brk := true } } })) ∧
  (∀ p o, Does (.rstl p o) (fun _ _ => True) (fun s _ x => addAct s x.slot 0 (.rstl (BitVec.ofInt 32 (s.blkAddr.toNat + 16 * o.toInt))))) ∧
  (∀ p n, Does (.mts p n) (fun _ x => x.lp = false) (fun s _ x => addAct s x.slot 0 (.mts n x.l))) ∧
  (∀ p d l, Does (.srseed p d l) (fun _ x => x.lp = false) (fun s _ x => addAct s x.slot 0 (.srseed d l (BitVec.ofNat 32 x.l.toNat)))) ∧
  (∀ p l, Does (.mwin p l) (fun s _ => s.core.run = some true ∨ s.core.mwin.isSome = true) (fun s _ _ => s) ∧
    Does (.mwin p l) (fun s _ => s.core.run = some false ∧ s.core.mwin = none)
      (fun s _ _ => { s with core := { s.core with mwin := some (s.core.cyc + l.toNat + 1) } })) ∧
  (∀ p, Does (.mwend p) (fun _ _ => True) (fun s _ x => addAct s x.slot 0 .mwend)) ∧
  (∀ p, Does (.seal p) (fun _ _ => True) (fun s _ x => addAct s x.slot 0 .seal)))

/-- R120, R123 to R125: the plain loads of each size, from the tile store and through a window, and their traps.
R126, R135: LDO through a window, and SCLD, which waits for the ring token in the tile's SC queue; and their traps.
Where a clause rests on the model's own choice, that is log entries 9, 158, 159, 162, 168. -/
def Obligations.LoadWordResults : Prop :=
  (LoadsAs .ldB 1 false ∧ LoadsAs .ldH 2 false ∧ LoadsAs .ldW 4 false ∧ LoadsAs .ldD 8 false ∧
  LoadsAs .ldBSx 1 true ∧ LoadsAs .ldHSx 2 true ∧ LoadsAs .ldWSx 4 true) ∧
  ((∀ p w o a,
    Does (.ldo p w o a) (fun _ x => x.lp = false ∧ inWindow (accessAt x.l o 8) 8)
      (fun s f x => loadWindow s f x (accessAt x.l o 8) 8 false (fun b => .ldo b)) ∧
    AccessTraps (.ldo p w o a) (fun _ _ => True) (fun x => accessAt x.l o 8) 8 false) ∧
  (∀ p w o a,
    Does (.scld p w o a) (fun _ x => x.lp = false ∧ (inStore (accessAt x.l o 8) 8 ∨ inWindow (accessAt x.l o 8) 8))
      (fun s _ x =>
        let w := fwdBytes s x.anc (accessAt x.l o 8).toNat 8
        let due := s.core.cyc + (if (accessAt x.l o 8).toNat < 0x80000 then 4 else 10)
        let t := addOwed w.2 ⟨w.2.nextId, x.slot, false, 8, none, x.anc, w.1, accessAt x.l o 8, due⟩
        { t with
          core := { t.core with ch := { t.core.ch with sc := t.core.ch.sc ++ [⟨t.nextId, s.origin x.slot 0, accessAt x.l o 8, none, false⟩] } }
          nextId := t.nextId + 1 }) ∧
    AccessTraps (.scld p w o a) (fun _ _ => True) (fun x => accessAt x.l o 8) 8 true))

/-- R127, R128, R135, R145: the stores. ST and SCST reach the tile store and the windows, STO and CLRO windows only; IRST reaches virtual
addresses once a SEALW has delivered to its invocation, and traps IRST_ORDER before.
Where a clause rests on the model's own choice, that is log entries 162, 163, 164. -/
def Obligations.StoreResults : Prop :=
  StoresAs .stB 1 true (fun a d => .store a 1 d) ∧ StoresAs .stH 2 true (fun a d => .store a 2 d) ∧
  StoresAs .stW 4 true (fun a d => .store a 4 d) ∧ StoresAs .stD 8 true (fun a d => .store a 8 d) ∧
  StoresAs .scst 8 true (fun a d => .scst a d) ∧ StoresAs .sto 8 false (fun a d => .sto a d) ∧
  (∀ p w l n a,
    Does (.clro p w l n a) (fun _ x => x.lp = false ∧ inWindow x.l 8) (fun s f x => bufferOp s f x l (.clro x.l (n.toNat + 1))) ∧
    AccessTraps (.clro p w l n a) (fun _ _ => True) (fun x => x.l) 8 false) ∧
  (∀ p w l o a,
    Does (.irst p w l o a) (fun s x => x.lp = false ∧ x.rp = false ∧ (∃ i, s.inv? = some i ∧ i.sealw = true) ∧ inVirtual (accessAt x.l o 8) 8)
      (fun s f x => bufferOp s f x l (.irst (accessAt x.l o 8) x.r)) ∧
    Traps (.irst p w l o a) (fun s x => x.lp = false ∧ x.rp = false ∧ (∀ i, s.inv? = some i → i.sealw = false)) .irstOrder none (fun _ => 0) ∧
    Traps (.irst p w l o a) (fun _ x => x.lp = false ∧ x.rp = true) .poisonUse (some .store) (fun _ => 0))

/-- R129 to R132: ATOMN, and ATOM with no target, are buffered; ATOM with a target and CAS go to the owner when they fire, and their reply is
owed: from a window no sooner than 12 cycles after the firing. The atomics reach windows, remote tiles and virtual addresses.
Where a clause rests on the model's own choice, that is log entries 162, 164. -/
def Obligations.AtomicResults : Prop :=
  let sent (s : State) (x : Args) (l op : BitVec 4) (d : BitVec 1) (v : Word) (cas : Option Word) : State :=
    let due := s.core.cyc + (if outOfWindow x.l then 0 else 12)
    (addOwed s ⟨s.nextId, x.slot, false, if d = 1 then 8 else 4, some l, x.anc, [], x.l, due⟩).request (s.origin x.slot l.toNat) x.l
      (fun b => .atomic b op (d == 1) v cas true) (fun c => .atomReply 0 (some c))
  (∀ p w l o d a,
    Does (.atom p w l o d a) (fun _ x => a = noT ∧ x.lp = false ∧ x.rp = false ∧ atomicAt x.l (if d = 1 then 8 else 4))
      (fun s f x => bufferOp s f x l (.atom x.l o (d == 1) x.r)) ∧
    Does (.atom p w l o d a) (fun _ x => a ≠ noT ∧ x.lp = false ∧ x.rp = false ∧ atomicAt x.l (if d = 1 then 8 else 4))
      (fun s _ x => sent s x l o d x.r none) ∧
    AtomicTraps (.atom p w l o d a) (fun x => x.rp) (if d = 1 then 8 else 4)) ∧
  (∀ p w l o d a,
    Does (.atomn p w l o d a) (fun _ x => x.lp = false ∧ x.rp = false ∧ atomicAt x.l (if d = 1 then 8 else 4))
      (fun s f x => bufferOp s f x l (.atom x.l o (d == 1) x.r)) ∧
    AtomicTraps (.atomn p w l o d a) (fun x => x.rp) (if d = 1 then 8 else 4)) ∧
  (∀ l d a,
    Does (.cas l d a) (fun _ x => x.lp = false ∧ x.rp = false ∧ x.tp = false ∧ atomicAt x.l (if d = 1 then 8 else 4))
      (fun s _ x => sent s x l 8 d x.t (some x.r)) ∧
    AtomicTraps (.cas l d a) (fun x => x.rp || x.tp) (if d = 1 then 8 else 4))

/-- R137 to R139: SEND, SENDR, SENDM and EOS on a declared output take its credit and put the token into the store buffer; on an undeclared one
they trap BAD_CHANNEL with its number. The payload words of SEND and SENDR carry their poison bits. SENDM reads its words from the tile store, and
traps on a poisoned, misaligned, out-of-range or protected address before.
Where a clause rests on the model's own choice, that is log entry 162. -/
def Obligations.SendResults : Prop :=
  (∀ p w l sc t k a,
    Does (.send p w l sc t k a) (fun s _ => (s.out? s.act k).isSome)
      (fun s f x => bufferOp (takeCredit s k) f x l (.token k (dataToken s t x) (if w = 1 then some ⟨sc, x.thirdAnc, false⟩ else none))) ∧
    TrapsInfo (.send p w l sc t k a) (fun s _ => s.out? s.act k = none) .badChannel (BitVec.ofNat 32 k.toNat)) ∧
  (∀ p w l sc t k a,
    Does (.sendr p w l sc t k a) (fun s _ => (s.out? s.act k).isSome)
      (fun s f x => bufferOp (takeCredit s k) f x l (.token k (dataToken s t x) (some ⟨sc, 0, true⟩))) ∧
    TrapsInfo (.sendr p w l sc t k a) (fun s _ => s.out? s.act k = none) .badChannel (BitVec.ofNat 32 k.toNat)) ∧
  (∀ p w l n k a,
    Does (.sendm p w l n k a) (fun s x => (localTrap x.l x.lp 8 (8 * (n.toNat + 1)) 0x7FFFF).isNone ∧ (s.out? s.act k).isSome)
      (fun s f x =>
        let r := readEls s x.anc x.l.toNat 8 (n.toNat + 1)
        bufferOp (takeCredit r.2 k) f x l (.token k (mkToken r.2 0 (n.toNat + 1) (wordsOf r.1 (n.toNat + 1)) 0) none)) ∧
    RangeTrapsTo (.sendm p w l n k a) (fun x => x.l) 8 (8 * (n.toNat + 1)) 0x80000 ∧
    TrapsInfo (.sendm p w l n k a) (fun s x => (localTrap x.l x.lp 8 (8 * (n.toNat + 1)) 0x7FFFF).isNone ∧ s.out? s.act k = none) .badChannel
      (BitVec.ofNat 32 k.toNat)) ∧
  (∀ p w l k a,
    Does (.eos p w l k a) (fun s _ => (s.out? s.act k).isSome)
      (fun s f x => bufferOp (takeCredit s k) f x l (.token k (mkToken s 8 0 [] 0) none)) ∧
    TrapsInfo (.eos p w l k a) (fun s _ => s.out? s.act k = none) .badChannel (BitVec.ofNat 32 k.toNat))

/-- R140: TAGA takes the lowest free tag of the pool, or delivers all ones when none is free or the entry allocates by token; TAGR gives back a
tag that the actor holds, else traps BAD_TAG; TBLK and TUNB name an input channel of the actor, else trap BAD_CHANNEL.
R134, R141, R144: FENCE, BARI, BARA, BARX and SEALW deliver at once when their condition holds; else FENCE, BARX and SEALW wait. -/
def Obligations.TagAndWaitWords : Prop :=
  ((∀ p a s f x, firing (.taga p a) s = some (f, x) → freeTag (marked s f) = none →
    exec (.taga p a) s = .next (answers (marked s f) f x 0xFFFFFFFFFFFFFFFF)) ∧
  (∀ p a s f x t, firing (.taga p a) s = some (f, x) → freeTag (marked s f) = some t →
    ∃ u, exec (.taga p a) s = .next (answers u f x (BitVec.ofNat 64 t.toNat)) ∧ u.core.ch.taga = (s.act, t) :: s.core.ch.taga ∧ u.mem = s.mem) ∧
  (∀ p, Does (.tagr p) (fun s x => x.lp = false ∧ (s.act, BitVec.ofNat 8 x.l.toNat) ∈ s.core.ch.taga)
      (fun s _ x => addAct s x.slot 0 (.tagr (BitVec.ofNat 8 x.l.toNat))) ∧
    Traps (.tagr p) (fun _ x => x.lp = true) .poisonUse (some .special) (fun _ => 0) ∧
    ∀ s f x, firing (.tagr p) s = some (f, x) → x.lp = false → (s.act, BitVec.ofNat 8 x.l.toNat) ∉ s.core.ch.taga →
      exec (.tagr p) s = .next (takeTrap (marked s f) ⟨s.core.slot, .badTag, none, BitVec.ofNat 32 (x.l.toNat % 256), 0, false, false⟩)) ∧
  (∀ p c, Does (.tblk p c) (fun s _ => isInput s c = true) (fun s _ x => addAct s x.slot 0 (.blocked c true)) ∧
    TrapsInfo (.tblk p c) (fun s _ => isInput s c = false) .badChannel (BitVec.ofNat 32 c.toNat)) ∧
  (∀ p c, Does (.tunb p c) (fun s _ => isInput s c = true) (fun s _ x => addAct s x.slot 0 (.blocked c false)) ∧
    TrapsInfo (.tunb p c) (fun s _ => isInput s c = false) .badChannel (BitVec.ofNat 32 c.toNat))) ∧
  ((∀ p c a, Does (.fence p c a) (fun s _ => fenceClear s c = true) (fun s f x => answers s f x 0) ∧
    Does (.fence p c a) (fun s _ => fenceClear s c = false) (fun s _ x => addWait s x (.fence c))) ∧
  (∀ p n b a, Does (.bari p n b a) (fun _ x => x.lp = false ∧ (x.l.getLsbD 16 = true ∨ x.l.toNat % 2 ^ 16 ≠ 0))
      (fun s f x => answers (addAct s x.slot 0 (.barInit n (BitVec.ofNat 16 x.l.toNat)
        (if x.l.getLsbD 16 then some (BitVec.ofNat 3 (x.l.toNat / 2 ^ 17)) else none))) f x 0) ∧
    Traps (.bari p n b a) (fun _ x => x.lp = true) .poisonUse (some .special) (fun _ => 0) ∧
    Traps (.bari p n b a) (fun _ x => x.lp = false ∧ x.l.getLsbD 16 = false ∧ x.l.toNat % 2 ^ 16 = 0) .badBarrier none (fun _ => 0)) ∧
  (∀ p n b a, Does (.bara p n b a) (fun _ _ => True)
      (fun s f x => answers (addAct s x.slot 0 (.barArrive n)) f x (BitVec.ofNat 64 (s.barrier n.toNat).g.toNat))) ∧
  (∀ p n b a, Does (.barx p n b a) (fun s x => x.lp = false ∧ (s.barrier n.toNat).g.toNat ≠ x.l.toNat % 2 ^ 16)
      (fun s f x => answers s f x (BitVec.ofNat 64 (s.barrier n.toNat).g.toNat)) ∧
    Does (.barx p n b a) (fun s x => x.lp = false ∧ (s.barrier n.toNat).g.toNat = x.l.toNat % 2 ^ 16)
      (fun s _ x => addWait s x (.barrier n (BitVec.ofNat 16 x.l.toNat)))) ∧
  (∀ p a s f x i, firing (.sealw p a) s = some (f, x) → s.inv? = some i →
    (i.rin = 0 ∨ s.isSealed (i.rin - 1) = true → exec (.sealw p a) s = .next (answers (marked s f) f x (BitVec.ofNat 64 (i.rin - 1).toNat))) ∧
    (i.rin ≠ 0 ∧ s.isSealed (i.rin - 1) = false → exec (.sealw p a) s = .next (addWait (marked s f) x (.sealed (i.rin - 1))))))

-- Rows, the matrix unit and the engines (chapters 6 to 8)

/-- R149, R161, R166 to R171: the row instructions. RLD reads its 66-word image and loads it at the commit no earlier than ten cycles later, or
traps ROW_CONFIG in place of its completion; RGO traps ROW_EMPTY on an EMPTY slot unless its block loads it; RDRAIN waits for the slots it names
to leave RUNNING; RSTAT.clr clears the sticky bits it read.
Where a clause rests on the model's own choice, that is log entries 36, 136, 162. -/
def Obligations.RowWordResults : Prop :=
  (∀ p q b a s f x, firing (.rld p q b a) s = some (f, x) → x.lp = false → rangeOk x.l.toNat 16 528 →
    let r := wordsAt (marked s f) x x.l.toNat 66
    let d := BitVec.ofNat 128 (((r.1[0]?).getD 0).toNat + ((r.1[1]?).getD 0).toNat * 2 ^ 64)
    let t := takeStaging r.2 10
    (imageFault d (r.1.drop 2) = none →
      exec (.rld p q b a) s = .next (answers (addAct t x.slot (t.core.cyc + 10) (.rowLoad q d (r.1.drop 2))) f x 0)) ∧
    (∀ n, imageFault d (r.1.drop 2) = some n →
      exec (.rld p q b a) s = .next (trapsLater t x 10 .rowConfig (BitVec.ofNat 32 n)))) ∧
  (∀ p q b a, RangeTraps (.rld p q b a) (fun x => x.l) 16 528) ∧
  (∀ p q b a, Does (.rgo p q b a) (fun s x => x.lp = false ∧ ((s.rowSlot q.toNat).st ≠ .empty ∨ blockHasRld s q = true))
      (fun s f x => queues s f x (.rowGo q (BitVec.ofNat 32 x.l.toNat))) ∧
    PoisonTraps (.rgo p q b a) (fun x => x.lp) .special ∧
    TrapsPlain (.rgo p q b a) (fun s x => x.lp = false ∧ (s.rowSlot q.toNat).st = .empty ∧ blockHasRld s q = false) .rowEmpty) ∧
  (∀ p q b a, Does (.rstop p q b a) (fun _ _ => True) (fun s f x => queues s f x (.rowStop q))) ∧
  (∀ p q b a, Does (.rdrain p 0 q b a) (fun s _ => (s.rowSlot q.toNat).st ≠ .running) (fun s f x => answers s f x (rowStatus (s.rowSlot q.toNat))) ∧
    Does (.rdrain p 0 q b a) (fun s _ => (s.rowSlot q.toNat).st = .running) (fun s _ x => addWait s x (.rowIdle (some q))) ∧
    Does (.rdrain p 1 q b a) (fun s _ => ∀ r ∈ s.core.row.slots, r.st ≠ .running) (fun s f x => answers s f x 0) ∧
    Does (.rdrain p 1 q b a) (fun s _ => ∃ r ∈ s.core.row.slots, r.st = .running) (fun s _ x => addWait s x (.rowIdle none))) ∧
  (∀ p q b a, Does (.rstat p 0 q b a) (fun _ _ => True) (fun s f x => answers s f x (rowStatus (s.rowSlot q.toNat))) ∧
    Does (.rstat p 1 q b a) (fun _ _ => True)
      (fun s f x => answers (addAct s x.slot 0 (.rowClr q (s.rowSlot q.toNat).sticky)) f x (rowStatus (s.rowSlot q.toNat))))

/-- R178 to R186: the matrix instructions put one operation each into the unit's queue at the commit and deliver 0.
R139, R180, R181, R183, R184: the traps of the matrix instructions, in their order: poison, the descriptor, then the alignment, the bounds and the
protection of the ranges it names, each with the address of the first range that fails, and for MDRAIN the output of its completion token.
Where a clause rests on the model's own choice, that is log entry 162. -/
def Obligations.MatrixWords : Prop :=
  ((∀ p f g b a, Does (.mma p f g b a)
      (fun _ x => x.lp = false ∧ x.rp = false ∧ mxDescBad false f x.l false = false ∧ mxDescBad false g x.r true = false ∧
        ∀ r ∈ mxRanges false f (mxK x.l) x.l ++ mxRanges false g (mxK x.l) x.r, rangeOk r.1 16 r.2)
      (fun s i x => queues s i x (.mx (.pass false f g x.l x.r)))) ∧
  (∀ p f g b a, Does (.mmas p f g b a)
      (fun _ x => x.lp = false ∧ x.rp = false ∧ mxDescBad true f x.l false = false ∧ mxDescBad true g x.r true = false ∧
        ∀ r ∈ mxRanges true f (mxK x.l) x.l ++ mxRanges true g (mxK x.l) x.r, rangeOk r.1 16 r.2)
      (fun s i x => queues s i x (.mx (.pass true f g x.l x.r)))) ∧
  (∀ p k b a, Does (.mclr p k b a) (fun _ _ => True) (fun s f x => queues s f x (.mx (.mclr k)))) ∧
  (∀ p k b a, Does (.mattr p 0 k b a) (fun _ _ => True) (fun s f x => queues s f x (.mattr k false)) ∧
    Does (.mattr p 1 k b a) (fun _ _ => True) (fun s f x => queues s f x (.mattr k true))) ∧
  (∀ p k b a, Does (.mfade p k b a) (fun _ x => x.lp = false) (fun s f x => queues s f x (.mx (.mfade k (BitVec.ofNat 32 x.l.toNat))))) ∧
  (∀ p k b a, Does (.lutsel p k b a) (fun _ _ => True) (fun s f x => queues s f x (.mx (.lutsel k)))) ∧
  (∀ p k b a, Does (.mlda p k b a) (fun _ x => x.lp = false ∧ rangeOk x.l.toNat 16 16384)
    (fun s f x => queues s f x (.mx (.mlda k x.l.toNat)))) ∧
  (∀ p f k m b a, Does (.mdrain p f k m b a)
      (fun s x => x.lp = false ∧ x.rp = false ∧ x.l.toNat < 2 ^ 36 ∧ x.l.toNat / 2 ^ 19 % 2 ^ 13 = 0 ∧
        rangeOk (x.l.toNat % 2 ^ 19) 16 (drainBytes f) ∧ (x.l.getLsbD 35 = true → (s.out? s.act (x.l.extractLsb' 32 3)).isSome))
      (fun s i x => queues (if x.l.getLsbD 35 then takeCredit s (x.l.extractLsb' 32 3) else s) i x
        (.mx (.mdrain f k m x.l (BitVec.ofNat 32 x.r.toNat))))) ∧
  (∀ p b a, Does (.mstat p b a) (fun _ _ => True)
    (fun s f x => answers s f x (BitVec.ofNat 64 (s.core.mx.bst.toNat + s.core.mx.keep.toNat * 2 ^ 32 + s.core.mx.lost.toNat * 2 ^ 36 +
      s.core.mx.queue.length % 16 * 2 ^ 40 + s.core.mx.lut.toNat * 2 ^ 44))))) ∧
  ((∀ p f g b a, PoisonTraps (.mma p f g b a) (fun x => x.lp || x.rp) .address ∧
    TrapsPlain (.mma p f g b a) (fun _ x => x.lp = false ∧ x.rp = false ∧ (mxDescBad false f x.l false = true ∨ mxDescBad false g x.r true = true))
      .matrixDesc) ∧
  (∀ p f g b a, PoisonTraps (.mmas p f g b a) (fun x => x.lp || x.rp) .address ∧
    TrapsPlain (.mmas p f g b a) (fun _ x => x.lp = false ∧ x.rp = false ∧ (mxDescBad true f x.l false = true ∨ mxDescBad true g x.r true = true))
      .matrixDesc) ∧
  (∀ (mmas : Bool) (i : BitVec 2 → BitVec 4 → BitVec 4 → BitVec 7 → BitVec 7 → Instr), (mmas = false ∧ i = Instr.mma) ∨ (mmas = true ∧ i = Instr.mmas) →
    ∀ p f g b a s h x n rs m us, firing (i p f g b a) s = some (h, x) → x.lp = false → x.rp = false →
    mxDescBad mmas f x.l false = false → mxDescBad mmas g x.r true = false →
    mxRanges mmas f (mxK x.l) x.l ++ mxRanges mmas g (mxK x.l) x.r = rs ++ (n, m) :: us →
    let traps (c : Cause) : Prop := exec (i p f g b a) s = .next (takeTrap (marked s h) ⟨s.core.slot, c, none, 0, BitVec.ofNat 64 n, false, false⟩)
    let all := rs ++ (n, m) :: us
    ((∀ r ∈ rs, r.1 % 16 = 0) → n % 16 ≠ 0 → traps .misaligned) ∧
    ((∀ r ∈ all, r.1 % 16 = 0) → (∀ r ∈ rs, r.1 + r.2 ≤ 0x7FC00) → 0x7FC00 < n + m → traps .addressRange) ∧
    ((∀ r ∈ all, r.1 % 16 = 0 ∧ r.1 + r.2 ≤ 0x7FC00) → (∀ r ∈ rs, rangeOk r.1 16 r.2) → n < 0x70000 → 0x60000 < n + m → traps .protection)) ∧
  (∀ p k b a, PoisonTraps (.mfade p k b a) (fun x => x.lp) .special) ∧
  (∀ p k b a, PoisonTraps (.mlda p k b a) (fun x => x.lp) .address ∧
    Traps (.mlda p k b a) (fun _ x => x.lp = false ∧ x.l.toNat % 16 ≠ 0) .misaligned none (fun x => x.l) ∧
    Traps (.mlda p k b a) (fun _ x => x.lp = false ∧ x.l.toNat % 16 = 0 ∧ 0x7FC00 < x.l.toNat + 16384) .addressRange none (fun x => x.l) ∧
    Traps (.mlda p k b a) (fun _ x => x.lp = false ∧ x.l.toNat % 16 = 0 ∧ 0x5C000 < x.l.toNat ∧ x.l.toNat < 0x70000) .protection none (fun x => x.l)) ∧
  (∀ p f k m b a, PoisonTraps (.mdrain p f k m b a) (fun x => x.lp) .address ∧
    Traps (.mdrain p f k m b a) (fun _ x => x.lp = false ∧ x.rp = true) .poisonUse (some .special) (fun _ => 0) ∧
    TrapsPlain (.mdrain p f k m b a) (fun _ x => x.lp = false ∧ x.rp = false ∧ (2 ^ 36 ≤ x.l.toNat ∨ x.l.toNat / 2 ^ 19 % 2 ^ 13 ≠ 0)) .matrixDesc ∧
    let at' (x : Args) : Nat := x.l.toNat % 2 ^ 19
    let legal (x : Args) : Prop := x.lp = false ∧ x.rp = false ∧ x.l.toNat < 2 ^ 36 ∧ x.l.toNat / 2 ^ 19 % 2 ^ 13 = 0
    let detail (x : Args) : Word := BitVec.ofNat 64 (at' x)
    Traps (.mdrain p f k m b a) (fun _ x => legal x ∧ at' x % 16 ≠ 0) .misaligned none detail ∧
    Traps (.mdrain p f k m b a) (fun _ x => legal x ∧ at' x % 16 = 0 ∧ 0x7FC00 < at' x + drainBytes f) .addressRange none detail ∧
    Traps (.mdrain p f k m b a) (fun _ x => legal x ∧ at' x % 16 = 0 ∧ at' x + drainBytes f ≤ 0x7FC00 ∧ at' x < 0x70000 ∧ 0x60000 < at' x + drainBytes f)
      .protection none detail ∧
    ∀ s h x, firing (.mdrain p f k m b a) s = some (h, x) → legal x → rangeOk (at' x) 16 (drainBytes f) → x.l.getLsbD 35 = true →
      s.out? s.act (x.l.extractLsb' 32 3) = none → exec (.mdrain p f k m b a) s = .next (takeTrap (marked s h)
        ⟨s.core.slot, .badChannel, none, BitVec.ofNat 32 (x.l.toNat / 2 ^ 32 % 8), 0, false, false⟩)))

/-- R189 to R193, R197 to R205: the engine instructions that a descriptor or a control word configures.
R191, R197, R205, R206: STRM, AGGO and COLL: the control word's checks, the credit of the signal output, and the start at the commit.
Where a clause rests on the model's own choice, that is log entry 162. -/
def Obligations.EngineWords : Prop :=
  ((∀ p n b a, DescOf (.apdef p n b a) 6 (fun _ _ ws => apOk ws = true) (fun _ ws => apOk ws = false) .apDesc (fun _ _ ws => .apdef n ws)) ∧
  (∀ p g n b a, DescOf (.bcopy p g n b a) 4
    (fun _ _ ws => ∃ src dst len, ws = [src, dst, len, 0] ∧ copyOk false src dst len 0 = true ∧
      (copyEndTrap src len.toNat).isNone ∧ (copyEndTrap dst len.toNat).isNone)
    (fun _ ws => ∃ src dst len r, ws = [src, dst, len, r] ∧ copyOk false src dst len r = false) .engineDesc
    (fun _ _ ws => .copy (g == 1) n ((ws[0]?).getD 0) ((ws[1]?).getD 0) ((ws[2]?).getD 0).toNat false)) ∧
  (∀ p g n b a, DescOf (.bcopyh p g n b a) 4
    (fun _ _ ws => ∃ src dst len, ws = [src, dst, len, 0] ∧ copyOk true src dst len 0 = true ∧
      (copyEndTrap src len.toNat).isNone ∧ (copyEndTrap dst len.toNat).isNone)
    (fun _ ws => ∃ src dst len r, ws = [src, dst, len, r] ∧ copyOk true src dst len r = false) .engineDesc
    (fun _ _ ws => .copy (g == 1) n ((ws[0]?).getD 0) ((ws[1]?).getD 0) ((ws[2]?).getD 0).toNat true)) ∧
  (∀ p g w b a, DescOf (.agcfg p g w b a) 2
    (fun _ _ ws => ∃ lo hi : Word, ws = [lo, hi] ∧ agcfgOk (hi ++ lo) = true) (fun _ ws => ∃ lo hi : Word, ws = [lo, hi] ∧ agcfgOk (hi ++ lo) = false)
    .engineDesc (fun _ _ ws => .agcfg w g ((ws[1]?).getD 0 ++ (ws[0]?).getD 0))) ∧
  (∀ p m b a, Does (.sbar p m b a) (fun s _ => ∀ n < 8, m.getLsbD n = true → portQuiet (s.port n) = true)
      (fun s f x => answers s f x (BitVec.ofNat 64 (fromBits 8 (fun n => m.getLsbD n && (s.port n).fault)))) ∧
    Does (.sbar p m b a) (fun s _ => ∃ n < 8, m.getLsbD n = true ∧ portQuiet (s.port n) = false) (fun s _ x => addWait s x (.ports m)))) ∧
  ((∀ (i : BitVec 2 → BitVec 3 → BitVec 7 → BitVec 7 → Instr) (out : Bool), (i = Instr.strmIn ∧ out = false) ∨ (i = Instr.strmOut ∧ out = true) →
    ∀ p n b a,
    let legal (s : State) (x : Args) : Prop := x.lp = false ∧ x.l.toNat < 2 ^ 12 ∧ x.l.toNat / 32 % 8 = 0 ∧ (mget s.core.aps (x.l.toNat % 32)).isSome
    Does (i p n b a) (fun s x => legal s x ∧ x.l.getLsbD 11 = false) (fun s f x => queues s f x (.strm n out x.l)) ∧
    Does (i p n b a) (fun s x => legal s x ∧ x.l.getLsbD 11 = true ∧ (s.out? s.act (x.l.extractLsb' 8 3)).isSome)
      (fun s f x => queues (takeCredit s (x.l.extractLsb' 8 3)) f x (.strm n out x.l)) ∧
    PoisonTraps (i p n b a) (fun x => x.lp) .special ∧
    TrapsPlain (i p n b a)
      (fun s x => x.lp = false ∧ (2 ^ 12 ≤ x.l.toNat ∨ x.l.toNat / 32 % 8 ≠ 0 ∨ mget s.core.aps (x.l.toNat % 32) = none)) .engineDesc ∧
    (∀ s f x, firing (i p n b a) s = some (f, x) → legal (marked s f) x → x.l.getLsbD 11 = true → s.out? s.act (x.l.extractLsb' 8 3) = none →
      exec (i p n b a) s = .next (takeTrap (marked s f)
        ⟨s.core.slot, .badChannel, none, BitVec.ofNat 32 (x.l.toNat / 256 % 8), 0, false, false⟩))) ∧
  (∀ p g w b a, Does (.aggo p g w b a)
      (fun s x => x.lp = false ∧ x.rp = false ∧ x.l.toNat < 2 ^ 13 ∧ x.l.toNat / 32 % 8 = 0 ∧ x.r.toNat < 16 ∧
        (∃ sa da, mget s.core.aps (x.l.toNat % 32) = some sa ∧ mget s.core.aps (x.l.toNat / 256 % 32) = some da ∧ apBytes sa = apBytes da ∧
          (baseInWindow s w sa = true ∨ baseInWindow s w da = true)) ∧
        (x.r.getLsbD 3 = true → (s.out? s.act (x.r.extractLsb' 0 3)).isSome))
      (fun s f x => queues (if x.r.getLsbD 3 then takeCredit s (x.r.extractLsb' 0 3) else s) f x (.aggo w g x.l x.r)) ∧
    PoisonTraps (.aggo p g w b a) (fun x => x.lp || x.rp) .special ∧
    TrapsPlain (.aggo p g w b a)
      (fun s x => x.lp = false ∧ x.rp = false ∧
        (mget s.core.aps (x.l.toNat % 32) = none ∨ mget s.core.aps (x.l.toNat / 256 % 32) = none)) .engineDesc) ∧
  (∀ p k b a, Does (.coll p k b a)
      (fun s x => (∃ o u n, s.out? s.act k = some o ∧ o.dest = .coll u n) ∧ x.lp = false ∧ x.l.toNat < 2 ^ 48 ∧ x.l.toNat / 64 % 2 ^ 10 = 0 ∧
        x.l.toNat / 2 ^ 16 % 2 ^ 32 ≠ 0 ∧ x.l.toNat % 16 ≤ 3)
      (fun s f x => queues (takeCredit s k) f x (.coll k x.l)) ∧
    TrapsInfo (.coll p k b a) (fun s _ => ∀ o, s.out? s.act k = some o → ∀ u n, o.dest ≠ .coll u n) .badChannel (BitVec.ofNat 32 k.toNat) ∧
    Traps (.coll p k b a) (fun s x => (∃ o u n, s.out? s.act k = some o ∧ o.dest = .coll u n) ∧ x.lp = true) .poisonUse (some .special) (fun _ => 0) ∧
    TrapsPlain (.coll p k b a)
      (fun s x => (∃ o u n, s.out? s.act k = some o ∧ o.dest = .coll u n) ∧ x.lp = false ∧
        (2 ^ 48 ≤ x.l.toNat ∨ x.l.toNat / 64 % 2 ^ 10 ≠ 0 ∨ x.l.toNat / 2 ^ 16 % 2 ^ 32 = 0 ∨ 3 < x.l.toNat % 16)) .engineDesc))

/-- R209 to R218: the supervisor's instructions: the answers to traps, the system registers, HALT, DBG, WDOG, TELM, CSWP, XFLUSH and ECNT.
Where a clause rests on the model's own choice, that is log entries 42, 43, 44, 166. -/
def Obligations.SystemWordResults : Prop :=
  (∀ (i : BitVec 2 → BitVec 7 → BitVec 7 → Instr) (kill : Bool), (i = Instr.eres ∧ kill = false) ∨ (i = Instr.ekill ∧ kill = true) → ∀ p b a,
    Does (i p b a) (fun s x => x.lp = false ∧ handleOk s x.l = true) (fun s f x => queues s f x (.answer kill x.l)) ∧
    PoisonTraps (i p b a) (fun x => x.lp) .special ∧
    TrapsPlain (i p b a) (fun s x => x.lp = false ∧ handleOk s x.l = false) .sysDesc) ∧
  (∀ p b a, (∀ s f x v, firing (.mfsp p b a) s = some (f, x) → x.lp = false → sysRead (marked s f) x.l.toNat = some v →
      exec (.mfsp p b a) s = .next (answers (marked s f) f x v)) ∧
    PoisonTraps (.mfsp p b a) (fun x => x.lp) .special ∧
    TrapsPlain (.mfsp p b a) (fun _ x => x.lp = false ∧ 10 ≤ x.l.toNat) .badSpecial) ∧
  (∀ p, Does (.mtsp p) (fun _ x => x.lp = false ∧ x.rp = false ∧ 1 ≤ x.l.toNat ∧ x.l.toNat ≤ 3)
      (fun s _ x => addAct s x.slot 0 (.mtsp (BitVec.ofNat 8 x.l.toNat) x.r)) ∧
    PoisonTraps (.mtsp p) (fun x => x.lp || x.rp) .special ∧
    TrapsPlain (.mtsp p) (fun _ x => x.lp = false ∧ x.rp = false ∧ (x.l.toNat = 0 ∨ 3 < x.l.toNat)) .badSpecial) ∧
  (∀ p, Does (.halt p)
      (fun s x => x.lp = false ∧ x.l.toNat < 2 ^ 17 ∧ isCTile (x.l.toNat % 2 ^ 16) = true ∧ inPartition s (x.l.toNat % 2 ^ 16) = true)
      (fun s _ x => addAct s x.slot 0 (.halt x.l)) ∧
    PoisonTraps (.halt p) (fun x => x.lp) .special ∧
    TrapsPlain (.halt p) (fun s x => x.lp = false ∧
      (2 ^ 17 ≤ x.l.toNat ∨ isCTile (x.l.toNat % 2 ^ 16) = false ∨ inPartition s (x.l.toNat % 2 ^ 16) = false)) .sysDesc) ∧
  (∀ p, Does (.dbg p) (fun _ _ => True) (fun s _ x => addAct s x.slot 0 (.dbg x.l x.lp))) ∧
  (∀ p, Does (.wdog p) (fun _ x => x.lp = false) (fun s _ x => addAct s x.slot 0 (.wdog x.l)) ∧ PoisonTraps (.wdog p) (fun x => x.lp) .special) ∧
  (∀ p, Does (.telm p)
      (fun _ x => x.lp = false ∧ x.l.toNat % 4 ≠ 3 ∧ x.l.toNat < 2 ^ 32 ∧ x.l.toNat / 4 % 64 = 0 ∧ x.l.toNat / 256 % 2 ^ 24 ≠ 0)
      (fun s _ x => addAct s x.slot 0 (.telm x.l)) ∧
    PoisonTraps (.telm p) (fun x => x.lp) .special ∧
    TrapsPlain (.telm p) (fun _ x => x.lp = false ∧ (x.l.toNat % 4 = 3 ∨ 2 ^ 32 ≤ x.l.toNat ∨ x.l.toNat / 4 % 64 ≠ 0)) .sysDesc) ∧
  (∀ p, Does (.cswp p)
      (fun s x => x.lp = false ∧ x.l.toNat < 2 ^ 17 ∧ regionDeclared s (x.l.toNat % 256) = true ∧ phaseDeclared s (x.l.toNat / 256 % 256) = true)
      (fun s _ x => addAct s x.slot 0 (.cswp x.l)) ∧
    PoisonTraps (.cswp p) (fun x => x.lp) .special ∧
    TrapsPlain (.cswp p) (fun s x => x.lp = false ∧
      (2 ^ 17 ≤ x.l.toNat ∨ regionDeclared s (x.l.toNat % 256) = false ∨ phaseDeclared s (x.l.toNat / 256 % 256) = false)) .sysDesc) ∧
  (∀ p b a, Does (.xflush p b a)
      (fun s x => x.lp = false ∧ x.l.toNat < 2 ^ 9 ∧ (x.l.toNat % 256 = 255 ∨ regionDeclared s (x.l.toNat % 256) = true))
      (fun s _ x =>
        let t := addWait ((flushScope s (x.l.toNat % 256)).foldl (fun u m => flushTile u m (x.l.getLsbD 8)) s.fresh) x (.xflush s.nextId)
        { t with agenda := t.agenda ++ [⟨t.cur, .xflushDone, { Input.none with n := s.nextId }⟩] }) ∧
    PoisonTraps (.xflush p b a) (fun x => x.lp) .special ∧
    TrapsPlain (.xflush p b a) (fun s x => x.lp = false ∧ (2 ^ 9 ≤ x.l.toNat ∨ (x.l.toNat % 256 ≠ 255 ∧ regionDeclared s (x.l.toNat % 256) = false)))
      .sysDesc) ∧
  (∀ p b a, Does (.ecnt p b a) (fun _ x => x.lp = false ∧ x.rp = false ∧ rangeOk (x.l.toNat % 2 ^ 32) 16 1328)
      (fun s _ x =>
        let r := energyReading s (s.core.sys.part.getD 64) x.r
        let t := addWait r.2 x (.record (BitVec.ofNat 64 (x.l.toNat % 2 ^ 32)) r.1)
        { t with agenda := t.agenda ++ [⟨t.cur, .ecntRecordReady, Input.none⟩] }) ∧
    RangeTraps (.ecnt p b a) (fun x => BitVec.ofNat 64 (x.l.toNat % 2 ^ 32)) 16 1328 ∧
    Traps (.ecnt p b a) (fun _ x => x.lp = false ∧ x.rp = true ∧ rangeOk (x.l.toNat % 2 ^ 32) 16 1328) .poisonUse (some .special) (fun _ => 0))

-- Firing, operands and traps (chapters 3, 4 and 14)

/-- R31, R60, R62: an instruction that does not stand ready changes nothing; one whose predicate does not match never fires; one whose predicate
is poisoned takes the poison trap of use BRANCH at its slot.
R62: a null token on any operand nullifies the firing: a WRITE resolves its register without a value, a store-class instruction its LSID with a
completion of value 0, any other value form delivers a null token, and a form without a value does nothing.
Where a clause rests on the model's own choice, that is log entries 3, 128, 129. -/
def Obligations.UnfiredAndNullified : Prop :=
  (∀ i s, (infoOf i).isSome = true →
    (standing i s = none → exec i s = .next s) ∧
    (∀ f sl, standing i s = some (f, sl) → hasNull f sl = false →
      (f.pr ≠ 0 ∧ opdPoison sl.t = true →
        exec i s = .next (takeTrap (marked s f) ⟨s.core.slot, .poisonUse, some .branch, 0, 0, false, false⟩)) ∧
      (opdPoison sl.t = false ∧ ((f.pr = 2 ∧ opdWord sl.t ≠ 0) ∨ (f.pr = 3 ∧ opdWord sl.t = 0)) →
        exec i s = .next (markSlot s s.core.slot .unmatched f)))) ∧
  (∀ i s f sl, standing i s = some (f, sl) → hasNull f sl = true →
    (∀ p g, i = .write p g → exec i s = .next (resolveReg (marked s f) s.core.slot g none)) ∧
    (∀ l, f.lsid = some l →
      exec i s = .next (deliver (marked s f) s.core.slot f 1 (.val 0 false) (argsOf f s.core.slot sl).anc (some l))) ∧
    ((∀ p g, i ≠ .write p g) → f.lsid = none → f.value = true →
      exec i s = .next (deliver (marked s f) s.core.slot f f.lat .null (argsOf f s.core.slot sl).anc none)) ∧
    ((∀ p g, i ≠ .write p g) → f.lsid = none → f.value = false → exec i s = .next (marked s f)))

/-- R59, R68, R69: the firing of a word, whatever it does, leaves the committed registers and specials of both levels as they are, and every byte
of the tile stores and the memory tiles: stores, register writes and special writes wait for the commit. -/
def Obligations.FiringFrame : Prop :=
  ∀ i s t, (infoOf i).isSome = true → exec i s = .next t →
    BanksKept s t ∧ t.cur = s.cur ∧ t.time = s.time ∧ ∀ k < 0x1000000000000000, t.byte k = s.byte k

/-- R61, R63: a token that reaches a free operand buffer of an instruction that has not fired fills it and raises no trap; at a full buffer, or at
an instruction that has fired, it raises OPERAND_OVERRUN at that slot and fills nothing. A poisoned predicate traps as it arrives (R31). -/
def Obligations.OperandDelivery : Prop :=
  ∀ (slots : List Slot) (t : BitVec 7) (o : Opd) (sl : Slot), t ≠ noT → slots[t.toNat % 32]? = some sl →
    let k := t.toNat % 32
    let full : Option PTrap := some ⟨k, .operandOverrun, none, 0, 0, false, false⟩
    (sl.st = .fired → landTarget slots t o = (slots, full)) ∧
    (sl.st ≠ .fired → t.toNat / 32 = 0 → sl.l = none → landTarget slots t o = (slots.set k { sl with l := some o }, none)) ∧
    (t.toNat / 32 = 0 → sl.l ≠ none → landTarget slots t o = (slots, full)) ∧
    (sl.st ≠ .fired → t.toNat / 32 = 1 → sl.r = none → landTarget slots t o = (slots.set k { sl with r := some o }, none)) ∧
    (t.toNat / 32 = 1 → sl.r ≠ none → landTarget slots t o = (slots, full)) ∧
    (sl.st ≠ .fired → t.toNat / 32 = 2 → sl.t = none →
      (landTarget slots t o).1 = slots.set k { sl with t := some o } ∧
      (o.poison = false → (landTarget slots t o).2 = none) ∧
      (o.poison = true → ∀ i f, wordInfo sl.word = some (i, f) → f.pr ≠ 0 →
        (landTarget slots t o).2 = some ⟨k, .poisonUse, some .branch, 0, 0, false, false⟩)) ∧
    (t.toNat / 32 = 2 → sl.t ≠ none → landTarget slots t o = (slots, full))

/-- R69, R71, R364: taking a trap that is no poison trap at a store: the invocation freezes with its block uncommitted and its credits given back,
the masked window closes, the banks and the other level stay, the window is free unless a level-0 block is parked under level 1, and a trap token
that names the invocation joins the tile's queue, or TRAPCNT counts it when the tile has no supervisor.
R14, R124, R370: a poison trap at a store rolls the domain back the first time: the rollback is the next step and nothing freezes; the same
trap at the same block in the replay freezes the invocation as any other trap.
Where a clause rests on the model's own choice, that is log entries 35, 83. -/
def Obligations.TrapsAndStorePoison : Prop :=
  (∀ (s : State) (x : PTrap) (hi : Bool) (i : Inv) (b : Blk),
    s.core.run = some hi → (s.core.level hi).inv = some i → (s.core.level hi).blk = some b → ¬(x.cause = .poisonUse ∧ x.use = some .store) →
    ∃ t, takeTrap s x = t ∧ (t.core.level hi).inv = some { i with frozen := some x } ∧
      (t.core.level hi).blk = some { b with creds := [], trap := some x, pend := none, phase := .running } ∧ t.core.level (!hi) = s.core.level (!hi) ∧ BanksKept s t ∧
      t.core.mwin = none ∧
      (hi = false → t.core.run = none) ∧
      (hi = true → t.core.run = if s.core.l0.inv.any (fun j => j.frozen.isNone) then some true else none) ∧
      (s.core.sys.supv.toNat % 0x10000 ≠ 0xFFFF → t.core.sys.trapcnt = s.core.sys.trapcnt ∧ t.core.ch.traps = s.core.ch.traps ++
        [⟨[BitVec.ofNat 64 (i.tag.toNat * 2 ^ 24 + (if hi then 2 ^ 16 else 0) + s.cur),
           BitVec.ofNat 64 (x.info.toNat * 2 ^ 32 + (x.use.map Use.code).getD 0 * 2 ^ 17 + (if x.exitf then 2 ^ 13 else 0) + x.slot % 32 * 2 ^ 8 +
             x.cause.code),
           BitVec.ofNat 64 b.addr.toNat, x.detail], if x.detailP then 8 else 0, i.tag, i.rin, some hi, false, false⟩]) ∧
      (s.core.sys.supv.toNat % 0x10000 = 0xFFFF → t.core.sys.trapcnt = s.core.sys.trapcnt + 1 ∧ t.core.ch.traps = s.core.ch.traps)) ∧
  (∀ (s : State) (x : PTrap) (i : Inv) (b : Blk), s.inv? = some i → s.blk? = some b → x.cause = .poisonUse → x.use = some .store →
    ((s.core.sys.part.getD 64, Cause.poisonUse, tileKey s.cur b.addr.toNat) ∉ s.replays →
      (takeTrap s x).agenda = ⟨headIf, .rollback, { Input.none with p := BitVec.ofNat 6 (s.core.sys.part.getD 64) }⟩ :: s.agenda ∧
      (takeTrap s x).replays = (s.core.sys.part.getD 64, Cause.poisonUse, tileKey s.cur b.addr.toNat) :: s.replays ∧
      (takeTrap s x).inv? = some i ∧ (takeTrap s x).blk? = some { b with trap := some x } ∧
      (takeTrap s x).core.ch.traps = s.core.ch.traps) ∧
    ((s.core.sys.part.getD 64, Cause.poisonUse, tileKey s.cur b.addr.toNat) ∈ s.replays → ∀ hi, s.core.run = some hi →
      ((takeTrap s x).core.level hi).inv = some { i with frozen := some x }))

/-- R61, R74, R97: the tile cycles from the firing of a value form to its result, for every value form of chapters 3 to 8 but loads, stores, atomics
and sends. -/
def Obligations.ResultLatencies : Prop :=
  let lat (is : List Instr) (n : Nat) : Prop := ∀ i ∈ is, (infoOf i).map (fun f => f.lat) = some n
  (∀ (p : BitVec 1) (q : BitVec 7) (r : BitVec 7), lat [.fshl p q r, .fshr p q r] 1) ∧
  (∀ (p : BitVec 17) (q : BitVec 7), lat [.movi p q] 1) ∧
  (∀ (p : BitVec 2) (q : BitVec 1) (r : BitVec 2) (s : BitVec 7) (t : BitVec 7), lat [.rdrain p q r s t, .rstat p q r s t, .mattr p q r s t] 1) ∧
  (∀ (p : BitVec 2) (q : BitVec 1) (r : BitVec 6) (s : BitVec 6) (t : BitVec 7), lat [.extb p q r s t] 1) ∧
  (∀ (p : BitVec 2) (q : BitVec 1) (r : BitVec 6) (s : BitVec 7), lat [.shli p q r s, .shri p q r s, .sari p q r s, .roli p q r s, .rori p q r s] 1) ∧
  (∀ (p : BitVec 2) (q : BitVec 1) (r : BitVec 7) (s : BitVec 7), lat [.teq p q r s, .tne p q r s, .tlt p q r s, .tle p q r s, .tltu p q r s, .tleu p
    q r s] 1) ∧
  (∀ (p : BitVec 2) (q : BitVec 14) (r : BitVec 7), lat [.appc p q r] 1) ∧
  (∀ (p : BitVec 2) (q : BitVec 15) (r : BitVec 7), lat [.genc p q r, .addi p q r, .addiW p q r, .andi p q r, .ori p q r, .xori p q r, .teqi p q r,
    .tnei p q r, .tlti p q r, .tlei p q r, .tltui p q r, .tleui p q r] 1) ∧
  (∀ (p : BitVec 2) (q : BitVec 2) (r : BitVec 2) (s : BitVec 7) (t : BitVec 7), lat [.aggo p q r s t] 1) ∧
  (∀ (p : BitVec 2) (q : BitVec 2) (r : BitVec 7) (s : BitVec 7), lat [.rgo p q r s, .rstop p q r s, .mclr p q r s, .mfade p q r s, .lutsel p q r s,
    .mlda p q r s] 1) ∧
  (∀ (p : BitVec 2) (q : BitVec 3) (r : BitVec 7), lat [.fence p q r] 1) ∧
  (∀ (p : BitVec 2) (q : BitVec 3) (r : BitVec 7) (s : BitVec 7), lat [.strmIn p q r s, .strmOut p q r s, .coll p q r s] 1) ∧
  (∀ (p : BitVec 2) (q : BitVec 4) (r : BitVec 2) (s : BitVec 2) (t : BitVec 7) (u : BitVec 7), lat [.mdrain p q r s t u] 1) ∧
  (∀ (p : BitVec 2) (q : BitVec 4) (r : BitVec 4) (s : BitVec 7) (t : BitVec 7), lat [.mma p q r s t, .mmas p q r s t] 1) ∧
  (∀ (p : BitVec 2) (q : BitVec 4) (r : BitVec 7) (s : BitVec 7), lat [.bscale p q r s] 1) ∧
  (∀ (p : BitVec 2) (q : BitVec 6) (r : BitVec 7) (s : BitVec 7), lat [.read p q r s, .bari p q r s, .bara p q r s, .barx p q r s] 1) ∧
  (∀ (p : BitVec 2) (q : BitVec 7), lat [.taga p q, .sealw p q] 1) ∧
  (∀ (p : BitVec 2) (q : BitVec 7) (r : BitVec 7), lat [.mov p q r, .null p q r, .add p q r, .sub p q r, .min p q r, .max p q r, .minu p q r, .maxu p
    q r, .and p q r, .or p q r, .xor p q r, .andn p q r, .orn p q r, .xnor p q r, .shl p q r, .shr p q r, .sar p q r, .rol p q r, .ror p q r, .abs p q
    r, .brev p q r, .bswap p q r, .sextB p q r, .sextH p q r, .sextW p q r, .zextB p q r, .zextH p q r, .zextW p q r, .addW p q r, .subW p q r, .minW p
    q r, .maxW p q r, .minuW p q r, .maxuW p q r, .andW p q r, .orW p q r, .xorW p q r, .andnW p q r, .ornW p q r, .xnorW p q r, .shlW p q r, .shrW p q
    r, .sarW p q r, .rolW p q r, .rorW p q r, .absW p q r, .brevW p q r, .bswapW p q r, .fmin p q r, .fmax p q r, .fabs p q r, .fneg p q r, .fteq p q r,
    .ftlt p q r, .ftle p q r, .ftun p q r, .fclass p q r, .join2 p q r, .mstat p q r, .eres p q r, .ekill p q r, .ecnt p q r, .xflush p q r] 1) ∧
  (∀ (p : BitVec 2) (q : BitVec 8) (r : BitVec 7), lat [.mfs p q r] 1) ∧
  (∀ (p : BitVec 2) (q : BitVec 8) (r : BitVec 7) (s : BitVec 7), lat [.sbar p q r s] 1) ∧
  (∀ (p : BitVec 7) (q : BitVec 7), lat [.sel p q, .insb p q, .join3 p q] 1) ∧
  (∀ (p : BitVec 8) (q : BitVec 7) (r : BitVec 7), lat [.lop3 p q r] 1) ∧
  (∀ (p : BitVec 2) (q : BitVec 3) (r : BitVec 2) (s : BitVec 3) (t : BitVec 7) (u : BitVec 7), lat [.cvtq8 p q r s t u, .cvtq6 p q r s t u, .cvtq4 p
    q r s t u] 2) ∧
  (∀ (p : BitVec 2) (q : BitVec 3) (r : BitVec 7) (s : BitVec 7), lat [.frnd p q r s, .cvtfiW p q r s, .cvtfiWU p q r s, .cvtfiD p q r s, .cvtfiDU p q
    r s, .cvtifW p q r s, .cvtifWU p q r s, .cvtifD p q r s, .cvtifDU p q r s, .cvtffH p q r s, .cvtffBf p q r s] 2) ∧
  (∀ (p : BitVec 2) (q : BitVec 4) (r : BitVec 7) (s : BitVec 7), lat [.cvtd p q r s] 2) ∧
  (∀ (p : BitVec 2) (q : BitVec 7) (r : BitVec 7), lat [.clz p q r, .ctz p q r, .popc p q r, .clzW p q r, .ctzW p q r, .popcW p q r, .cvtffFH p q r,
    .cvtffFBf p q r, .mfsp p q r] 2) ∧
  (∀ (p : BitVec 2) (q : BitVec 2) (r : BitVec 7) (s : BitVec 7), lat [.lutenc p q r s] 3) ∧
  (∀ (p : BitVec 2) (q : BitVec 7) (r : BitVec 7), lat [.mul p q r, .mulhs p q r, .mulhu p q r, .mulW p q r, .mulhsW p q r, .mulhuW p q r] 3) ∧
  (∀ (p : BitVec 2) (q : BitVec 1) (r : BitVec 6) (s : BitVec 7) (t : BitVec 7), lat [.bcopy p q r s t, .bcopyh p q r s t] 4) ∧
  (∀ (p : BitVec 2) (q : BitVec 2) (r : BitVec 2) (s : BitVec 7) (t : BitVec 7), lat [.agcfg p q r s t] 4) ∧
  (∀ (p : BitVec 2) (q : BitVec 3) (r : BitVec 7) (s : BitVec 7), lat [.fadd p q r s, .fsub p q r s, .fmul p q r s] 4) ∧
  (∀ (p : BitVec 2) (q : BitVec 5) (r : BitVec 7) (s : BitVec 7), lat [.apdef p q r s] 4) ∧
  (∀ (p : BitVec 3) (q : BitVec 7) (r : BitVec 7), lat [.ffma p q r] 4) ∧
  (∀ (p : BitVec 2) (q : BitVec 3) (r : BitVec 7) (s : BitVec 7), lat [.fexp2 p q r s, .flog2 p q r s] 8) ∧
  (∀ (p : BitVec 2) (q : BitVec 2) (r : BitVec 7) (s : BitVec 7), lat [.rld p q r s] 10) ∧
  (∀ (p : BitVec 2) (q : BitVec 4) (r : BitVec 2) (s : BitVec 2) (t : BitVec 7) (u : BitVec 7), lat [.qblk p q r s t u] 10) ∧
  (∀ (p : BitVec 2) (q : BitVec 4) (r : BitVec 7) (s : BitVec 7), lat [.dqblk p q r s] 10) ∧
  (∀ (p : BitVec 2) (q : BitVec 3) (r : BitVec 7) (s : BitVec 7), lat [.fdiv p q r s, .fsqrt p q r s] 12) ∧
  (∀ (p : BitVec 2) (q : BitVec 2) (r : BitVec 7) (s : BitVec 7), lat [.lutld p q r s] 17) ∧
  (∀ (p : BitVec 2) (q : BitVec 7) (r : BitVec 7), lat [.divsW p q r, .divuW p q r, .remsW p q r, .remuW p q r] 20) ∧
  (∀ (p : BitVec 2) (q : BitVec 7) (r : BitVec 7), lat [.divs p q r, .divu p q r, .rems p q r, .remu p q r] 36)

-- Blocks: fetch, the tile cycle and the commit (chapter 3)

/-- R27, R48, R56, R58: BLOCK_FETCH_DONE makes the checks of R48 in their order, at the lowest failing slot, and traps with nothing fired; a block
that passes them enters the window with empty operand buffers, its entry registers loaded when H is set.
Where a clause rests on the model's own choice, that is log entries 33, 38. -/
def Obligations.BlockFetchChecks : Prop :=
  ∀ (s : State) (hi : Bool) (i : Inv) (f : Fetch),
    s.core.run = some hi → (s.core.level hi).inv = some i → (s.core.level hi).fetch = some f → f.left = 0 → f.fresh = false →
    let a := f.addr.toNat
    let l := s.core.level hi
    let h := BitVec.ofNat 128 (leNat (s.bytes (tileKey s.cur a) 16))
    let ws := blockWords s (a + 16) (h.toNat % 32 + 1)
    let n := 16 + 16 * ((ws.length + 3) / 4)
    let traps (c : Cause) (k : Nat) : Prop := exec .blockFetchDone s =
      .next (takeTrap (s.setLevel hi { l with fetch := none, blk := some { newBlk s f.addr 0 [] with slots := [] } }) ⟨k, c, none, 0, 0, false, false⟩)
    let inRange := a % 16 = 0 ∧ a + n ≤ 0x7FC00 ∧ ¬(a < 0x70000 ∧ 0x60000 < a + n)
    let allowed := h.getLsbD 27 = true → i.priv = true
    let good := headerOk h ws = true ∧ ¬(f.addr = l.rstl ∧ i.aborted = true ∧ h.getLsbD 24 = false)
    (¬inRange → traps .fetchRange 0) ∧
    (inRange → ¬allowed → traps .privilege 0) ∧
    (inRange → allowed → ¬good → traps .illegalHeader 0) ∧
    (∀ k < ws.length, inRange → allowed → good → illegalOp h ws k = true → (∀ j < k, illegalOp h ws j = false) → traps .illegalOp k) ∧
    (∀ k < ws.length, inRange → allowed → good → (∀ j < ws.length, illegalOp h ws j = false) → illegalTarget ws k = true →
      (∀ j < k, illegalTarget ws j = false) → traps .illegalTarget k) ∧
    (inRange → allowed → good → (∀ j < ws.length, illegalOp h ws j = false ∧ illegalTarget ws j = false) → i.pendTrap = none →
      exec .blockFetchDone s = .next (s.setLevel hi { l with
        fetch := none
        blk := some (newBlk s f.addr h ws)
        regs := if h.getLsbD 25 then loadEntry i l.regs else l.regs
        inv := some { i with aborted := false, pendTrap := none } }))

/-- R58: the entry registers: g24 to g27 hold the token's payload words, those beyond its length 0 without poison, g28 its descriptor; no other
register changes.
R47, R59, R68, R79, R85, R86: what step 4 of the commit does to the level's registers and specials: a resolved register takes its value and
poison, a register that no WRITE names or a null one stays, the status bits of the firings and of the records that take part join the sticky ones, a call sets %link to the block behind this one,
and the generator advances once for each draw. -/
def Obligations.EntryAndCommitRegisters : Prop :=
  (∀ (i : Inv) (rs : List Reg), rs.length = 64 →
    (∀ k < 4, (loadEntry i rs)[24 + k]? = some ((i.entry[k]?).getD ⟨0, false⟩)) ∧
    (loadEntry i rs)[28]? = some ⟨i.desc, false⟩ ∧
    (∀ n, n < 24 ∨ 28 < n → (loadEntry i rs)[n]? = rs[n]?) ∧ (loadEntry i rs).length = 64) ∧
  (∀ (l : Level) (b : Blk) (acts : List Act), b.wregs.Pairwise (fun x y => x.1 ≠ y.1) → l.regs.length = 64 →
    let t := commitLevel l b acts
    t.regs.length = 64 ∧
    (∀ g r, (g, some r) ∈ b.wregs → t.regs[g.toNat]? = some r) ∧
    (∀ g : BitVec 6, (∀ w ∈ b.wregs, w.1 = g → w.2 = none) → t.regs[g.toNat]? = l.regs[g.toNat]?) ∧
    ((∀ a ∈ acts, ∀ n v, a.kind ≠ .mts n v) →
      t.fpst = l.fpst ||| b.fpst ||| actStatus acts ∧ t.seed = drawsAfter l.seed (slotDraws b.slots) ∧
      ((∀ x, b.exit ≠ some (.call x)) → t.link = l.link)) ∧
    ((∀ a ∈ acts, ∀ x, a.kind ≠ .rstl x) → t.rstl = l.rstl) ∧
    (∀ x, b.exit = some (.call x) → t.link = BitVec.ofNat 32 (b.addr.toNat + 16 + 16 * ((b.slots.length + 3) / 4))) ∧
    (∀ a v, acts = [a] → a.slot < 32 → a.kind = .mts 0x0A v → t.fpst = v.setWidth 6 ||| b.fpst) ∧
    (∀ a v, acts = [a] → a.slot < 32 → a.kind = .mts 0x09 v → t.seed = if v.setWidth 32 = (0 : BitVec 32) then 1 else v.setWidth 32))

/-- R59, R61, R64, R70, R81: RESULT_DELIVERY ends the tile cycle: the cycle count advances, the firing counts restart, a block whose conditions hold
begins its commit unless a debug stop holds it (R81), the results due by the new cycle, and no other, land in the operand buffers of their targets, both
targets of one instruction together, and neither register bank, no special and no byte of the tile field changes.
Where a clause rests on the model's own choice, that is log entries 3, 35, 140. -/
def Obligations.TileCycleEnd : Prop :=
  ∀ s, ∃ t, exec .resultDelivery s = .next t ∧ t.core.cyc = s.core.cyc + 1 ∧ t.core.fired = 0 ∧ t.core.mems = 0 ∧ t.core.decided = false ∧
    t.core.sys.stopped = (s.core.sys.stopped || s.core.sys.brk || s.core.sys.halted) ∧ BanksKept s t ∧ t.time = s.time ∧
    (∀ k < 0x1000000000000000, t.byte k = s.byte k) ∧
    (∀ b, s.blk? = some b → canCommit b = true → s.core.sys.stopped = false → s.core.sys.brk = false → s.core.sys.halted = false →
      t.blk? = some { b with phase := .committing, idle := 0, took := false }) ∧
    (∀ b, s.blk? = some b → (s.core.sys.stopped || s.core.sys.brk || s.core.sys.halted) = true → b.phase = .running →
      ∀ c, t.blk? = some c → c.phase = .running) ∧
    (∀ hi i b, s.core.run = some hi → s.inv? = some i → s.blk? = some b → i.frozen = none → b.phase = .running → canCommit b = false → b.trap = none →
      b.pend = none → b.waits = [] →
      ((∀ d ∈ b.fly, s.core.cyc + 1 < d.due) → ∃ c, t.blk? = some c ∧ c.slots = b.slots ∧ c.fly = b.fly) ∧
      ((landDue (s.core.cyc + 1) b).pend = none →
        ∃ c, t.blk? = some c ∧ c.slots = (landDue (s.core.cyc + 1) b).slots ∧ c.fly = b.fly.filter (fun d => !decide (d.due ≤ s.core.cyc + 1))) ∧
      (∀ d, b.fly = [d] → d.due ≤ s.core.cyc + 1 → d.trap = none → d.lsid = none →
        let one := landTarget b.slots d.t0 ⟨d.tok, d.anc⟩
        let two := landTarget one.1 d.t1 ⟨d.tok, d.anc⟩
        one.2 = none → two.2 = none → ∃ c, t.blk? = some c ∧ c.slots = two.1 ∧ c.fly = []))

/-- R68, R78, R81: a committing block whose effects find room runs steps 2 to 6 in order and leaves its address and exit number in the debugger's
history: one with a single tile-store write and a jump leaves the window, fetches at the target, commits its registers and writes exactly those bytes;
one that does not waits, asking for a wave when the undo space is full, and proceeds once nothing holds it; a stopped tile commits nothing, but after
the end of grace, when a block that waits for a RUNNING row slot alone is discarded (R376). An RDRAIN of the other level delivers in the same cycle.
FETCH_FRAME takes up a new fetch duty at a frame's start (R57).
Where a clause rests on the model's own choice, that is log entries 36, 51, 132, 135, 140, 156, 157, 160. -/
def Obligations.BlockCommitSteps : Prop :=
  (∀ s hi i b, s.core.run = some hi → s.inv? = some i → s.blk? = some b → b.phase = .committing → s.core.sys.stopped = false →
    ((commitHold s b).any = false → exec .blockCommit s = .next (commitExit (landDrains (commitEffects s hi i b) (!hi)) hi i b)) ∧
    ((commitHold s b).any = true → (commitHold s b).undo = false → exec .blockCommit s = .next (s.setBlk { b with phase := .commitWait })) ∧
    ((commitHold s b).undo = true → exec .blockCommit s =
      .next ((countStall (s.setBlk { b with phase := .commitWait }) (s.core.sys.part.getD 64)).askWave (s.core.sys.part.getD 64) true))) ∧
  (∀ s hi i b, s.core.run = some hi → s.inv? = some i → s.blk? = some b → b.phase = .commitWait → b.pend = none → s.core.sys.stopped = false →
    ((commitHold s b).any = false → exec .commitWaitRelease s = .next (commitExit (landDrains (commitEffects s hi i b) (!hi)) hi i b)) ∧
    ((commitHold s b).any = true → (∀ g, s.regionOf s.cur = some g → g.past = false) → exec .commitWaitRelease s = .next s)) ∧
  (∀ s hi i b g, s.core.run = some hi → s.inv? = some i → s.blk? = some b → b.phase = .commitWait → b.pend = none → s.regionOf s.cur = some g →
    g.past = true → (commitHold s b).row = true → (commitHold s b).undo = false → (commitHold s b).other = false →
    exec .commitWaitRelease s = .next (leaveWindow (discardBlock s hi) hi)) ∧
  (∀ s hi i b a o off bs, s.core.run = some hi → s.inv? = some i → s.blk? = some b → b.pend = none → s.core.sys.stopped = false → MemOk s →
    (commitHold s b).any = false → s.core.ch.outq = [] → b.acts = [] → b.exit = some (.jump a) → (∀ g, s.regionOf s.cur = some g → g.past = false) →
    b.stores = [o] → o.ready = 0 → localWrite o.op = some (off, bs) →
    ∃ t, (b.phase = .committing → exec .blockCommit s = .next t) ∧ (b.phase = .commitWait → exec .commitWaitRelease s = .next t) ∧
      (t.core.level hi).blk = none ∧ (∃ n, (t.core.level hi).fetch = some ⟨a, n, true⟩) ∧
      (t.core.level hi).regs = (commitLevel (s.core.level hi) b []).regs ∧ t.core.exits = (b.addr, b.exitNo) :: s.core.exits ∧
      (∀ j (h : j < bs.length), t.byte (tileKey s.cur off + j) = bs[j]) ∧
      (∀ k, k < tileKey s.cur off ∨ tileKey s.cur off + bs.length ≤ k → t.byte k = s.byte k)) ∧
  (∀ s, s.core.sys.stopped = true → (∀ g, s.regionOf s.cur = some g → g.past = false) →
    exec .blockCommit s = .next s ∧ exec .commitWaitRelease s = .next s) ∧
  (∀ s hi i b, (commitExit s hi i b).core.exits = (b.addr, b.exitNo) :: s.core.exits) ∧
  (∀ s d, s.core.sys.fdutyNext = some d → s.core.cyc % 16 = 0 →
    exec .fetchFrame s = .next { s with core := { s.core with sys := { s.core.sys with fduty := d, fdutyNext := none } } })

/-- R68, R391, R392: a tile-store write puts its bytes at its address, little-endian order as given, and leaves every other byte.
R68, R69: the commit of a block changes no byte of the tile field but those of its own tile store that its stores and records name.
Where a clause rests on the model's own choice, that is log entries 29, 52. -/
def Obligations.StoreWritesAndFrame : Prop :=
  (∀ (s : State) (t off : Nat) (bs : List Byte) (i : BitVec 32),
    (MemOk s → ∀ j (h : j < bs.length), (s.writeC t off bs i).byte (tileKey t off + j) = bs[j]) ∧
    (∀ k, k < tileKey t off ∨ tileKey t off + bs.length ≤ k → (s.writeC t off bs i).byte k = s.byte k)) ∧
  (∀ s b t, s.blk? = some b → exec .blockCommit s = .next t → ∀ k < 0x1000000000000000,
    (∀ o ∈ b.stores, ∀ off bs, localWrite o.op = some (off, bs) → k < tileKey s.cur off ∨ tileKey s.cur off + bs.length ≤ k) →
    t.byte k = s.byte k)

/-- R70, R142, R214, R237: the traps of time: BLOCK_DEAD after 64 idle cycles, MWIN_OVERRUN when the masked window outlives its length, WATCHDOG
when the charged time exceeds %wdlim; each at the lowest unfired slot, or once the block being fetched enters.
Where a clause rests on the model's own choice, that is log entry 34. -/
def Obligations.TimeTraps : Prop :=
  (∀ s b k sl, s.blk? = some b → 64 ≤ b.idle → b.phase = .running → b.trap = none → b.slots[k]? = some sl → sl.st = .waiting →
    (∀ j y, j < k → b.slots[j]? = some y → y.st ≠ .waiting) →
    exec .blockDead s = .next (takeTrap s ⟨k, .blockDead, none, 0, 0, false, b.exit.isSome⟩)) ∧
  (∀ s d i b k sl, s.core.mwin = some d → d ≤ s.core.cyc → s.core.run = some false → s.inv? = some i → s.blk? = some b → b.trap = none →
    b.pend = none → b.slots[k]? = some sl → sl.st ≠ .fired → (∀ j y, j < k → b.slots[j]? = some y → y.st = .fired) →
    exec .mwinOverrun s = .next (takeTrap { s with core := { s.core with mwin := none } } ⟨k, .mwinOverrun, none, 0, 0, false, false⟩)) ∧
  (∀ s d i, s.core.mwin = some d → d ≤ s.core.cyc → s.core.run = some false → s.inv? = some i → s.blk? = none →
    ∃ t, exec .mwinOverrun s = .next t ∧ t.core.mwin = none ∧ t.inv? = some { i with pendTrap := some .mwinOverrun } ∧ t.mem = s.mem) ∧
  (∀ s i b k sl, s.core.sys.wdlim.toNat < s.level.wdogNs → s.inv? = some i → i.frozen = none → i.pendTrap = none → s.blk? = some b →
    b.trap = none → b.pend = none → b.slots[k]? = some sl → sl.st ≠ .fired → (∀ j y, j < k → b.slots[j]? = some y → y.st = .fired) →
    exec .watchdog s = .next (takeTrap s ⟨k, .watchdog, none, 0, BitVec.ofNat 64 s.level.wdogNs, false, false⟩)) ∧
  (∀ s i, s.core.sys.wdlim.toNat < s.level.wdogNs → s.inv? = some i → i.frozen = none → i.pendTrap = none → s.blk? = none →
    exec .watchdog s = .next (s.setInv { i with pendTrap := some .watchdog }))

-- The dispatcher, tokens, traps and replies at a compute tile (chapters 5, 8, 10 and 14)

/-- R228 to R232: a dispatch decision that takes an enabled entry which is not joined: the lowest free tag, the retained token, the entry's actor
and privilege, %rin, the specials at their entry values, the fetch of the entry block, the pointer past the channel; neither bank's registers,
nor the other level, nor memory changes.
R71, R72, R230, R233, R384: the other decisions: an answered or aborted invocation takes the window again; a joined pair of one kind goes to
ENT, an end of stream against data to MENT or, without ME, to the stream mismatch, which rolls the domain back; each moves the pointer on.
Where a clause rests on the model's own choice, that is log entries 30, 32, 154. -/
def Obligations.DispatchDecisions : Prop :=
  (∀ (s : State) (hi : Bool) (n : Nat) (e : BitVec 128) (k : Token) (c : InChan) (tag : BitVec 8),
    decisionLevel s = some hi → (s.core.level hi).inv = none → pickEntry s.core hi = some n → mget s.core.ch.tasks n = some e →
    headTok s.core n = some k → taskJoin e = false → mget s.core.ch.ins n = some c →
    lowestTag s.core (taskAct e) (poolOf e).1 (poolOf e).2 = some tag →
    ∃ t i, exec .dispatchDecision s = .next t ∧ t.core.run = some hi ∧ (t.core.level hi).inv = some i ∧
      i.tag = tag ∧ i.chan = BitVec.ofNat 6 n ∧ i.act = taskAct e ∧ i.priv = taskPriv e ∧ i.rin = s.core.recov.rin ∧ i.frozen = none ∧
      i.aborted = false ∧ i.sealw = false ∧ i.ent = taskEnt e ∧ i.toks = [(n, k)] ∧ i.entry = (List.range 4).map (wordReg k) ∧
      (t.core.level hi).link = 0xFFFFFFFF ∧ (t.core.level hi).rstl = 0xFFFFFFFF ∧ (t.core.level hi).wdog = 0 ∧ (t.core.level hi).blk = none ∧
      (t.core.level hi).fetch = some ⟨taskEnt e, fetchCycles s (taskEnt e), true⟩ ∧ (t.core.level hi).rr = (n + 1) % 64 ∧
      (t.core.level hi).regs = (s.core.level hi).regs ∧ (t.core.level hi).fpst = (s.core.level hi).fpst ∧
      t.core.level (!hi) = s.core.level (!hi) ∧ t.core.decided = true ∧ t.core.ch.held = (taskAct e, tag) :: s.core.ch.held ∧
      mget t.core.ch.ins n = some { c with queue := c.queue.drop 1, taken := c.taken + 1 } ∧ t.mem = s.mem) ∧
  ((∀ s hi i, decisionLevel s = some hi → (s.core.level hi).inv = some i → i.aborted = true →
    exec .dispatchDecision s = .next (startFetch { s with core := { s.core with run := some hi, decided := true } } hi
      (if (s.core.level hi).rstl = 0xFFFFFFFF then i.ent else (s.core.level hi).rstl))) ∧
  (∀ s hi i f, decisionLevel s = some hi → (s.core.level hi).inv = some i → i.aborted = false → (s.core.level hi).fetch = some f →
    exec .dispatchDecision s = .next (startFetch { s with core := { s.core with run := some hi, decided := true } } hi f.addr)) ∧
  (∀ s hi n e k u, decisionLevel s = some hi → (s.core.level hi).inv = none → pickEntry s.core hi = some n → mget s.core.ch.tasks n = some e →
    headTok s.core n = some k → taskJoin e = true → headTok s.core (taskPart e) = some u →
    (isEos k = isEos u ∨ taskMe e = true → (lowestTag s.core (taskAct e) (poolOf e).1 (poolOf e).2).isSome = true →
      ∃ t i, exec .dispatchDecision s = .next t ∧ t.core.run = some hi ∧ (t.core.level hi).inv = some i ∧
        i.ent = (if isEos k = isEos u then taskEnt e else taskMent e) ∧ i.act = taskAct e ∧ i.toks = [(n, k), (taskPart e, u)] ∧
        i.entry = [wordReg k 0, wordReg k 1, wordReg u 0, wordReg u 1] ∧ (t.core.level hi).rr = (n + 1) % 64 ∧ t.mem = s.mem) ∧
    (isEos k ≠ isEos u → taskMe e = false → (s.core.sys.part.getD 64, Cause.streamMismatch, s.cur * 64 + n) ∉ s.replays →
      ∃ t, exec .dispatchDecision s = .next t ∧ t.agenda.head?.map (fun i => i.step) = some .rollback ∧ (t.core.level hi).rr = (n + 1) % 64 ∧
        (t.core.level hi).inv = none ∧ t.core.ch.ins = s.core.ch.ins)) ∧
  (∀ s, decisionLevel s = none → exec .dispatchDecision s = .next s))

/-- R224, R226, R227, R229, R276, R277, R281: what reaches a compute tile's channels: the decision of the cycle comes first; a data token joins its queue, one on an invalid entry becomes a
BAD_CHANNEL notice; a returned tag is free again; an acknowledgement and a credit give an output one credit more.
R210, R238, R371, R372, R456: the trap pool grants or queues a request; the oldest trap token leaves with its grant; ERES clears the freeze and
fetches the block again, EKILL ends the invocation with its tag; an answer that names no frozen invocation counts in %stale; a region in SAVE and
a suspended context hold the first answer for a handle, and at a tile that no phase has configured a request waits.
Where a clause rests on the model's own choice, that is log entries 95, 98. -/
def Obligations.TokensCreditsAndTraps : Prop :=
  ((∀ s t, exec .dispatchDecision s = .next t → noteArrival s = { t with core := { t.core with decided := true } }) ∧
  (∀ s m u c pos k i e, oldest s isTileToken m → s.agent < 0x10000 → m.body = .token c pos k → u = noteArrival (without s m) →
    mget u.core.ch.ins c.toNat = some i → mget u.core.ch.tasks c.toNat = some e → taskV e = true → k.kind.getLsbD 3 = false → i.discard = false →
    i.awaited = true → i.border = none → (∀ b, i.src ≠ .object b) →
    ∃ t, exec .tokenArrival s = .next t ∧
      mget t.core.ch.ins c.toNat = some { i with queue := i.queue ++ [(i.pos, k)], pos := i.pos + 1 } ∧
      t.core.ch.tasks = u.core.ch.tasks ∧ t.core.ch.outs = u.core.ch.outs ∧ t.core.l0 = u.core.l0 ∧ t.core.l1 = u.core.l1 ∧ t.mem = s.mem) ∧
  (∀ s m u c pos k, oldest s isTileToken m → s.agent < 0x10000 → m.body = .token c pos k → u = noteArrival (without s m) →
    mget u.core.ch.ins c.toNat = none → exec .tokenArrival s = .next (tileNotice u .badChannel (BitVec.ofNat 32 c.toNat) 0)) ∧
  (∀ act tag, ArrivesMsg .tagReturnToken isTret (fun s m => m.body = .tret act tag ∧ (act, tag) ∈ s.core.ch.taga)
    (fun s _ => s.modCh (fun c => { c with taga := c.taga.filter (fun x => !(x.1 == act && x.2 == tag)) }))) ∧
  (∀ act tag, ArrivesMsg .tagReturnToken isTret (fun s m => m.body = .tret act tag ∧ (act, tag) ∉ s.core.ch.taga)
    (fun s _ => tileNotice s .badTag (BitVec.ofNat 32 tag.toNat) 0)) ∧
  (∀ act k o, ArrivesMsg .legacyAck isAck (fun s m => m.body = .ack act k ∧ mget s.core.ch.outs (act * 8 + k) = some o)
    (fun s _ => s.modCh (fun c => { c with outs := mset c.outs (act * 8 + k) { o with credits := o.credits + 1 } }))) ∧
  (∀ s m act k o, oldest s isTileCredit m → s.agent < 0x10000 → m.body = .credit act k → mget s.core.ch.outs (act * 8 + k) = some o →
    exec .creditReturn s = .next ((without s m).modCh (fun c => { c with outs := mset c.outs (act * 8 + k) { o with credits := o.credits + 1 } })))) ∧
  ((∀ c lv i, TakesMsg .trapCreditRequest isTrapAsk
    (fun s m => s.core.sys.part.isSome = true ∧ m.body = .trapAsk c lv ∧ mget s.core.ch.ins c.toNat = some i ∧ i.src = .trap ∧ i.trapFree ≠ 0)
    (fun s m => (s.modCh (fun ch => { ch with ins := mset ch.ins c.toNat { i with trapFree := i.trapFree - 1 } })).send s.cur m.src m.org .trapGrant)) ∧
  (∀ c lv i, TakesMsg .trapCreditRequest isTrapAsk
    (fun s m => s.core.sys.part.isSome = true ∧ m.body = .trapAsk c lv ∧ mget s.core.ch.ins c.toNat = some i ∧ i.src = .trap ∧ i.trapFree = 0)
    (fun s m => s.modCh (fun ch => { ch with ins := mset ch.ins c.toNat { i with asks := i.asks ++ [m.src] } }))) ∧
  (∀ s, s.core.sys.part = none → exec .trapCreditRequest s = .next s) ∧
  (∀ s m n r, noticesOf s s.agent = n :: r → oldest s isTrapGrant m → s.agent = s.cur → isCTile s.cur = true → s.cur < 0x10000 →
    ∃ t, exec .trapTokenSend s = .next t ∧ t.core.ch.traps = r ∧ t.core.sys.trapcnt = s.core.sys.trapcnt + 1 ∧ t.mem = s.mem) ∧
  (∀ s n r, noticesOf s s.agent = n :: r → (∀ m ∈ mgetD s.inbox s.agent [], m.body ≠ .trapGrant) → n.asked = false →
    exec .trapTokenSend s = .next ((setNotices s s.agent ({ n with asked := true } :: r)).send s.agent ((supvOf s n).toNat % 2 ^ 16)
      { s.origin 0 0 with tile := s.agent, part := noticePart s n, rin := n.rin } (.trapAsk ((supvOf s n).extractLsb' 16 6) n.lvl))) ∧
  (∀ s m h hi i b, oldest s isAnswer m → m.body = .answer false h → frozenLevel s.core h = some hi → (s.core.level hi).inv = some i →
    (s.core.level hi).blk = some b → (∀ r, s.regionOf s.cur = some r → r.past = false) →
    ∃ t f, exec .trapAnswerArrival s = .next t ∧ (t.core.level hi).inv = some { i with frozen := none } ∧ (t.core.level hi).blk = none ∧
      (t.core.level hi).fetch = some f ∧ f.addr = b.addr ∧ t.core.level (!hi) = s.core.level (!hi) ∧ BanksKept s t ∧ t.mem = s.mem) ∧
  (∀ s m h hi i, oldest s isAnswer m → m.body = .answer true h → frozenLevel s.core h = some hi → (s.core.level hi).inv = some i →
    (∀ r, s.regionOf s.cur = some r → r.st ≠ .save) →
    ∃ t, exec .trapAnswerArrival s = .next t ∧ (t.core.level hi).inv = none ∧ (t.core.level hi).blk = none ∧ (t.core.level hi).fetch = none ∧
      (i.act, i.tag) ∉ t.core.ch.held ∧ BanksKept s t ∧ t.mem = s.mem) ∧
  (∀ kill h, TakesMsg .trapAnswerArrival isAnswer
    (fun s m => m.body = .answer kill h ∧ frozenLevel s.core h = none ∧ suspendedFor s s.cur h = none)
    (fun s _ => { s with core := { s.core with sys := { s.core.sys with stale := s.core.sys.stale + 1 } } })) ∧
  (∀ kill h k r, TakesMsg .trapAnswerArrival isAnswer
    (fun s m => m.body = .answer kill h ∧ (frozenLevel s.core h).isSome ∧ s.regionKey s.cur = some k ∧ s.regionOf s.cur = some r ∧ r.st = .save ∧
      ∀ x ∈ r.answers, x.2.2 ≠ h)
    (fun s _ => reRecord { s with regions := mset s.regions k { r with answers := r.answers ++ [(s.cur, kill, h)] } } k)) ∧
  (∀ kill h k r, TakesMsg .trapAnswerArrival isAnswer
    (fun s m => m.body = .answer kill h ∧ (frozenLevel s.core h).isSome ∧ s.regionKey s.cur = some k ∧ s.regionOf s.cur = some r ∧ r.st = .save ∧
      ∃ x ∈ r.answers, x.2.2 = h)
    (fun s _ => { s with core := { s.core with sys := { s.core.sys with stale := s.core.sys.stale + 1 } } })) ∧
  (∀ kill h k n, TakesMsg .trapAnswerArrival isAnswer
    (fun s m => m.body = .answer kill h ∧ frozenLevel s.core h = none ∧ suspendedFor s s.cur h = some (k, n))
    (fun s _ => holdSaved s k n s.cur kill h)) ∧
  (∀ (v : Saved) t kill h, (∀ x ∈ v.answers, x.2.2 ≠ h) → v.hold t kill h = { v with answers := v.answers ++ [(t, kill, h)] }))

/-- R65, R66, R67, R69, R122, R123, R125, R130, R132, R212: replies: a value lands in the slot that is owed it once its least latency has passed,
an error traps there with the address it was given, unless a slot can still fire in that cycle: then the trap waits for the end of the cycle's
firings; a reply that no block is owed is discarded; a report after the commit becomes a class P notice with the address its operation was given; HALT stops and releases the tile.
Where a clause rests on the model's own choice, that is log entries 35, 40, 41, 150. -/
def Obligations.RepliesAndReports : Prop :=
  (∀ v p err, TakesMsg .loadReply isReply (fun s m => m.body = .reply v p err ∧ owedLevel s.core m.id = none ∧ ∀ o ∈ s.core.ch.sc, o.id ≠ m.id)
    (fun s _ => s)) ∧
  Replies .loadReply isReply (fun v p err => .reply v p err) id
    (fun o v => loaded o.sx o.size (leNat (fillBytes o.fwd (leBytes o.size v.toNat)))) scDone ∧
  (∀ v err, TakesMsg .atomicReply isAtomReply (fun s m => m.body = .atomReply v err ∧ owedLevel s.core m.id = none) (fun s _ => s)) ∧
  Replies .atomicReply isAtomReply (fun v _ err => .atomReply v err) (fun _ => false) (fun _ v => v) (fun s _ => s) ∧
  (∀ s b i, s.blk? = some b → s.inv? = some i → (b.pend = none → takePending s = s) ∧ (∀ k, pickSlot s = some k → takePending s = s) ∧
    (∀ x, b.pend = some x → pickSlot s = none → i.frozen = none → b.trap = none → b.phase ≠ .committing → takePending s = takeTrap s x)) ∧
  (∀ c a p, TakesMsg .postCommitReport isReport
    (fun s m => m.body = .report c a ∧ s.core.ch.perf.find? (fun x => x.id == m.id) = some p)
    (fun s m => reportNotice (s.performed m) m c p.a)) ∧
  (∀ s m c a, s.core.sys.supv.toNat % 0x10000 ≠ 0xFFFF → (s.core.ch.traps.filter (fun q => q.lvl.isNone)).length < 6 →
    ∃ x, (reportNotice s m c a).core.ch.traps = s.core.ch.traps ++ [x] ∧ x.lvl = none ∧ x.words[3]? = some a ∧ x.rin = m.org.rin ∧
      x.words[0]? = some (trapHandle s.cur m.org.lvl m.org.tag) ∧ (x.words[1]?).map (fun w => w.toNat % 256) = some (c.code % 256)) ∧
  TakesMsg .haltArrival isHalt (fun _ m => m.body = .halt true)
    (fun s _ => { s with core := { s.core with sys := { s.core.sys with halted := false, brk := false, stopped := false } } }) ∧
  TakesMsg .haltArrival isHalt (fun _ m => m.body = .halt false)
    (fun s _ => { s with core := { s.core with sys := { s.core.sys with halted := true } } })

/-- R135, R141: the SC ring token performs the tile's next operation, committed stores first, unless 16 are done or the queue is empty, then it
passes on, to the next live compute tile of the partition's rectangle or after the last back to the first; an operation elsewhere is sent and the
token waits; an acknowledgement frees the operation; a barrier line that no live tile of the region holds completes for all of them.
R201, R215, R218: one update of a barrier object: ARR counts up, and at EX it returns to 0 with GEN one higher and a token where the object asks
for one; and the end of the waits of XFLUSH and ECNT, whose value 0 lands.
Where a clause rests on the model's own choice, that is log entry 45. -/
def Obligations.RingBarriersAndWaits : Prop :=
  ((∀ s p q o, s.parts.find? (fun x => x.2.ring == s.cur) = some (p, q) → s.live s.cur = true → (∀ x ∈ s.core.ch.sc, x.sent = false) →
    s.core.ch.scSpent < 16 → (s.core.ch.sc.find? (fun x => x.data.isSome) = some o ∨
      (s.core.ch.sc.head? = some o ∧ ∀ x ∈ s.core.ch.sc, x.data = none)) →
    (∀ d, o.data = some d → o.a.toNat < 0x80000 → ∃ t, exec .scRingToken s = .next t ∧
      BytesAt s t (tileKey s.cur o.a.toNat) (leBytes 8 d.toNat) ∧ t.core.ch.scSpent = s.core.ch.scSpent + 1 ∧ ∀ x ∈ t.core.ch.sc, x.id ≠ o.id) ∧
    (o.data = none → o.a.toNat < 0x80000 → ∃ t, exec .scRingToken s = .next t ∧ t.mem = s.mem ∧
      t.core.ch.scSpent = s.core.ch.scSpent + 1 ∧ ∀ x ∈ t.core.ch.sc, x.id ≠ o.id) ∧
    (0x80000 ≤ o.a.toNat → ∃ t m, exec .scRingToken s = .next t ∧ t.mem = s.mem ∧ { o with sent := true } ∈ t.core.ch.sc ∧
      t.core.ch.scSpent = s.core.ch.scSpent ∧ (m ∈ t.net ∨ m ∈ mgetD t.inbox s.cur []) ∧ m.id = o.id ∧ m.org = o.org)) ∧
  (∀ s p q, s.parts.find? (fun x => x.2.ring == s.cur) = some (p, q) →
    s.live s.cur = false ∨ ((∀ x ∈ s.core.ch.sc, x.sent = false) ∧ (16 ≤ s.core.ch.scSpent ∨ s.core.ch.sc = [])) →
    (∀ n, s.cur < n → n ≤ tileId 131 (4 * q.iy1 + 3) → ringTile s q n = true → (∀ j, s.cur < j → j < n → ringTile s q j = false) →
      ∃ t, exec .scRingToken s = .next t ∧ (mget t.parts p).map Partition.ring = some n ∧ t.mem = s.mem) ∧
    ((∀ j, s.cur < j → j ≤ tileId 131 (4 * q.iy1 + 3) → ringTile s q j = false) → ringPort s p = none →
      ∃ t, exec .scRingToken s = .next t ∧ (mget t.parts p).map Partition.ring = some ((ringFirst s q).getD ringAway) ∧ t.mem = s.mem)) ∧
  (∀ s p q o, s.parts.find? (fun x => x.2.ring == s.cur) = some (p, q) → s.live s.cur = true → o ∈ s.core.ch.sc → o.sent = true →
    exec .scRingToken s = .next s) ∧
  (∀ s m, oldest s isScAck m → m.body = .scAck none → m.src < 0x20000 → m.org.tile = s.cur → s.aliasOf s.cur = s.cur → isCTile s.cur = true →
    inField s.cur = true → ∃ t, exec .scstAcknowledge s = .next t ∧ (∀ x ∈ t.core.ch.sc, x.id ≠ m.id) ∧ (∀ x ∈ t.core.ch.perf, x.id ≠ m.id) ∧
      t.mem = s.mem) ∧
  (∀ s k, s.regionKey s.cur = some k → holdsLine s.core (BitVec.ofNat 3 s.inp.n) = false →
    (∀ x ∈ s.tiles, inRegion k x.2 = true → s.live x.1 = true → holdsLine x.2 (BitVec.ofNat 3 s.inp.n) = false) →
    exec .barrierLineComplete s = .next { s with
      core := lineAgain s.core (BitVec.ofNat 3 s.inp.n)
      tiles := s.tiles.map (fun x => if inRegion k x.2 then (x.1, lineAgain x.2 (BitVec.ofNat 3 s.inp.n)) else x) }) ∧
  (∀ s k x, s.regionKey s.cur = some k → x ∈ s.tiles → inRegion k x.2 = true → s.live x.1 = true → holdsLine x.2 (BitVec.ofNat 3 s.inp.n) = true →
    exec .barrierLineComplete s = .next s)) ∧
  ((∀ arr ex gen hi : Nat, arr < 2 ^ 32 → ex < 2 ^ 32 → gen < 2 ^ 32 → hi < 2 ^ 32 →
    bobjUpdate (arr + ex * 2 ^ 32 + gen * 2 ^ 64 + hi * 2 ^ 96) false =
      if ex ≠ 0 ∧ (arr + 1) % 2 ^ 32 = ex then
        (ex * 2 ^ 32 + (gen + 1) % 2 ^ 32 * 2 ^ 64 + hi * 2 ^ 96,
          if hi / 2 ^ 9 % 2 = 1 then some (BitVec.ofNat 6 (hi / 2 ^ 10), BitVec.ofNat 64 ((gen + 1) % 2 ^ 32)) else none)
      else ((arr + 1) % 2 ^ 32 + ex * 2 ^ 32 + gen * 2 ^ 64 + hi * 2 ^ 96, none)) ∧
  (∀ b err, TakesMsg .barrierObjectUpdate isBobj
    (fun s m => m.body = .bobj b err ∧ s.core.recov.slotsUsed < 1024 ∧
      (bobjUpdate (leNat (s.bytes (tileKey s.cur (0x7FC00 + 16 * b.toNat)) 16)) err).2 = none)
    (fun s m => s.writeC s.cur (0x7FC00 + 16 * b.toNat)
      (leBytes 16 (bobjUpdate (leNat (s.bytes (tileKey s.cur (0x7FC00 + 16 * b.toNat)) 16)) err).1) m.org.rin)) ∧
  (∀ s hi b w x, s.core.run = some hi → (s.core.level hi).blk = some b → (s.core.level (!hi)).blk = none → b.waits = [w] →
    w.what = .xflush s.inp.n → wordInfo ((b.slots[w.slot]?).getD (emptySlot 0)).word = some x →
    let d := landDeliv { b with waits := [] } ⟨s.core.cyc, w.slot, x.2.t0, x.2.t1, .val 0 false, w.anc, none, none⟩
    d.pend = none → exec .xflushDone s = .next (s.setLevel hi { s.core.level hi with blk := some d })) ∧
  (∀ s hi b w x a bs, s.core.run = some hi → (s.core.level hi).blk = some b → (s.core.level (!hi)).blk = none → b.waits = [w] →
    w.what = .record a bs → wordInfo ((b.slots[w.slot]?).getD (emptySlot 0)).word = some x →
    let d := landDeliv { b with waits := [], stores := b.stores ++ [⟨w.slot, none, .record a bs, w.anc, s.core.cyc⟩] }
      ⟨s.core.cyc, w.slot, x.2.t0, x.2.t1, .val 0 false, w.anc ||| (1#32 <<< w.slot), none, none⟩
    d.pend = none → exec .ecntRecordReady s = .next (s.setLevel hi { s.core.level hi with blk := some d })))

-- The row array, the matrix unit and the engines at work (chapters 6 to 8 and 12)

-- Memory tiles, remote stores and the translating interfaces (chapters 5, 7, 11 and 14)

/-- R165, R173, R169, R330, R331, R335: the row array's steps. A frozen array only lets elements land; a slot that is not RUNNING keeps what it holds; a
running slot that holds no row and admits nothing takes what lands; a round gives each row its holder and resets or ages the candidates; a
complete slot returns to LOADED without residue but with the status of every lane that fired, and the RDRAINs that waited for it deliver in that
cycle; a slot stalled for 256 cycles sends its notice once.
Where a clause rests on the model's own choice, that is log entries 56, 57, 58, 134. -/
def Obligations.RowArraySteps : Prop :=
  (∀ s, rowFrozen s = true → exec .rowArrayCycle s = .next { s with core := { s.core with row := { s.core.row with
    slots := s.core.row.slots.map (fun r => if r.st = .running then landRow s.core.cyc r else r) } } }) ∧
  (∀ s, rowFrozen s = false → s.core.row.slots.length = 4 → ∃ t, exec .rowArrayCycle s = .next t ∧ t.mem = s.mem ∧ t.core.l0 = s.core.l0 ∧
    t.core.l1 = s.core.l1 ∧ t.core.row.holders = s.core.row.holders ∧
    (∀ (q : Nat) r, s.core.row.slots[q]? = some r → r.st ≠ .running → t.core.row.slots[q]? = some { r with stall := 0, stallSent := false }) ∧
    (∀ (q : Nat) r, s.core.row.slots[q]? = some r → r.st = .running → r.allow = some 0 → (∀ h ∈ s.core.row.holders, h = none) →
      exitReady (landRow s.core.cyc r) = false →
      t.core.row.slots[q]? = some { landRow s.core.cyc r with stall := 0, stallSent := false })) ∧
  (∀ s, s.core.cyc % 16 = 0 → ∃ t, exec .rowRound s = .next t ∧ t.mem = s.mem ∧
    t.core.row.holders = [chooseHolder s.core 0, chooseHolder s.core 1, chooseHolder s.core 2, chooseHolder s.core 3] ∧
    (∀ row < 4, t.core.row.bubble[row]? = some (decide (chooseHolder s.core row ≠ (s.core.row.holders[row]?).getD none))) ∧
    (∀ (q : Nat) r row, s.core.row.slots[q]? = some r → r.ages.length = 4 → row < 4 →
      ∃ u, t.core.row.slots[q]? = some u ∧ u.queues = r.queues ∧ u.st = r.st ∧
        u.ages[row]? = some (if isCandidate s.core.ports r row then (if chooseHolder s.core row = some q then 0 else min ((r.ages[row]?).getD 0 + 1) 255)
          else (r.ages[row]?).getD 0))) ∧
  (∀ s r, s.core.row.slots[s.inp.n]? = some r → slotComplete r = true →
    let loaded := { s with core := { s.core with row := { s.core.row with slots := s.core.row.slots.set s.inp.n { r with
      st := .loaded, queues := [], fly := [], accs := [], ages := [0, 0, 0, 0], stall := 0, stallSent := false
      sticky := (r.marks.filter (fun m => decide (m.1 ≤ s.core.cyc + 16))).foldl (fun b m => b ||| m.2) r.sticky, marks := [] } } } }
    exec .rowSlotCompletion s = .next (takePending (landDrains (landDrains loaded false) true))) ∧
  (∀ s hi b i w x, (s.core.level hi).blk = some b → (s.core.level hi).inv = some i → i.frozen = none → b.phase ≠ .committing → b.waits = [w] →
    (∃ q, w.what = .rowIdle q ∧ drained s q = some x) → ∀ f, wordInfo ((b.slots[w.slot]?).getD (emptySlot 0)).word = some f →
    landDrains s hi = s.setLevel hi { s.core.level hi with
      blk := some (landDeliv { b with waits := [] } ⟨s.core.cyc, w.slot, f.2.t0, f.2.t1, .val x false, w.anc, none, none⟩) }) ∧
  (∀ s r, s.core.row.slots[s.inp.n]? = some r → r.st = .running → 256 ≤ r.stall → r.stallSent = false →
    exec .rowStall s = .next (tileNotice { s with core := { s.core with row := { s.core.row with
      slots := s.core.row.slots.set s.inp.n { r with stallSent := true } } } } .rowStall (BitVec.ofNat 32 s.inp.n) 0))

/-- R178, R183, R184, R186, R188, R336 to R338, R359: the matrix queue's steps. The oldest operation that may begin begins; LUTSEL and MFADE take
effect then; an operation ends when its cycles have passed and the undo space is there; MCLR leaves its bank +0 and its LOST bit clear; an MMAS
takes the stages when they are free and up to 64 bytes of each of its ports a cycle; MLDA leaves the words it read in its bank, and MDRAIN its bytes
where its descriptor says; a ballast pass takes the edges for 64 cycles while a deficit is owed.
Where a clause rests on the model's own choice, that is log entries 59, 138. -/
def Obligations.MatrixSteps : Prop :=
  (∀ s x, s.core.mx.queue.find? (fun o => o.began.isNone) = some x → (s.core.mx.queue.map (fun o => o.id)).Nodup →
    mayBegin s.core.mx (s.core.mx.queue.takeWhile (fun o => o.began.isSome)) x s.core.cyc = true →
    ∃ t o, exec .matrixOpBegin s = .next t ∧ o ∈ t.core.mx.queue ∧ o.id = x.id ∧ o.kind = x.kind ∧ o.began = some s.core.cyc ∧ t.mem = s.mem) ∧
  (∀ s x k, s.core.mx.queue = [x] → x.began = none → x.kind = .lutsel k →
    ∃ t, exec .matrixOpBegin s = .next t ∧ t.core.mx.lut = k ∧ t.core.mx.banks = s.core.mx.banks ∧ t.core.mx.fade = s.core.mx.fade) ∧
  (∀ s x b f, s.core.mx.queue = [x] → x.began = none → x.kind = .mfade b f →
    ∃ t, exec .matrixOpBegin s = .next t ∧ t.core.mx.fade = s.core.mx.fade.set b.toNat f ∧ t.core.mx.banks = s.core.mx.banks ∧
      t.core.mx.lut = s.core.mx.lut) ∧
  (∀ s x b, s.core.mx.queue = [x] → x.began = some b → b + mxLasts x.kind ≤ s.core.cyc → endHasSpace s x = true →
    exec .matrixOpEnd s = .next (endOp s x)) ∧
  (∀ s x b n, s.core.mx.queue = [x] → x.began = some b → b + 64 ≤ s.core.cyc → endHasSpace s x = true → x.kind = .mclr n →
    ∃ t, exec .matrixOpEnd s = .next t ∧ bankVals t.core.mx n.toNat = List.replicate 4096 0 ∧ t.core.mx.queue = [] ∧
      t.core.mx.lost.getLsbD n.toNat = false ∧ (∀ m : Nat, m ≠ n.toNat → bankVals t.core.mx m = bankVals s.core.mx m) ∧ t.mem = s.mem) ∧
  (∀ s x b n a bs z, s.core.mx.queue = [x] → x.began = some b → b + 256 ≤ s.core.cyc → endHasSpace s x = true → x.kind = .mlda n a →
    x.staged = some (bs, z) →
    ∃ t, exec .matrixOpEnd s = .next t ∧ bankVals t.core.mx n.toNat = words32 bs 4096 ∧ t.core.mx.queue = [] ∧
      t.core.mx.lost.getLsbD n.toNat = false ∧ (∀ m : Nat, m ≠ n.toNat → bankVals t.core.mx m = bankVals s.core.mx m) ∧ t.mem = s.mem) ∧
  (∀ s x b f k rm d factor, s.core.mx.queue = [x] → x.began = some b → b + ((drainBytes f + 63) / 64 + 12) ≤ s.core.cyc → endHasSpace s x = true →
    x.kind = .mdrain f k rm d factor → ∀ bs, bs = (drainResult f (rm2 rm) factor (bankVals s.core.mx k.toNat)).1 →
    ∃ t, exec .matrixOpEnd s = .next t ∧ BytesAt s t (tileKey s.cur (d.toNat % 2 ^ 19)) bs ∧ t.core.mx.queue = [] ∧
      t.core.mx.banks = s.core.mx.banks) ∧
  (∀ s x r b, s.core.mx.queue = x :: r → x.began = some b → (∀ o ∈ s.core.mx.queue, ∀ c, o.began = some c → s.core.cyc < c + mxLasts o.kind) →
    exec .matrixOpEnd s = .next s) ∧
  (∀ s x, s.core.mx.queue.find? (fun o => o.began.isNone && isMmas o.kind) = some x → x.staged = none → s.core.mx.staging = none →
    s.core.mx.stageFree ≤ s.core.cyc → exec .mmasStagingStart s =
      .next (stageCycle { s with core := { s.core with mx := { s.core.mx with staging := some (x.id, [], []) } } } x)) ∧
  (∀ s x st, s.core.mx.queue.find? (fun o => o.began.isNone && isMmas o.kind) = some x → x.staged = none → s.core.mx.staging = some st →
    exec .mmasStagingStart s = .next (stageCycle s x)) ∧
  (∀ s x a b fa fb da db, s.core.mx.queue.find? (fun o => o.began.isNone && isMmas o.kind) = some x → x.staged = none →
    x.kind = .pass true fa fb da db → s.core.mx.staging = some (x.id, a, b) → da.toNat % 8 ≠ db.toNat % 8 → s.core.ports.length = 8 →
    ∃ t, exec .mmasStagingStart s = .next t ∧ t.mem = s.mem ∧
      (∀ q n, q = s.port (da.toNat % 8) → n = min q.buf.length (min 64 (operandBytes fa (mxK da) - a.length)) →
        t.port (da.toNat % 8) = q.drop n) ∧
      (∀ q n, q = s.port (db.toNat % 8) → n = min q.buf.length (min 64 (operandBytes fb (mxK da) - b.length)) →
        t.port (db.toNat % 8) = q.drop n)) ∧
  (∀ s, s.core.mx.queue = [] → s.head.ballast ≠ 0 → (∀ b, s.core.mx.ballast = some b → b ≤ s.core.cyc) →
    ∃ t, exec .ballastPass s = .next t ∧ t.core.mx = { s.core.mx with ballast := some (s.core.cyc + 64) } ∧ t.mem = s.mem ∧
      t.head.ballast = s.head.ballast - 80 * (s.island (islandNo s.cur)).v * (s.island (islandNo s.cur)).v) ∧
  (∀ s, s.core.mx.queue ≠ [] ∨ s.head.ballast = 0 → exec .ballastPass s = .next s)

/-- R191, R194, R196, R197, R199 to R202, R205: the engines: a stream in from the tile's own store moves a run of bytes into its port; a binding that has moved
every byte ends, the pending one follows and the SIG token leaves, and commands that wait for its segment are looked at; an error ends both, empties
an OUT port and sets FAULT. A copy reads a chunk within one line at either end, writes it in the next beat and, with its last byte, ends and has its
barrier object updated. A generator of a memory tile requests a run of its source in its tile's frame, writes what came, and ends with the last byte;
its tile frees it then. Stopped engines move nothing.
Where a clause rests on the model's own choice, that is log entries 54, 55, 165, 176, 181. -/
def Obligations.EngineSteps : Prop :=
  (∀ s p b, s.agent = s.cur → (∀ m ∈ mgetD s.inbox s.agent [], isEngReply m.body = false) → enginesStopped s s.agent = false →
    s.core.copies = [] → p < 8 → p < s.core.ports.length → (s.port p).active = some b → (∀ n, n ≠ p → (s.port n).active = none) →
    b.out = false → b.wait = false → b.moved < apBytes b.ap → (s.port p).buf.length < 512 →
    ∀ n, n = apRun b.ap b.moved (min (512 - (s.port p).buf.length) (apBytes b.ap - b.moved)) →
    (apAddr b.ap b.moved).toNat < 0x80000 → touchesUndo (apAddr b.ap b.moved).toNat n = false →
    s.isBad (tileKey s.cur (apAddr b.ap b.moved).toNat) n = none →
    ∃ t, exec .engineBeat s = .next t ∧ t.mem = s.mem ∧
      t.port p = { s.port p with buf := (s.port p).buf ++ s.bytes (tileKey s.cur (apAddr b.ap b.moved).toNat) n
                                 active := some { b with moved := b.moved + n } }) ∧
  (∀ s, (∀ m ∈ mgetD s.inbox s.agent [], isEngReply m.body = false) → enginesStopped s s.agent = true → exec .engineBeat s = .next s) ∧
  (∀ s x off n, s.agent = s.cur → (∀ m ∈ mgetD s.inbox s.agent [], isEngReply m.body = false) → enginesStopped s s.agent = false →
    (∀ p, (s.port p).active = none) → s.core.copies = [x] → x.wait = false → x.moved < x.len → n = copyChunk x →
    (x.buf = [] → off = (x.src + BitVec.ofNat 64 x.moved).toNat → off < 0x80000 → touchesUndo off n = false →
      s.isBad (tileKey s.cur off) n = none →
      ∃ t, exec .engineBeat s = .next t ∧ t.core.copies = [{ x with buf := s.bytes (tileKey s.cur off) n }] ∧ t.mem = s.mem) ∧
    (x.buf ≠ [] → off = (x.dst + BitVec.ofNat 64 x.moved).toNat → off < 0x80000 → touchesUndo off n = false → s.core.recov.slotsUsed < 1024 →
      x.moved + x.buf.length < x.len →
      ∃ t, exec .engineBeat s = .next t ∧ BytesAt s t (tileKey s.cur off) x.buf ∧
        t.core.copies = [{ x with moved := x.moved + x.buf.length, buf := [], held := false }]) ∧
    (x.buf ≠ [] → off = (x.dst + BitVec.ofNat 64 x.moved).toNat → off < 0x80000 → touchesUndo off n = false → s.core.recov.slotsUsed < 1024 →
      x.len ≤ x.moved + x.buf.length →
      (∀ a b, placeOf s x.src = some a → placeOf s x.dst = some b → a.1 = b.1 → overlaps a.2 x.len b.2 x.len = false) →
      ∃ t, exec .engineBeat s = .next t ∧ BytesAt s t (tileKey s.cur off) x.buf ∧ t.core.copies = [] ∧
        ∀ b, x.sig = some b → ∃ m, (m ∈ t.net ∨ m ∈ mgetD t.inbox s.cur []) ∧ m.dst = copyReceiver s x.dst ∧ m.body = .bobj b false)) ∧
  (∀ s x n, s.agent ≠ s.cur → (∀ m ∈ mgetD s.inbox s.agent [], isEngReply m.body = false) → enginesStopped s s.agent = false →
    (s.mt s.agent).gens = [x] → x.wait = false →
    n = min (apRun x.src x.moved (apBytes x.src - x.moved)) (apRun x.dst x.moved (apBytes x.dst - x.moved)) →
    (apBytes x.src ≤ x.moved → exec .engineBeat s = .next (endGen s s.agent x none)) ∧
    (x.moved < apBytes x.src → x.buf = [] → storeAhead s s.agent x = false →
      exec .engineBeat s = .next ((s.setMt s.agent { s.mt s.agent with gens := [{ x with wait := true }] }).requestFrom s.agent x.tile
        { x.org with rin := ((s.tile? (s.aliasOf x.tile)).map (fun c => c.recov.rin)).getD x.org.rin } (apAddr x.src x.moved)
        (fun a => .engRead (.gen x.g.toNat) a n) (fun c => .engData (.gen x.g.toNat) [] false (some c)))) ∧
    (x.moved < apBytes x.src → x.buf = [] → storeAhead s s.agent x = true → exec .engineBeat s = .next s) ∧
    (x.moved < apBytes x.src → x.buf ≠ [] →
      exec .engineBeat s = .next ((s.setMt s.agent { s.mt s.agent with gens := [{ x with wait := true }] }).requestFrom s.agent x.tile
        { x.org with rin := ((s.tile? (s.aliasOf x.tile)).map (fun c => c.recov.rin)).getD x.org.rin } (apAddr x.dst x.moved)
        (fun a => .engWrite (.gen x.g.toNat) a x.buf) (fun c => .engDone (.gen x.g.toNat) x.buf.length (some c))))) ∧
  (∀ s m x, s.agent ≠ s.cur → oldest s isEngReply m → (s.mt s.agent).gens = [x] →
    (∀ bs p, m.body = .engData (.gen x.g.toNat) bs p none →
      ∃ t, exec .engineBeat s = .next t ∧ (t.mt s.agent).gens = [{ x with wait := false, buf := bs }] ∧ t.mem = s.mem) ∧
    (∀ n, m.body = .engDone (.gen x.g.toNat) n none → x.moved + n < apBytes x.src →
      ∃ t, exec .engineBeat s = .next t ∧ (t.mt s.agent).gens = [{ x with wait := false, buf := [], moved := x.moved + n }] ∧ t.mem = s.mem) ∧
    (∀ n, m.body = .engDone (.gen x.g.toNat) n none → apBytes x.src ≤ x.moved + n →
      ∃ t r, exec .engineBeat s = .next t ∧ (t.mt s.agent).gens = [] ∧ t.mem = s.mem ∧ (r ∈ t.net ∨ r ∈ mgetD t.inbox s.agent []) ∧
        r.dst = x.tile ∧ r.body = .aggoEnd x.g x.w x.sig none)) ∧
  (∀ s b, (s.port s.inp.n).active = some b → apBytes b.ap ≤ b.moved → b.sig = none →
    exec .strmBindingEnd s = .next (wakeCfgs (s.modPort s.inp.n (fun q => { q with active := q.pending, pending := none })))) ∧
  (∀ s b k, (s.port s.inp.n).active = some b → apBytes b.ap ≤ b.moved → b.sig = some k →
    exec .strmBindingEnd s = .next (lastBeat (wakeCfgs (s.modPort s.inp.n (fun q => { q with active := q.pending, pending := none }))) (nowOrg s b.org) k
      (BitVec.ofNat 64 s.inp.n) none)) ∧
  (∀ s org k w0 err o tile c, mget s.core.ch.outs (org.act * 8 + k.toNat) = some o → o.dest = .chan tile c →
    ∃ t m, lastBeat s org k w0 err = t ∧ (m ∈ t.net ∨ m ∈ mgetD t.inbox s.cur []) ∧ m.org = org ∧
      m.body = .token c o.pos ⟨1, 2, [w0, BitVec.ofNat 64 ((err.map Cause.code).getD 0), 0, 0], 0, org.tag, org.rin, c⟩) ∧
  (∀ s, (wakeCfgs s).core = s.core ∧ (wakeCfgs s).mem = s.mem ∧ (wakeCfgs s).net = s.net ∧
    ∀ m ∈ s.mts, m.2.cfgs ≠ [] → ⟨m.1, .agcfgApply, Input.none⟩ ∈ (wakeCfgs s).agenda) ∧
  (∀ p id bs bad c b, TakesMsg .streamErrorReply isStreamError
    (fun s m => m.body = .engData (.port p id) bs bad (some c) ∧ (s.port p).active = some b ∧ b.id = id ∧ b.sig = none ∧ (s.port p).pending = none)
    (fun s _ => wakeCfgs (s.modPort p (fun q => { q with
      buf := if b.out then [] else q.buf, active := none, pending := none, fault := true, psn := if b.out then [] else q.psn, lost := b.out })))) ∧
  (∀ p id n c b k, TakesMsg .streamErrorReply isStreamError
    (fun s m => m.body = .engDone (.port p id) n (some c) ∧ (s.port p).active = some b ∧ b.id = id ∧ b.sig = some k ∧ (s.port p).pending = none)
    (fun s _ => lastBeat (wakeCfgs (s.modPort p (fun q => { q with
        buf := if b.out then [] else q.buf, active := none, pending := none, fault := true, psn := if b.out then [] else q.psn, lost := b.out })))
      (nowOrg s b.org) k (BitVec.ofNat 64 p) (some c))) ∧
  (∀ g w err, TakesMsg .aggoDone isAggoEnd (fun _ m => m.body = .aggoEnd g w none err)
    (fun s _ => { s with core := { s.core with aggs := s.core.aggs.erase (4 * w.toNat + g.toNat) } })) ∧
  (∀ g w k err, TakesMsg .aggoDone isAggoEnd (fun _ m => m.body = .aggoEnd g w (some k) err)
    (fun s m => lastBeat { s with core := { s.core with aggs := s.core.aggs.erase (4 * w.toNat + g.toNat) } } (nowOrg s m.org) k
      (BitVec.ofNat 64 (4 * w.toNat + g.toNat)) err))

/-- R130, R132: what an atomic writes, at 32 and at 64 bits: the sum modulo 2^n, the bitwise operations, the signed and unsigned minimum and
maximum, the exchange; and a CAS writes its new value exactly when the old one is the expected one.
R125, R127, R128, R130, R290, R292, R318: the requests that a memory tile serves at once: an atomic, a store and a load in OWNER mode; STO, CLRO
and a load deferred by LDO in ONCE mode; with the bytes written and no other, the presence bits and the answer.
Where a clause rests on the model's own choice, that is log entries 46, 48, 133. -/
def Obligations.AtomicsAndMemoryTile : Prop :=
  (∀ n, n = 32 ∨ n = 64 → ∀ (old : Nat) (v : Word), old < 2 ^ n →
    let w := v.toNat % 2 ^ n
    let sg (x : Nat) : Int := if 2 * x < 2 ^ n then (x : Int) else (x : Int) - 2 ^ n
    atomWrite n 0 old v none = some ((old + w) % 2 ^ n) ∧ atomWrite n 1 old v none = some (old &&& w) ∧
    atomWrite n 2 old v none = some (old ||| w) ∧ atomWrite n 3 old v none = some (old ^^^ w) ∧
    atomWrite n 4 old v none = some (if sg old ≤ sg w then old else w) ∧ atomWrite n 5 old v none = some (if sg w ≤ sg old then old else w) ∧
    atomWrite n 6 old v none = some (min old w) ∧ atomWrite n 7 old v none = some (max old w) ∧ atomWrite n 8 old v none = some w ∧
    (∀ e : Word, atomWrite n 0 old v (some e) = if old = e.toNat % 2 ^ n then some w else none)) ∧
  ((∀ s m a op dbl v cas ret bs, reaches s isAtomic m .owner a.toNat (if dbl then 8 else 4) → m.body = .atomic a op dbl v cas ret →
    undoShort (without s m) s.agent m a.toNat (if dbl then 8 else 4) = false →
    s.isBad (tileKey s.agent a.toNat) (if dbl then 8 else 4) = none →
    atomBytes op dbl (s.bytes (tileKey s.agent a.toNat) (if dbl then 8 else 4)) v cas = some bs → m.src < 0x20000 →
    ∃ t, exec .atomicApply s = .next t ∧ BytesAt s t (tileKey s.agent a.toNat) bs ∧
      (ret = true → m.src ≠ m.dst →
        Answered s t m (.atomReply (BitVec.ofNat 64 (leNat (s.bytes (tileKey s.agent a.toNat) (if dbl then 8 else 4)))) none))) ∧
  (∀ s m a n d, reaches s isPlainReq m .owner a.toNat n → m.body = .store a n d → undoShort (without s m) s.agent m a.toNat n = false →
    m.src < 0x20000 → ∃ t, exec .mTileRequest s = .next t ∧ BytesAt s t (tileKey s.agent a.toNat) (leBytes n d.toNat)) ∧
  (∀ s m a n, reaches s isPlainReq m .owner a.toNat n → m.body = .load a n → s.isBad (tileKey s.agent a.toNat) n = none → m.src < 0x20000 →
    m.src ≠ m.dst → ∃ t, exec .mTileRequest s = .next t ∧ t.mem = s.mem ∧
      Answered s t m (.reply (BitVec.ofNat 64 (leNat (s.bytes (tileKey s.agent a.toNat) n))) false none)) ∧
  (∀ s m a d, reaches s isSto m .once a.toNat 8 → m.body = .sto a d → a.toNat / 8 ∉ (s.mt s.agent).pres →
    undoShort (without s m) s.agent m a.toNat 8 = false → m.src < 0x20000 →
    ∃ t, exec .stoApply s = .next t ∧ BytesAt s t (tileKey s.agent a.toNat) (leBytes 8 d.toNat) ∧
      (t.mt s.agent).pres = a.toNat / 8 :: (s.mt s.agent).pres) ∧
  (∀ s m a d, reaches s isSto m .once a.toNat 8 → m.body = .sto a d → a.toNat / 8 ∈ (s.mt s.agent).pres →
    undoShort (without s m) s.agent m a.toNat 8 = false →
    exec .stoApply s = .next (mtWake ((without s m).answer m (.report .onceDoubleWrite 0)) s.agent)) ∧
  (∀ s m a n d, reaches s isPlainReq m .once a.toNat n → m.body = .store a n d → a.toNat / 8 ∈ (s.mt s.agent).pres →
    undoShort (without s m) s.agent m a.toNat n = false →
    exec .mTileRequest s = .next (mtWake ((without s m).answer m (.report .onceDoubleWrite 0)) s.agent)) ∧
  (∀ s m a, reaches s isPlainReq m .once a.toNat 8 → m.body = .ldo a → a.toNat / 8 ∈ (s.mt s.agent).pres →
    s.isBad (tileKey s.agent a.toNat) 8 = none → m.src < 0x20000 → m.src ≠ m.dst →
    ∃ t, exec .mTileRequest s = .next t ∧ t.mem = s.mem ∧
      Answered s t m (.reply (BitVec.ofNat 64 (leNat (s.bytes (tileKey s.agent a.toNat) 8))) false none)) ∧
  (∀ s m a n k g, reaches s isClro m .once a.toNat (8 * n) → m.body = .clro a n → segOf (s.mt s.agent) a.toNat = some (k, g) →
    a.toNat + 8 * n ≤ g.lo' + g.bytes → undoShort (without s m) s.agent m a.toNat (8 * n) = false → m.src < 0x20000 →
    ∃ t, exec .clroApply s = .next t ∧ BytesAt s t (tileKey s.agent a.toNat) (List.replicate (8 * n) 0) ∧
      (t.mt s.agent).pres = (s.mt s.agent).pres.filter (fun w => !decide (w ∈ wordsIn a.toNat (8 * n)))) ∧
  (∀ s m a, reaches s isPlainReq m .once a.toNat 8 → m.body = .ldo a → a.toNat / 8 ∉ (s.mt s.agent).pres →
    exec .mTileRequest s = .next ((without s m).setMt s.agent { s.mt s.agent with held := [m] })))

/-- R204, R290, R292: a held access that has become free is served; an AGCFG whose segment is idle replaces the segment and leaves the data bytes; a
compute tile serves its neighbours' stores and loads outside the undo region and answers PROTECTION to the others.
R206, R207, R276, R305, R306, R431, R437, R438: what reaches an interface: a request whose page is cached is performed or faults by the leaf; a
shore request, a token for a host stream and a collective token join their queues; a credit goes to the channel that begins there.
Where a clause rests on the model's own choice, that is log entries 49, 62, 63, 64, 69, 167, 180. -/
def Obligations.HeldRemoteAndInterfaceRequests : Prop :=
  ((∀ s m t, firstFree s s.agent (s.mt s.agent).held = (some m, t) →
    exec .heldAccessRelease s = .next (mtWake (t.setMt s.agent { t.mt s.agent with held := (t.mt s.agent).held.filter (fun x => x.id != m.id) })
      s.agent)) ∧
  (∀ s m a k g, (s.mt s.agent).held = [m] → (s.mt s.agent).input = [] → m.body = .ldo a → ownsSite s m.org s.agent = true →
    a.toNat + 8 ≤ (48 - (s.mt s.agent).units) * 65536 → segOf (s.mt s.agent) a.toNat = some (k, g) → g.mode = .once →
    a.toNat / 8 ∈ (s.mt s.agent).pres → s.isBad (tileKey s.agent a.toNat) 8 = none → m.src < 0x20000 → m.src ≠ m.dst →
    ∃ t, exec .heldAccessRelease s = .next t ∧ (t.mt s.agent).held = [] ∧ t.mem = s.mem ∧
      Answered s t m (.reply (BitVec.ofNat 64 (leNat (s.bytes (tileKey s.agent a.toNat) 8))) false none)) ∧
  (∀ s c r k d w, (∀ m ∈ mgetD s.inbox s.agent [], isMReq m.body = false) → (s.mt s.agent).cfgs = c :: r → c.body = .agcfg k d w →
    segIdle s s.agent k.toNat = true → ownsSite s c.org s.agent = true →
    segClash (s.mt s.agent) k.toNat (newSegment d w c.org) = false → cfgShort s s.agent c = false →
    ∃ t, exec .agcfgApply s = .next t ∧ (t.mt s.agent).segs = (s.mt s.agent).segs.modify k.toNat (fun _ => newSegment d w c.org) ∧
      (t.mt s.agent).cfgs = r ∧ t.mem = s.mem) ∧
  (∀ s m a n d, oldest s isTileReq m → m.body = .store a n d → tileShort (without s m) s.agent m = false →
    ownsSite (without s m) m.org s.agent = true → a.toNat + n ≤ 0x80000 → touchesUndo a.toNat n = false → m.src < 0x20000 →
    ∃ t, exec .remoteTileRequest s = .next t ∧ BytesAt s t (tileKey s.agent a.toNat) (leBytes n d.toNat)) ∧
  (∀ s m a n, oldest s isTileReq m → m.body = .load a n → ownsSite (without s m) m.org s.agent = true → a.toNat + n ≤ 0x80000 →
    touchesUndo a.toNat n = false → s.isBad (tileKey s.agent a.toNat) n = none → m.src < 0x20000 → m.src ≠ m.dst →
    ∃ t, exec .remoteTileRequest s = .next t ∧ t.mem = s.mem ∧
      Answered s t m (.reply (BitVec.ofNat 64 (leNat (s.bytes (tileKey s.agent a.toNat) n))) false none)) ∧
  (∀ s m a n, oldest s isTileReq m → m.body = .load a n →
    (ownsSite (without s m) m.org s.agent = false ∨ 0x80000 < a.toNat + n ∨ touchesUndo a.toNat n = true) →
    exec .remoteTileRequest s = .next ((without s m).answer m (.reply 0 false (some .protection))))) ∧
  ((∀ s m q ad acc n kind l, inputBlocked s s.agent = false → s.portUp s.agent = true → (s.agent < 0x10020 ∨ 0x10050 ≤ s.agent) →
    mgetD s.inbox s.agent [] = [m] → isShoreTok m.body = false → virtReq m.body = some (ad, acc, n) → mget s.parts m.org.part = some q →
    0x0100000000000000 ≤ ad.toNat → ad.toNat - 0x0100000000000000 < 2 ^ 57 →
    kindAt s.agent q.mem (ad.toNat - 0x0100000000000000) = some kind → ¬(kind = .host ∧ acc = 2) → (s.recv s.agent).faults = [] →
    (s.recv s.agent).walks = [] → (s.recv s.agent).missq = [] →
    (s.recv s.agent).leaves.find? (fun x => x.covers m.org.part (ad.toNat - 0x0100000000000000)) = some l →
    (l.permits acc = false →
      ∃ t, exec .virtualRequestArrival s = .next t ∧ (t.recv s.agent).faults = [⟨l.part, l.base / 65536, 0, [m], true, 1⟩]) ∧
    (let pa := l.pa + (ad.toNat - 0x0100000000000000 - l.base)
     l.permits acc = true → kind = .shore → s.keyUsable l.key = true → s.head.hbmok.getLsbD (pa / 2 ^ 36 % 32) = true → l.rcl ≠ 2 →
      s.isBad (shoreKey pa) n = none → m.src < 0x20000 → m.src ≠ m.dst → ∀ e, m.body = .engRead e ad n →
      ∃ t, exec .virtualRequestArrival s = .next t ∧ t.mem = s.mem ∧
        Answered s t m (.engData e (heldOver (s.recv (shoreIf (pa / 2 ^ 36 % 32))) (shoreKey pa) (encBytes s (shoreKey pa) n l.key)) false none)) ∧
    exec .virtualRequestArrival s = .next (useLeaf (without s m) s.agent m kind l (ad.toNat - 0x0100000000000000) acc)) ∧
  (∀ s m q ad acc n kind, inputBlocked s s.agent = false → s.portUp s.agent = true → (s.agent < 0x10020 ∨ 0x10050 ≤ s.agent) →
    mgetD s.inbox s.agent [] = [m] → isShoreTok m.body = false → virtReq m.body = some (ad, acc, n) → mget s.parts m.org.part = some q →
    0x0100000000000000 ≤ ad.toNat → ad.toNat - 0x0100000000000000 < 2 ^ 57 →
    kindAt s.agent q.mem (ad.toNat - 0x0100000000000000) = some kind → ¬(kind = .host ∧ acc = 2) → (s.recv s.agent).faults = [] →
    (s.recv s.agent).walks = [] → (s.recv s.agent).missq = [] →
    (s.recv s.agent).leaves.find? (fun x => x.covers m.org.part (ad.toNat - 0x0100000000000000)) = none →
    exec .virtualRequestArrival s = .next ((without s m).setRecv s.agent { s.recv s.agent with
      walks := [⟨m.org.part, pageNo s q.mem (ad.toNat - 0x0100000000000000), q.mem.root, [m], false, 0⟩] })) ∧
  (∀ port k i, TakesMsg .shoreRequest isShoreTok
    (fun s m => m.body = .shoreTok port k ∧ mget (s.recv s.agent).ins port = some i ∧ k.kind ≠ 9)
    (fun s _ => pumpShore ((tallyTok s (port / 4) (2 ^ 33 + (s.agent - 0x10000) * 1024 + port) k).setRecv s.agent { s.recv s.agent with
      ins := mset (s.recv s.agent).ins port { i with queue := i.queue ++ [(i.pos, k)], pos := i.pos + 1 } }) s.agent port 600)) ∧
  (∀ port k i, TakesMsg .shoreRequest isShoreTok
    (fun s m => m.body = .shoreTok port k ∧ mget (s.recv s.agent).ins port = some i ∧ k.kind ≠ 9 ∧ i.taken ≠ 0)
    (fun s _ => (tallyTok s (port / 4) (2 ^ 33 + (s.agent - 0x10000) * 1024 + port) k).setRecv s.agent { s.recv s.agent with
      ins := mset (s.recv s.agent).ins port { i with queue := i.queue ++ [(i.pos, k)], pos := i.pos + 1 } })) ∧
  (∀ s m q k x c, ¬(s.agent < 0x10000) → oldest s isHostTok m → m.body = .hostTok q k → mget s.queues q = some x → x.chan = some c → k.kind ≠ 9 →
    let arrived := { c with queue := c.queue ++ [(c.pos, k)], pos := c.pos + 1 }
    let t := { (tallyTok (without s m) (q / 4096) (2 ^ 32 + q) k) with queues := mset s.queues q { x with chan := some arrived } }
    exec .tokenArrival s = .next (pumpOut t q 600) ∧ (c.queue = [] → x.en = false → exec .tokenArrival s = .next t)) ∧
  (∀ s m key k f, oldest s isCollTok m → m.body = .collTok key k → m.src < 0x20000 → s.fjs[s.agent - 0x10020]? = some f → fjEn f = false →
    k.kind ≠ 9 →
    let t := (without s m).send s.agent m.src m.org (.credit (key / 8) (key % 8))
    let code := 2 ^ 34 + ((s.agent - 0x10020) * 0x10000 + s.homeOf m.src) * 4096 + key
    exec .collTokenArrival s = .next (collFeed (tallyTok t m.org.part code k) (s.agent - 0x10020) (fjMod f) (s.homeOf m.src) key k)) ∧
  (∀ s m n q x, ¬(s.agent < 0x10000) → oldest s isCredit m → m.body = .creditTo (.hostIn n q) → mget s.queues q = some x →
    exec .creditReturn s = .next { (without s m) with queues := mset s.queues q { x with
      port := x.port.map (fun o => { o with credits := o.credits + 1 }) } }))

/-- R300, R301, R305, R373, R374, R439: the end of a walk maps the page or enters it in the fault table; FRETRY walks a faulting page again and
releases its requests, or keeps them there without a second notice, or answers them PROTECTION; INVAL drops the cached leaves it names and is BUSY
until it is done, which waits for the walks under an earlier PTROOT.
Where a clause rests on the model's own choice, that is log entries 61, 62, 151. -/
def Obligations.WalksAndInvalidation : Prop :=
  (∀ s w q k l bits, (s.recv s.agent).walks[s.inp.n]? = some w → w.noticed = false → mget s.parts w.part = some q →
    let u := wakeInval (s.setRecv s.agent { s.recv s.agent with walks := (s.recv s.agent).walks.eraseIdx s.inp.n }) w.part
    walkPage u s.agent { q.mem with root := w.root } w = some (k, .leaf l, bits) →
    exec .translationWalkEnd s = .next (pumpMisses (mapPage u s.agent k w l bits) s.agent)) ∧
  (∀ s w m q l bits v,
    (s.recv s.agent).walks[s.inp.n]? = some w → w.noticed = false → mget s.parts w.part = some q → w.reqs = [m] →
    walkPage s s.agent { q.mem with root := w.root } w = some (.shore, .leaf l, bits) → (s.recv s.agent).missq = [] → (s.recv s.agent).ins = [] →
    (s.recv s.agent).late = [] → v = w.page * 65536 → ∀ e ad n, m.body = .engRead e ad n →
    let base := v / 2 ^ bits * 2 ^ bits
    let pa := l.pa - (v - base) + (ad.toNat - 0x0100000000000000 - base)
    base ≤ ad.toNat - 0x0100000000000000 → ad.toNat - 0x0100000000000000 < base + 2 ^ bits → l.r = true → l.rcl ≠ 2 →
    s.keyUsable l.key = true → s.head.hbmok.getLsbD (pa / 2 ^ 36 % 32) = true → s.isBad (shoreKey pa) n = none → m.src < 0x20000 → m.src ≠ m.dst →
    ∃ t, exec .translationWalkEnd s = .next t ∧ t.mem = s.mem ∧
      Answered s t m (.engData e (heldOver (s.recv (shoreIf (pa / 2 ^ 36 % 32))) (shoreKey pa) (encBytes s (shoreKey pa) n l.key)) false none) ∧
      (t.recv s.agent).walks = (s.recv s.agent).walks.eraseIdx s.inp.n ∧
      ∃ c ∈ (t.recv s.agent).leaves, c.part = w.part ∧ c.base = base ∧ c.bits = bits ∧ c.key = l.key ∧ c.pa = l.pa - (v - base)) ∧
  (∀ s w m x q k why bits, (s.recv s.agent).walks[s.inp.n]? = some w → w.noticed = false → mget s.parts w.part = some q → w.reqs = [m] →
    virtReq m.body = some x → walkPage s s.agent { q.mem with root := w.root } w = some (k, .fault why, bits) → (s.recv s.agent).missq = [] →
    (s.recv s.agent).ins = [] → (s.recv s.agent).faults.length < 64 → 0 < faultRoom (s.recv s.agent) w.part →
    ∃ t, exec .translationWalkEnd s = .next t ∧ (t.recv s.agent).walks = (s.recv s.agent).walks.eraseIdx s.inp.n ∧
      (t.recv s.agent).faults = (s.recv s.agent).faults ++ [{ w with why := why, noticed := true }]) ∧
  (∀ s w q k why bits, (s.recv s.agent).walks[s.inp.n]? = some w → w.noticed = false → mget s.parts w.part = some q →
    let u := wakeInval (s.setRecv s.agent { s.recv s.agent with walks := (s.recv s.agent).walks.eraseIdx s.inp.n }) w.part
    walkPage u s.agent { q.mem with root := w.root } w = some (k, .fault why, bits) →
    exec .translationWalkEnd s = .next (pumpMisses (enterFault u s.agent w why) s.agent)) ∧
  (∀ s a r q f k why bits, s.recvs = [(a, r)] → r.faults = [f] → r.missq = [] → r.ins = [] → r.walks = [] → f.part = s.inp.p.toNat →
    (s.inp.flag = true ∨ f.page = s.inp.addr) → mget s.parts s.inp.p.toNat = some q →
    walkPage (s.setRecv a { r with faults := [] }) a q.mem f = some (k, .fault why, bits) →
    exec .fretryRetry s = .next s) ∧
  (∀ s, exec .fretryRetry s = .next (fretry s (retryPage s.inp.p.toNat))) ∧
  (∀ s a r f q l bits m e ad n, s.recvs = [(a, r)] → r.faults = [f] → r.missq = [] → r.ins = [] → r.walks = [] → r.late = [] →
    f.part = s.inp.p.toNat → (s.inp.flag = true ∨ f.page = s.inp.addr) → mget s.parts s.inp.p.toNat = some q → f.reqs = [m] →
    walkPage (s.setRecv a { r with faults := [] }) a q.mem f = some (.shore, .leaf l, bits) → m.body = .engRead e ad n →
    let base := f.page * 65536 / 2 ^ bits * 2 ^ bits
    let pa := l.pa - (f.page * 65536 - base) + (ad.toNat - 0x0100000000000000 - base)
    base ≤ ad.toNat - 0x0100000000000000 → ad.toNat - 0x0100000000000000 < base + 2 ^ bits →
    (l.r = false → ∃ t, exec .fretryRetry s = .next t ∧ (t.recv a).faults = [f] ∧ t.net = s.net ∧ t.mem = s.mem) ∧
    (l.r = true → l.rcl ≠ 2 → s.keyUsable l.key = true → s.head.hbmok.getLsbD (pa / 2 ^ 36 % 32) = true → s.isBad (shoreKey pa) n = none →
      m.src < 0x20000 → m.src ≠ m.dst →
      ∃ t, exec .fretryRetry s = .next t ∧ t.mem = s.mem ∧ (t.recv a).faults = [] ∧
        Answered s t m (.engData e (heldOver (s.recv (shoreIf (pa / 2 ^ 36 % 32))) (shoreKey pa) (encBytes s (shoreKey pa) n l.key)) false none))) ∧
  (∀ s a r f m e ad n, s.recvs = [(a, r)] → r.faults = [f] → r.missq = [] → r.ins = [] → r.walks = [] → f.part = s.inp.p.toNat →
    (s.inp.flag = true ∨ f.page = s.inp.addr) → f.reqs = [m] → m.body = .engRead e ad n → m.src < 0x20000 → m.src ≠ m.dst →
    ∃ t, exec .fretryAbort s = .next t ∧ t.recvs = [(a, { r with faults := [] })] ∧ Answered s t m (.engData e [] false (some .protection)) ∧
      t.mem = s.mem) ∧
  (∀ (i : Instr) (page : State → Option Nat), (i = .invalPage ∧ page = fun s => some s.inp.addr) ∨ (i = .invalAll ∧ page = fun _ => none) →
    ∀ s q, mget s.parts s.inp.p.toNat = some q → q.inval = [] →
    ∃ t, exec i s = .next t ∧ (mget t.parts s.inp.p.toNat).map Partition.inval = some [page s] ∧
      t.agenda = s.agenda ++ [⟨headIf, .invalidationDone, { Input.none with p := s.inp.p }⟩] ∧
      (∀ x ∈ t.recvs, ∀ l ∈ x.2.leaves, match page s with
        | some g => l.covers s.inp.p.toNat (g * 65536) = false
        | none => l.part ≠ s.inp.p.toNat) ∧ t.mem = s.mem) ∧
  (∀ s q x, mget s.parts s.inp.p.toNat = some q → q.inval = [x] →
    ((∃ r ∈ s.recvs, ∃ w ∈ r.2.walks, w.part = s.inp.p.toNat ∧ w.noticed = false ∧ w.root ≠ q.mem.root) → exec .invalidationDone s = .next s) ∧
    ((∀ r ∈ s.recvs, ∀ w ∈ r.2.walks, w.part = s.inp.p.toNat → w.noticed = false → w.root = q.mem.root) →
      ∃ t, exec .invalidationDone s = .next t ∧ (mget t.parts s.inp.p.toNat).map Partition.inval = some [] ∧ t.mem = s.mem ∧
        ∀ r ∈ t.recvs, ∀ l ∈ r.2.leaves, match x with
          | some g => l.covers s.inp.p.toNat (g * 65536) = false
          | none => l.part ≠ s.inp.p.toNat))

-- Time, power, and the scheduling of phases (chapters 13, 15 and 17)

/-- R237, R427: at a time beacon %time advances by one, nothing in memory changes, what was due stays due in its order, and what has fallen due joins it:
the budget period at every multiple of 5, with what the sensors report of each unit, the counter write at every second, the periodic wave of each partition, the end of each grace; and a site that
misses beacons counts the loss and keeps %time by its own clock until a double pulse, every 1,024 µs.
R357, R358, R359, R361, R451: the grants of a node never exceed its own and never a child's demand, and each child has its floor when the floors fit; an
island takes the highest settable frequency whose estimate its grant covers, else 0.50 GHz with a duty of at least 1; at a budget period the draw of the
last one is noted, a region granted less than its floor is to be pre-empted, and a tile at 110 °C trips the module; at a telemetry period one record is written per resident region.
Where a clause rests on the model's own choice, that is log entries 102, 103, 104, 105, 107, 125, 155, 179. -/
def Obligations.TimeAndPower : Prop :=
  ((∀ s, ∃ t, exec .timeBeacon s = .next t ∧ t.time = s.time + 1 ∧ t.mem = s.mem ∧ s.agenda <+: t.agenda ∧
    (t.time % 5 = 0 → ∃ i ∈ t.agenda, i.agent = headIf ∧ i.step = .budgetPeriod ∧
      i.inp.meas.map (fun x => x.island.toNat) = List.range 1141) ∧ (t.time % 1000000 = 0 → headItem .counterFlash 0 ∈ t.agenda) ∧
    (∀ p q, (p, q) ∈ t.parts → t.time % (if 100 ≤ q.wper.toNat ∧ q.wper.toNat ≤ 1000000 then q.wper.toNat else 1000) = 0 →
      ⟨headIf, .periodicWaveTimer, { Input.none with p := BitVec.ofNat 6 p }⟩ ∈ t.agenda) ∧
    (∀ k g, (k, g) ∈ t.regions → g.st = .grace → g.drain = false → g.graceEnd ≤ t.time → headItem .graceEnd k ∈ t.agenda)) ∧
  (∀ s, ∃ t, exec .beaconLoss s = .next t ∧ t.fabric.blost = s.fabric.blost + 1 ∧ t.time = s.time ∧ t.mem = s.mem ∧
    (inField s.agent = true → isCTile s.agent = true → s.agent = s.cur →
      (s.core.sys.tlost = none → t.core.sys.tlost = some (s.time, s.core.elapsed)) ∧
      (∀ x, s.core.sys.tlost = some x → t.core.sys.tlost = some x))) ∧
  (∀ (c : CTile) now, (c.sys.tlost = none → c.time now = now) ∧
    (∀ at' e, c.sys.tlost = some (at', e) → c.time now = at' + (c.elapsed - e) / 1000000000)) ∧
  (∀ s, (s.time + 1) % 1024 = 0 → ∃ t, exec .timeBeacon s = .next t ∧ t.core.sys.tlost = none)) ∧
  ((∀ (g : Rat) (cs : List (Rat × Rat)), 0 ≤ g → (∀ c ∈ cs, 0 ≤ c.1 ∧ c.1 ≤ c.2) →
    (grants g cs).length = cs.length ∧ (grants g cs).sum ≤ g ∧ (∀ x ∈ cs.zip (grants g cs), x.2 ≤ x.1.2) ∧
    ((cs.map (fun c => c.1)).sum ≤ g → ∀ x ∈ cs.zip (grants g cs), x.1.1 ≤ x.2)) ∧
  (∀ i m g x, x % 4 = 0 → 500 ≤ x → x ≤ m.fcap → est i m x 16 ≤ g →
    (∀ y, y % 4 = 0 → x < y → y ≤ m.fcap → ¬ est i m y 16 ≤ g) → pointFor i m g = (x, 16)) ∧
  (∀ i m g, 500 ≤ m.fcap → (∀ y, y % 4 = 0 → 500 ≤ y → y ≤ m.fcap → ¬ est i m y 16 ≤ g) → (pointFor i m g).1 = 500 ∧ 1 ≤ (pointFor i m g).2) ∧
  (∀ s, ∃ t, exec .budgetPeriod s = .next t ∧ t.time = s.time ∧ t.mem = s.mem ∧ t.head.draw = (s.inp.meas.map (fun x => x.power)).sum ∧
    (∀ n ∈ treeNodes (coolant (attributeEnergy s)), ∀ g,
      (regionGrants (coolant (attributeEnergy s)) (treeNodes (coolant (attributeEnergy s)))).find? (fun x => x.1 == n.key) = some (n.key, g) →
      g < n.fl → headItem .preemptStart n.key ∈ t.agenda) ∧
    (s.head.powered = true → (∃ x ∈ s.inp.meas, x.island.toNat < 1056 ∧ 1760 ≤ x.temp) → ⟨headIf, .thermalTrip, Input.none⟩ ∈ t.agenda) ∧
    (∀ f, s.inp.flow = some f → 21000 ≤ f.1 → 21000 ≤ f.2 → t.head.lowFlow = none)) ∧
  (∀ s q, mget s.parts s.inp.p.toNat = some q → (q.telm.toNat % 4 = 1 ∨ (q.telm.toNat % 4 = 2 ∧ q.telmAt ≠ 0)) →
    ∃ t q', exec .telemetryPeriod s = .next t ∧ mget t.parts s.inp.p.toNat = some q' ∧
      q'.telmAt = (if q.telm.toNat % 4 = 1 then s.time + 5 * (q.telm.toNat / 256 % 2 ^ 24) else 0) ∧
      mgetD q'.rings 2 0 = mgetD q.rings 2 0 + (s.regions.filter (fun g => g.1 / 256 == s.inp.p.toNat && g.2.resident)).length))

/-- R362, R363, R379, R422: a move in course whose tile is quiet copies the whole tile store of the actor's tile to the target, changes no other byte, and starts
the flip of the move; a move that has waited 100 µs is abandoned.
R353, R354, R356, R375, R384, R405, R457: a phase whose image passes its checks is configured and runs from now on under its minimum quantum, and one that
does not is refused; a cause that forces acts at once and any other at the end of the quantum, and dispatch then stops for a grace of 20 µs; at its end the
handlers are aborted, and once everything has come to rest the save begins, as it does under starvation with contention; neither interrupts a move at step 4; the saved phase is suspended with its context, and resumption restores it and runs it again; a finished phase
makes the image's next phase current.
Where a clause rests on the model's own choice, that is log entries 81, 92, 95, 96, 127, 144. -/
def Obligations.MovesAndPhases : Prop :=
  ((∀ s g m c, MemOk s → mget s.regions s.inp.n = some g → g.move = some m → m.step < 4 → s.tile? m.src = some c → moveQuiet c = true →
    m.src ≠ m.dst → m.src < 0x10000 → m.dst < 0x10000 →
    ∃ t, exec .rebalancerMove s = .next t ∧ (∀ o, o < 0x80000 → t.byte (tileKey m.dst o) = s.byte (tileKey m.src o)) ∧
      (∀ k, k < tileKey m.dst 0 ∨ tileKey m.dst 0x80000 ≤ k → t.byte k = s.byte k) ∧
      (∃ g', mget t.regions s.inp.n = some g' ∧ g'.move = some { m with step := 4 }) ∧ ∃ j ∈ t.fabric.flips, j.moved = some (m.src, m.dst)) ∧
  (∀ s g m, mget s.regions s.inp.n = some g → g.move = some m → m.step < 4 → m.start + 100 ≤ s.time →
    exec .moveAbandon s = .next { s with regions := mset s.regions s.inp.n { g with move := none } })) ∧
  ((∀ s g m bs i, mget s.regions s.inp.n = some g → mget s.images g.img = some m → mget g.saved g.phase = none → g.st = .load →
    mayConfigure s s.inp.n g = true → readImage s m = .ok bs → parseImage bs m.len = some i → phaseOk s m.inQueue m.outQueue i g.phase = true →
    ∃ t g', exec .phaseConfigure s = .next t ∧ mget t.regions s.inp.n = some g' ∧ g'.st = .run ∧ g'.since = s.time ∧
      g'.quantum = (i.phaseRec g.phase).2.1 ∧ g'.moved = [] ∧ g'.causes = []) ∧
  (∀ s g m bs, mget s.regions s.inp.n = some g → mget s.images g.img = some m → mget g.saved g.phase = none → g.st = .load →
    mayConfigure s s.inp.n g = true → readImage s m = .ok bs → parseImage bs m.len = none →
    exec .phaseConfigure s = .next (endImage s g.img 1 false)) ∧
  (∀ s g, mget s.regions s.inp.n = some g → g.st = .run → (g.move = none ∨ ∃ m, g.move = some m ∧ m.step < 4) →
    (.cswpForce ∈ g.causes ∨ .budget ∈ g.causes ∨ (g.since + g.quantum ≤ s.time ∧ g.causes ≠ [])) →
    exec .preemptStart s = .next { s with regions := mset s.regions s.inp.n { g with st := .grace, drain := false, graceEnd := s.time + 20, move := none } }) ∧
  (∀ s g, mget s.regions s.inp.n = some g → s.time < g.since + g.quantum → .cswpForce ∉ g.causes → .budget ∉ g.causes →
    exec .preemptStart s = .next s ∧ exec .minqExpiry s = .next s) ∧
  (∀ s g, mget s.regions s.inp.n = some g → g.st = .run → g.move = none → g.since + g.quantum ≤ s.time → (g.causes ≠ [] ∨ contended s s.inp.n = true) →
    exec .minqExpiry s = .next { s with regions := mset s.regions s.inp.n { g with st := .grace, drain := false, graceEnd := s.time + 20, move := none } }) ∧
  (∀ s g, mget s.regions s.inp.n = some g → g.st = .grace → g.drain = false →
    (g.graceEnd ≤ s.time ∨ ∀ x ∈ regTiles s s.inp.n, graceOver x.2 = true) →
    ∃ t, exec .graceEnd s = .next t ∧ t = enterDrain s s.inp.n .grace ∧ t.mem = s.mem ∧
      mget t.regions s.inp.n = some { g with drain := true, move := none }) ∧
  (∀ s g, mget s.regions s.inp.n = some g → g.st = .grace → g.drain = true →
    (regionAtRest s s.inp.n g = true → exec .graceEnd s = .next { s with regions := mset s.regions s.inp.n { g with st := .save } }) ∧
    (regionAtRest s s.inp.n g = false → exec .graceEnd s = .next s)) ∧
  (∀ s g x, mget s.regions s.inp.n = some g → g.drain = false → s.time < g.graceEnd → x ∈ regTiles s s.inp.n → graceOver x.2 = false → exec .graceEnd s = .next s) ∧
  (∀ s g, mget s.regions s.inp.n = some g → g.st = .run → (g.move = none ∨ ∃ m, g.move = some m ∧ m.step < 4) → quiescent s s.inp.n g = true →
    phaseFault s s.inp.n = true → contended s s.inp.n = true →
    ∃ t, exec .phaseStarvedSave s = .next t ∧ t = enterDrain s s.inp.n .save ∧ t.mem = s.mem ∧
      mget t.regions s.inp.n = some { g with st := .save, drain := true, move := none }) ∧
  (∀ s g m, mget s.regions s.inp.n = some g → g.move = some m → 4 ≤ m.step →
    exec .phaseStarvedSave s = .next s ∧ exec .preemptStart s = .next s ∧ exec .phaseFinish s = .next s) ∧
  (∀ s g m, mget s.regions s.inp.n = some g → mget s.images g.img = some m → saveReady s s.inp.n g = true →
    ∃ t g' m', exec .contextSave s = .next t ∧ mget t.regions s.inp.n = some g' ∧ g'.st = .suspended ∧ (mget g'.saved g.phase).isSome = true ∧
      mget t.images g.img = some m' ∧ m'.phase = (match m.cswp with
        | some c => c.1
        | none => m.phase)) ∧
  (∀ s g v, mget s.regions s.inp.n = some g → mget g.saved g.phase = some v → g.st = .load → s.settled (s.inp.n / 256) v.rin = true →
    ∃ t g', exec .resumption s = .next t ∧ mget t.regions s.inp.n = some g' ∧ g'.st = .run ∧ g'.since = s.time ∧ g'.moved = v.moved ∧
      mget g'.saved g.phase = none) ∧
  (∀ s g m p, mget s.regions s.inp.n = some g → mget s.images g.img = some m → phaseDone s s.inp.n g = true → nextPhase m = some p →
    ∃ t g' m', exec .phaseFinish s = .next t ∧ mget t.regions s.inp.n = some g' ∧ g'.st = (if g.saved.isEmpty then .free else .suspended) ∧
      mget t.images g.img = some m' ∧ m'.phase = p ∧ m'.cswp = none) ∧
  (∀ s g m, mget s.regions s.inp.n = some g → mget s.images g.img = some m → phaseDone s s.inp.n g = true → nextPhase m = none →
    ∃ t, exec .phaseFinish s = .next t ∧ mget t.images g.img = none))

-- Recovery (chapter 16)

/-- R268, R350, R351, R355: a free launch slot takes the queue that has waited longest; queues that have held their slots for 250 µs while another waits lose
them and have their resident phases pre-empted; the scheduler picks, among the waiting phases whose islands are free and whose last power is unknown, fits the
headroom or has waited 1 ms, the oldest, and it claims its islands. -/
def Obligations.LaunchAndChoice : Prop :=
  (∀ s i k, (dropSlots s (slotIdle s)).lslots.findIdx? Option.isNone = some i → oldestWaiting (dropSlots s (slotIdle s)) = some k →
    (∃ x ∈ waitingQs (dropSlots s (slotIdle s)), x.1 = k ∧ ∀ y ∈ waitingQs (dropSlots s (slotIdle s)), x.2.waitSince.getD s.time ≤ y.2.waitSince.getD s.time) ∧
    ∃ t, exec .launchSlotMap s = .next t ∧ t.lslots = (s.lslots.map (fun x => x.filter (fun y => !slotIdle s y))).set i (some ⟨k, s.time⟩)) ∧
  (∀ s, waitingQs s ≠ [] → ∃ t, exec .launchSlotTimeout s = .next t ∧ t.lslots = s.lslots.map (fun x => x.filter (fun y => !decide (y.since + 250 ≤ s.time))) ∧
    ∀ y, some y ∈ s.lslots → y.since + 250 ≤ s.time → ∀ r ∈ residentOf s y.queue, headItem .preemptStart r ∈ t.agenda) ∧
  (∀ s w, pickPhase s = some w → w ∈ waitingPhases s ∧ islandsFree s w.2.2 = true ∧
    ((match mget w.2.1.powers w.2.1.phase with
      | none => True
      | some p => p ≤ headroom s) ∨ w.2.1.waits + 1000 ≤ s.time) ∧
    ∀ u ∈ waitingPhases s, islandsFree s u.2.2 = true → mget u.2.1.powers u.2.1.phase = none → w.2.1.waits ≤ u.2.1.waits) ∧
  (∀ s w g, pickPhase (startImages s) = some w → mget (startImages s).regions w.2.2 = some g →
    ∃ t, exec .phasePick s = .next t ∧ mget t.regions w.2.2 = some { g with st := .load, phase := w.2.1.phase })

/-- R386, R390, R395, R397 to R400: a request makes a wave pending, at the seal master too where another module's Headland is it; the seal master starts it when R390 allows, issuing the next number; an aligned actor sends
one TIDE on each of its outputs; a tile that cuts records its state, writes it to its save slot, and enters the next interval; memory tiles cut as the wave starts; and the wave is complete
when every agent has cut and the counts agree, else the domain is rolled back, but not a second time for the same cause at the same place.
Where a clause rests on the model's own choice, that is log entries 77, 95, 141, 146, 147. -/
def Obligations.WavesAndCuts : Prop :=
  (∀ s q, mget s.parts s.inp.p.toNat = some q →
    (q.dom = 0 ∨ q.master = true ∨ q.pend = true →
      exec .periodicWaveTimer s = .next { s with parts := mset s.parts s.inp.p.toNat { q with pend := true } }) ∧
    (q.dom ≠ 0 → q.master = false → q.pend = false →
      ∃ t, exec .periodicWaveTimer s = .next t ∧ t.parts = mset s.parts s.inp.p.toNat { q with pend := true } ∧ t.mem = s.mem ∧
        ∀ k f, k ∈ domPorts s s.inp.p.toNat → s.fjs[k]? = some f → (t.fjs[k]?).map FjPort.wait = some (f.wait ++ [.ask]))) ∧
  (∀ s q, mget s.parts s.inp.p.toNat = some q → q.pend = true → q.wave = none → q.sealed = q.cur - 1 → (q.dom = 0 ∨ q.master = true) →
    ∃ t q', exec .waveStart s = .next t ∧ t.mem = s.mem ∧ mget t.parts s.inp.p.toNat = some q' ∧ q'.cur = q.cur + 1 ∧ q'.pend = false ∧
      q'.wave = some ⟨q.cur, [], false, false, [], [], false⟩ ∧ q'.sealed = q.sealed) ∧
  (∀ s q, mget s.parts s.inp.p.toNat = some q → ¬ waveFree q = true → exec .waveStart s = .next s) ∧
  (∀ s n, waveAt s s.core = some n → alignReady s.core n s.inp.n = true → s.inp.n ∈ actorsOf s.core →
    ∃ t, exec .actorAlign s = .next t ∧ mget t.core.recov.aligned s.inp.n = some n ∧ t.mem = s.mem ∧
      ∀ k o tile c, k < 8 → mget s.core.ch.outs (s.inp.n * 8 + k) = some o → o.dest = .chan tile c → tile ≠ s.cur →
        ∃ m ∈ t.net, m.src = s.cur ∧ m.dst = tile ∧ m.body = .token c o.pos { tide n with ch := c }) ∧
  (∀ s n q x, waveAt s s.core = some n → cutReady s.core n = true →
    ((s.regionOf s.cur).bind (fun g => g.move)).any (fun m => m.src == s.cur || m.dst == s.cur) = false →
    mget s.parts (s.core.sys.part.getD 64) = some q → mget q.cuts n.toNat = some x →
    ∃ t q' x' c', exec .tileCut s = .next t ∧ (∀ k, k < 0x1000000000000000 → t.byte k = s.byte k) ∧ t.core.decided = true ∧ t.core.recov.rin = n + 1 ∧ t.core.recov.aligned = [] ∧ t.core.l0 = s.core.l0 ∧
      t.core.l1 = s.core.l1 ∧ t.core.mx = s.core.mx ∧ t.core.row = s.core.row ∧
      mget t.parts (s.core.sys.part.getD 64) = some q' ∧ mget q'.cuts n.toNat = some x' ∧ mget x'.tiles s.cur = some c' ∧
      c'.l0.regs = s.core.l0.regs ∧ c'.l1.regs = s.core.l1.regs ∧ c'.recov.carried = carriedOf s.core n) ∧
  (∀ s q w, s.agent < 0x10000 → isCTile s.agent = false → mget s.parts (s.mPart s.agent) = some q → q.wave = some w →
    later (s.mt s.agent).rin w.n = false → (s.mt s.agent).sweep = false → w.complete = false →
    ∃ t, exec .agentCut s = .next t ∧ t.mem = s.mem ∧ t.mt s.agent = { s.mt s.agent with rin := w.n + 1 }) ∧
  (∀ s q w, mget s.parts s.inp.p.toNat = some q → q.wave = some w → waveDone s s.inp.p.toNat q w = true →
    (∀ x ∈ imbalances s s.inp.p.toNat w.n, (s.inp.p.toNat, Cause.tokenImbalance, x.1 * 4096 + x.2) ∈ s.replays) →
    ∃ t q', exec .waveComplete s = .next t ∧ mget t.parts s.inp.p.toNat = some q' ∧ q'.wave = some { w with complete := true } ∧ t.mem = s.mem) ∧
  (∀ s q w x, mget s.parts s.inp.p.toNat = some q → q.wave = some w → waveDone s s.inp.p.toNat q w = true →
    x ∈ imbalances s s.inp.p.toNat w.n → (s.inp.p.toNat, Cause.tokenImbalance, x.1 * 4096 + x.2) ∉ s.replays →
    ∃ t, exec .waveComplete s = .next t ∧ t.agenda.head? = some ⟨headIf, .rollback, { Input.none with p := s.inp.p }⟩)

/-- R386, R392, R393, R401, R403, R406: the seal point makes the wave's interval the last sealed one and tells every tile; a tile frees the slots of the sealed
interval and its sweep drops their tags; an uncorrectable error rolls its domain back; at another module the seal point and a cause of rollback are sent to the
master, and at the master a rollback, once the effects of an earlier seal are done, makes every unsealed interval void, issues the next number,
discards the messages of those intervals and puts back the old bytes, those of the earliest void interval prevailing.
Where a clause rests on the model's own choice, that is log entries 67, 78, 79, 81, 82, 85, 126, 137, 142. -/
def Obligations.SealsAndRollback : Prop :=
  (∀ s q w, mget s.parts s.inp.p.toNat = some q → q.wave = some w → w.complete = true → (q.dom = 0 ∨ q.master = true) →
    writesOpen s s.inp.p.toNat w.n = false → sweepsDone s s.inp.p.toNat = true → (∀ k ∈ domPorts s s.inp.p.toNat, k ∈ w.peers ∧ k ∈ w.wrote) →
    ∃ t q', exec .sealPoint s = .next t ∧ t.mem = s.mem ∧ mget t.parts s.inp.p.toNat = some q' ∧ q'.sealed = w.n ∧ q'.wave = none ∧ q'.cur = q.cur ∧
      ∀ x ∈ domTiles s s.inp.p.toNat, ⟨x.1, .sealed, { Input.none with p := s.inp.p, v := w.n.setWidth 64 }⟩ ∈ t.agenda) ∧
  (∀ s q w, mget s.parts s.inp.p.toNat = some q → q.wave = some w → w.complete = true → q.dom ≠ 0 → q.master = false → w.told = false →
    writesOpen s s.inp.p.toNat w.n = false → sweepsDone s s.inp.p.toNat = true → (∀ k ∈ domPorts s s.inp.p.toNat, k ∈ w.peers) →
    ∃ t q', exec .sealPoint s = .next t ∧ t.mem = s.mem ∧ mget t.parts s.inp.p.toNat = some q' ∧ q'.sealed = q.sealed ∧
      q'.wave = some { w with told := true } ∧
      ∀ k f, k ∈ domPorts s s.inp.p.toNat → s.fjs[k]? = some f → (t.fjs[k]?).map FjPort.wait = some (f.wait ++ [.written w.n])) ∧
  (∀ s, s.agent = s.cur → s.cur < 0x10000 → isCTile s.cur = true → (∀ r ∈ s.recvs, r.2.late = []) →
    ∃ t, exec .sealed s = .next t ∧ t.mem = s.mem ∧ t.core.recov.sweep = true ∧ t.core.l0 = s.core.l0 ∧ t.core.l1 = s.core.l1 ∧
      t.core.recov.undo = s.core.recov.undo.filter (fun u => later u.rin (s.inp.v.setWidth 32)) ∧
      t.agenda = s.agenda ++ [⟨s.cur, .retagSweepEnd, Input.none⟩]) ∧
  (∀ s, s.agent = s.cur → s.cur < 0x10000 → isCTile s.cur = true →
    ∃ t, exec .retagSweepEnd s = .next t ∧ t.mem = s.mem ∧ t.core.recov.sweep = false ∧ t.core.recov.undo = s.core.recov.undo ∧
      t.core.recov.tags = s.core.recov.tags.filter (fun e => e.2 == (s.lsealed (s.partOf s.cur) + 1).setWidth 2 || e.2 == (s.lsealed (s.partOf s.cur) + 2).setWidth 2)) ∧
  (∀ s, (partAt s s.agent s.inp.addr, Cause.uncorrectable, s.inp.addr) ∉ s.replays →
    ∃ t, exec .uncorrectable s = .next t ∧ (s.inp.addr < 0x1000000000000000 → s.inp.addr ∈ t.bad) ∧ (t.agenda.head?.map (fun i => i.step)) = some .rollback) ∧
  (∀ s q, mget s.parts s.inp.p.toNat = some q →
    (q.dom ≠ 0 → q.master = false → ∃ t, exec .rollback s = .next t ∧ t.parts = s.parts ∧ t.mem = s.mem ∧
      ∀ k f, k ∈ domPorts s s.inp.p.toNat → s.fjs[k]? = some f → (t.fjs[k]?).map FjPort.wait = some (f.wait ++ [.cause])) ∧
    (q.dom = 0 ∨ q.master = true → (∃ i ∈ s.agenda, sealItem s.inp.p.toNat i = true) →
      exec .rollback s = .next (afterSeals s s.inp.p.toNat .rollback)) ∧
    (q.dom = 0 ∨ q.master = true → (∀ i ∈ s.agenda, sealItem s.inp.p.toNat i = false) →
    ∃ t q', exec .rollback s = .next t ∧ mget t.parts s.inp.p.toNat = some q' ∧ q'.voidTo = q.cur ∧ q'.cur = q.cur + 1 ∧ q'.sealed = q.sealed ∧
      q'.wave = none ∧ q'.rbk = q.rbk + 1 ∧ (∀ m ∈ s.net, m.org.part = s.inp.p.toNat → later m.org.rin q.cur = false → m ∉ t.net) ∧
      (∀ m ∈ t.waiting, m.org.part = s.inp.p.toNat → later m.org.rin q.cur = true))) ∧
  (∀ s base l u us, MemOk s → later u.rin l = true → u.key = none → (backwash base l (u :: us) s).bytes (base + 64 * u.line) u.old.length = u.old) ∧
  (∀ s base l us, (∀ u ∈ us, later u.rin l = false) → backwash base l us s = s)

-- The fabric and the Fjoith links (chapter 16 of the manual's list: routes, versions, defects and links)

/-- R409, R410, R413, R415, R417: Headland creates the connection that has waited longest, with an entry at each end that names the other; a waiting message leaves as a flit
of the entry's number unless 32 are unacknowledged; the oldest flit of a FIFO goes one hop as its route says once the next FIFO of 8 has a place, or is
discarded at a CRC failure, the sixteenth in its direction within 1 µs killing the link; an IN entry takes exactly the flit it expects and delivers its message once, and acknowledges it within 0.5 µs; an ACK frees what it covers, and one outside the window is
ignored; after 8 µs without progress every unacknowledged flit is sent again, oldest first.
Where a clause rests on the model's own choice, that is log entries 72, 74. -/
def Obligations.FlitsInOrder : Prop :=
  (∀ s a b r n k ts, s.fabric.setups = (a, b) :: r →
    let s' : State := { s with fabric := { s.fabric with setups := r } }
    a ≠ b → outEntry s' a b = none → s'.landing b = b → deadEnd s' b = false → freeIndex s' a = some n → mget (s'.iface a).ents n = none →
    freeIndex s' b = some k → mget (s'.iface b).ents k = none → turnList s' a b = some ts → n < 256 → k < 256 →
    ∃ t e e', exec .connectionCreate s = .next t ∧ t.fabric.setups = r ∧ t.mem = s.mem ∧
      mget (t.iface a).ents n = some e ∧ e.typ = .out ∧ e.turns = ts ∧ e.peer.toNat = k ∧ (e.dst, e.edge) = endOf s' b ∧
      mget (t.iface b).ents k = some e' ∧ e'.typ = .inn ∧ e'.peer.toNat = n) ∧
  (∀ s m n e, outEntry s m.src m.dst = some (n, e) → e.dead = false → unacked e < 32 → (s.iface m.src).retry.length < retryCap m.src →
    ∃ t f, inject s m = some t ∧ t.fabric.flits = s.fabric.flits ++ [f] ∧ f.seq = e.nseq ∧ f.peer = e.peer ∧ f.ver = e.ver ∧ f.body = .msg m ∧
      (t.iface m.src).retry = (s.iface m.src).retry ++ [(n, e.nseq, m)]) ∧
  (∀ s m n e, outEntry s m.src m.dst = some (n, e) → e.dead = false → 32 ≤ unacked e → inject s m = none) ∧
  (∀ s f g, s.net = [] → s.fabric.flits.find? (movable s) = some f → steer s f = some g → g.place < 0x40000 → s.inp.flag = false →
    let moved := { s with fabric := { s.fabric with flits := s.fabric.flits.erase f ++ [g] } }
    exec .flitHop s = .next (match g.body with
      | .msg m => countBytes moved m 1140
      | .ack _ => moved)) ∧
  (∀ s f g, movable s f = true → steer s f = some g → g.place < 0x40000 →
    (s.fabric.flits.filter (fun x => x.place == g.place && x.came == g.came)).length < 8 ∧
      s.fabric.flits.find? (fun x => x.place == f.place && x.came == f.came) = some f) ∧
  (∀ s, s.net = [] → s.fabric.flits.find? (movable s) = none → exec .flitHop s = .next s) ∧
  (∀ s f g, s.net = [] → s.fabric.flits.find? (movable s) = some f → steer s f = some g → g.place < 0x40000 → s.inp.flag = true →
    ∃ t, exec .flitHop s = .next t ∧ t.fabric.flits = s.fabric.flits.erase f ∧ t.fabric.crce = s.fabric.crce + 1 ∧
      (15 ≤ ((s.link (linkKey f.place (f.route.toNat % 4))).crc.filter (fun x => decide (x.1 = f.route.toNat % 4 ∧ s.time ≤ x.2 + 1))).length →
        ⟨headIf, .linkDead, { Input.none with addr := linkKey f.place (f.route.toNat % 4) }⟩ ∈ t.agenda)) ∧
  (∀ s f g a, s.net = [] → s.fabric.flits.find? (movable s) = some f → steer s f = some g → g.place = 0x40000 + a →
    ∃ t, exec .flitHop s = .next t ∧ t.fabric.flits = s.fabric.flits.erase f ++ [g] ∧
      t.agenda = s.agenda ++ [⟨a, (match g.body with
        | .msg _ => Instr.flitReceive
        | .ack _ => Instr.ackReceive), Input.none⟩]) ∧
  (∀ s f e m, s.fabric.flits.find? (fun f => f.place == 0x40000 + s.agent && (match f.body with
      | .msg _ => true
      | .ack _ => false)) = some f → f.body = .msg m → m.body ≠ .void → mget (s.iface s.agent).ents f.peer.toNat = some e → e.typ = .inn →
    f.ver = e.ver → f.seq = e.nseq → (0x10000 ≤ m.dst ∨ s.aliasOf m.dst = m.dst) →
    ∃ t e', exec .flitReceive s = .next t ∧ mgetD t.inbox m.dst [] = mgetD s.inbox m.dst [] ++ [m] ∧
      mget (t.iface s.agent).ents f.peer.toNat = some e' ∧ e'.nseq = e.nseq + 1) ∧
  (∀ s f e m, s.fabric.flits.find? (fun f => f.place == 0x40000 + s.agent && (match f.body with
      | .msg _ => true
      | .ack _ => false)) = some f → f.body = .msg m → mget (s.iface s.agent).ents f.peer.toNat = some e → f.seq ≠ e.nseq →
    ∃ t, exec .flitReceive s = .next t ∧ t.inbox = s.inbox ∧ t.net = s.net) ∧
  (∀ s f e, s.fabric.flits.find? (fun f => f.place == 0x40000 + s.agent && (match f.body with
      | .msg _ => false
      | .ack _ => true)) = some f → f.body = .ack false → mget (s.iface s.agent).ents f.peer.toNat = some e → e.typ = .out →
    ((f.seq + 1 - e.aseq).toNat ≤ unacked e → ∃ t e', exec .ackReceive s = .next t ∧ mget (t.iface s.agent).ents f.peer.toNat = some e' ∧
      e'.aseq = f.seq + 1 ∧ e'.nseq = e.nseq ∧ (t.iface s.agent).retry =
        (s.iface s.agent).retry.filter (fun r => !(r.1 == f.peer.toNat && decide ((r.2.1 - e.aseq).toNat < (f.seq + 1 - e.aseq).toNat)))) ∧
    (unacked e < (f.seq + 1 - e.aseq).toNat →
      exec .ackReceive s = .next { s with fabric := { s.fabric with flits := s.fabric.flits.erase f } })) ∧
  (∀ s e x, mget (s.iface s.agent).ents s.inp.n = some e → e.since = some x → s.core.elapsed < x + 500000000 → exec .ackTimer s = .next s) ∧
  (∀ s e x, mget (s.iface s.agent).ents s.inp.n = some e → e.typ ≠ .out → e.fresh ≠ 0 → e.since = some x → x + 500000000 ≤ s.core.elapsed →
    ∃ t e' f, exec .ackTimer s = .next t ∧ mget (t.iface s.agent).ents s.inp.n = some e' ∧ e'.fresh = 0 ∧
      t.fabric.flits = s.fabric.flits ++ [f] ∧ f.body = .ack false ∧ f.seq = e.nseq - 1) ∧
  (∀ s e, mget (s.iface s.agent).ents s.inp.n = some e → e.typ = .out → unacked e ≠ 0 → e.prog + 8 ≤ s.time →
    ∃ t e', exec .resendTimeout s = .next t ∧ mget (t.iface s.agent).ents s.inp.n = some e' ∧ e'.prog = s.time ∧
      t.fabric.flits = s.fabric.flits ++ ((s.iface s.agent).retry.filter (fun r => r.1 == s.inp.n)).map (fun r => flitOf s s.agent e r.2.1 (.msg r.2.2)))

/-- R410, R419, R420, R421: a dead link stays dead and is counted; a site that dies is dead, and one that held resident state rolls its domain back; a flip gives
each of its regions the next version and is counted; and when its grace ends no interface accepts the old version.
Where a clause rests on the model's own choice, that is log entries 73, 75, 178. -/
def Obligations.DeathsAndFlips : Prop :=
  (∀ s, (s.link s.inp.addr).dead = false →
    ∃ t, exec .linkDead s = .next t ∧ (t.link s.inp.addr).dead = true ∧ t.fabric.deadl = s.fabric.deadl + 1 ∧ t.mem = s.mem ∧
      (∀ k, k ≠ s.inp.addr → t.link k = s.link k)) ∧
  (∀ s, (s.link s.inp.addr).dead = true → exec .linkDead s = .next s) ∧
  (∀ s, inField s.inp.tile = true → (s.site s.inp.tile).dead = false →
    ∃ t, exec .siteDeath s = .next t ∧ (t.site s.inp.tile).dead = true ∧ (∀ u, u ≠ s.inp.tile → t.site u = s.site u) ∧
      (holdsState s s.inp.tile = true → t.agenda.head?.map (fun i => i.step) = some .rollback)) ∧
  (∀ s j rest, s.fabric.flips = j :: rest → j.sent = none → j.moved = none → (j.regions.map (fun x => x.1)).Nodup →
    ∃ t, exec .flip s = .next t ∧ t.fabric.flipCount = s.fabric.flipCount + 1 ∧ t.fabric.flips = { j with
        regions := j.regions.map (fun x => (x.1, ((mget s.regions x.1).map (fun g => g.rver + 1)).getD x.2)), sent := some s.time } :: rest ∧
      ∀ x ∈ j.regions, ∀ g, mget s.regions x.1 = some g → mget t.regions x.1 = some { g with rver := g.rver + 1 }) ∧
  (∀ s j, s.fabric.flips = [j] → j.sent.isSome = true →
    ∃ t, exec .flipGraceEnd s = .next t ∧ t.fabric.flips = [] ∧ ∀ i ∈ t.fabric.ifs, i.2.grace = false ∧ i.2.shadow = [])

/-- R425, R428, R429, R430, R431: a port takes exactly the frame it expects with a correct CRC and answers a bad one with a NAK; after 4 µs it resends every frame
kept; a lane loss makes it retrain, and training locks 8, 4, 2 or 1 lanes, sets PVAL and resends; a port without lanes trains again; and the peer's control
flits start its waves, seals and rollbacks here, ask the seal master for a rollback, say that its writes are performed, and request a wave.
Where a clause rests on the model's own choice, that is log entries 85, 86, 87, 89. -/
def Obligations.FjoithLinks : Prop :=
  (∀ s f x, s.fjs[s.agent - 0x10020]? = some f → s.inp.frame = some x → linkOk s f = true → x.ok = true → x.fseq = f.expect →
    ∃ t f', exec .fjoithFrameReceive s = .next t ∧ t.fjs[s.agent - 0x10020]? = some f' ∧ f'.expect = f.expect + 1) ∧
  (∀ s f x, s.fjs[s.agent - 0x10020]? = some f → s.inp.frame = some x → linkOk s f = true → x.ok = false → f.sent.length < 1024 →
    ∃ t f' y, exec .fjoithFrameReceive s = .next t ∧ t.inbox = s.inbox ∧ t.net = s.net ∧ t.fjs[s.agent - 0x10020]? = some f' ∧ f'.expect = f.expect ∧
      f'.out = f.out ++ [y] ∧ y.nak = true ∧ y.ack = f.expect - 1) ∧
  (∀ s f, s.fjs[s.agent - 0x10020]? = some f → f.sent ≠ [] → f.prog + 4 ≤ s.time → linkOk s f = true →
    ∃ t f', exec .fjoithResendTimeout s = .next t ∧ t.fjs[s.agent - 0x10020]? = some f' ∧ (f.out ++ f.sent) <+: f'.out) ∧
  (∀ s f, s.fjs[s.agent - 0x10020]? = some f →
    ∃ t, exec .fjoithLaneLoss s = .next t ∧ t.fjs[s.agent - 0x10020]? = some { f with training := true, lanes := 0 } ∧ t.net = s.net) ∧
  (∀ s f, s.fjs[s.agent - 0x10020]? = some f → 0 < s.inp.n →
    ∃ t f', exec .fjoithRetrainDone s = .next t ∧ t.fjs[s.agent - 0x10020]? = some f' ∧ f'.training = false ∧ f'.bind.getLsbD 38 = true ∧
      f'.lanes = (if 8 ≤ s.inp.n then 8 else if 4 ≤ s.inp.n then 4 else if 2 ≤ s.inp.n then 2 else 1) ∧ (f.out ++ f.sent) <+: f'.out) ∧
  (∀ s f, s.fjs[s.agent - 0x10020]? = some f → f.lanes = 0 →
    ∃ t, exec .fjoithRetryTimer s = .next t ∧ t.fjs[s.agent - 0x10020]? = some { f with training := true }) ∧
  (∀ s f x b r q, s.fjs[s.inp.n]? = some f → s.inp.frame = some x → x.slots = b :: r → mget s.parts (fjPart f) = some q →
    (∀ n, b = .sealed n → s.settled (fjPart f) n = false →
      ∃ t q', exec .fjoithControlFlit s = .next t ∧ mget t.parts (fjPart f) = some q' ∧ q'.sealed = n ∧ q'.wave = none) ∧
    (∀ n, b = .wave n → q.wave = none → s.settled (fjPart f) n = false →
      ∃ t q' w, exec .fjoithControlFlit s = .next t ∧ mget t.parts (fjPart f) = some q' ∧ q'.cur = n + 1 ∧ q'.wave = some w ∧ w.n = n) ∧
    (∀ n, b = .rollback n → (∀ i ∈ s.agenda, sealItem (fjPart f) i = false) →
      ∃ t q', exec .fjoithControlFlit s = .next t ∧ mget t.parts (fjPart f) = some q' ∧ q'.voidTo = n ∧ q'.cur = n + 1) ∧
    (b = .cause → sealMaster q = true → (∀ i ∈ s.agenda, sealItem (fjPart f) i = false) →
      ∃ t q', exec .fjoithControlFlit s = .next t ∧ mget t.parts (fjPart f) = some q' ∧ q'.voidTo = q.cur ∧ q'.cur = q.cur + 1) ∧
    (∀ n w, b = .written n → q.wave = some w → w.n = n →
      ∃ t q' w', exec .fjoithControlFlit s = .next t ∧ mget t.parts (fjPart f) = some q' ∧ q'.wave = some w' ∧ s.inp.n ∈ w'.wrote ∧ w'.n = n ∧
        t.mem = s.mem) ∧
    (b = .ask → ∃ t q', exec .fjoithControlFlit s = .next t ∧ mget t.parts (fjPart f) = some q' ∧ q'.pend = true ∧ q'.cur = q.cur ∧ t.mem = s.mem))

-- The host, management, firmware and energy (chapters 15 and 17)

/-- R433, R436: CREATE defines the partition exactly as its definition says when the tiles are released and every check holds, and else leaves it undefined with ERR;
DELETE is refused with ERR 7 while a queue has work, and otherwise the partition's keys, queues, spans and definition go while its energy account stays; a write of
a port's SR-IOV registers enables its functions.
Where a clause rests on the model's own choice, that is log entries 114, 117, 143. -/
def Obligations.PartitionCommands : Prop :=
  (∀ s, let p := s.inp.p.toNat
    let x := (s.partdef p).fields
    mget s.parts p = none → s.head.bootStep = 7 → x.ix0 ≤ x.ix1 → x.ix1 ≤ 32 → x.iy0 ≤ x.iy1 → x.iy1 ≤ 31 → x.kfirst + x.kcnt ≤ 4096 →
    x.qfirst + x.qcnt ≤ 4096 → x.ctx.toNat % 65536 = 0 → funcEnabled s p = true →
    (∀ o ∈ s.parts, o.1 ≠ p → ¬(x.ix0 ≤ o.2.ix1 ∧ o.2.ix0 ≤ x.ix1 ∧ x.iy0 ≤ o.2.iy1 ∧ o.2.iy0 ≤ x.iy1) ∧
      ¬(x.kfirst < o.2.mem.kfirst + o.2.mem.kcnt ∧ o.2.mem.kfirst < x.kfirst + x.kcnt) ∧
      ¬(x.qfirst < o.2.qfirst + o.2.qcnt ∧ o.2.qfirst < x.qfirst + x.qcnt) ∧ (x.dom ≠ 0 → o.2.dom ≠ x.dom)) →
    ∃ t q, exec .partdefCreate s = .next t ∧ mget t.parts p = some q ∧ q.ix0 = x.ix0 ∧ q.iy0 = x.iy0 ∧ q.ix1 = x.ix1 ∧ q.iy1 = x.iy1 ∧
      q.mem.kfirst = x.kfirst ∧ q.mem.kcnt = x.kcnt ∧ q.mem.ctx = x.ctx ∧ q.cap = x.cap ∧ q.dom = x.dom ∧ q.deleting = false ∧ q.cur = 0 ∧
      q.mem.root = (s.window p).root ∧ q.mem.spans = (s.window p).spans ∧ ∀ k, k ≠ p → mget t.parts k = mget s.parts k) ∧
  (∀ s, let p := s.inp.p.toNat
    mget s.parts p = none → s.head.bootStep = 7 → createError s p (s.partdef p).fields ≠ 0 →
    ∃ t, exec .partdefCreate s = .next t ∧ t.parts = s.parts ∧ (t.partdef p).w3.extractLsb' 8 4 = BitVec.ofNat 4 (createError s p (s.partdef p).fields)) ∧
  (∀ s q, mget s.parts s.inp.p.toNat = some q → q.deleting = false → (∃ k x, (k, x) ∈ s.queues ∧ k / 4096 = s.inp.p.toNat ∧ hasWork s k x = true) →
    ∃ t, exec .partdefDelete s = .next t ∧ t.parts = s.parts ∧ (t.partdef s.inp.p.toNat).w3.extractLsb' 8 4 = 7) ∧
  (∀ s q, mget s.parts s.inp.p.toNat = some q → q.deleting = false → (∀ x ∈ s.queues, x.1 / 4096 = s.inp.p.toNat → hasWork s x.1 x.2 = false) →
    ∃ t, exec .partdefDelete s = .next t ∧ mget t.parts s.inp.p.toNat = some { q with deleting := true } ∧
      t.agenda = s.agenda ++ [⟨headIf, .partitionDeleteDone, { Input.none with p := s.inp.p }⟩]) ∧
  (∀ s q, mget s.parts s.inp.p.toNat = some q → q.deleting = true →
    ∃ t, exec .partitionDeleteDone s = .next t ∧ mget t.parts s.inp.p.toNat = none ∧ t.head.energy = s.head.energy ∧
      (∀ k, q.mem.kfirst ≤ k → k < q.mem.kfirst + q.mem.kcnt → mget t.head.keys k = none) ∧
      (∀ n, n < 64 → (((t.window s.inp.p.toNat).spans)[n]?).getD 0 = 0) ∧ (t.window s.inp.p.toNat).root = 0 ∧
      (∀ k, k / 4096 = s.inp.p.toNat → mget t.queues k = none) ∧ (∀ m ∈ t.images, m.2.part ≠ s.inp.p.toNat)) ∧
  (∀ s h, s.ports[s.inp.n]? = some h →
    ∃ t, exec .vfEnableWrite s = .next t ∧ t.ports[s.inp.n]? = some { h with vfEnable := s.inp.flag, numVfs := min 63 s.inp.v.toNat })

/-- R350, R437, R438: a queue's counter that the host owns takes a value unless the ring would hold more than its entries; the device reads the next entry of a
LAUNCH queue as an image or ends a malformed one, and that of an INPUT queue as a token on its stream; a function-level reset ends the partition's images and
disables its queues; and a host port goes down and comes up.
Where a clause rests on the model's own choice, that is log entries 65, 122, 123. -/
def Obligations.HostQueues : Prop :=
  (∀ s q x, mget s.parts s.inp.p.toNat = some q → s.inp.n < q.qcnt → mget s.queues (s.inp.p.toNat * 4096 + s.inp.n) = some x →
    (x.typ = some .launch ∨ x.typ = some .input) →
    ∃ t x', exec .qtailWrite s = .next t ∧ mget t.queues (s.inp.p.toNat * 4096 + s.inp.n) = some x' ∧ x'.head = x.head ∧ x'.base = x.base ∧ x'.ctl = x.ctl ∧
      x'.tail = (if (s.inp.v.setWidth 32 - x.head).toNat ≤ 2 ^ (x.ctl.extractLsb' 8 5).toNat then s.inp.v.setWidth 32 else x.tail)) ∧
  (∀ s q x, mget s.parts s.inp.p.toNat = some q → s.inp.n < q.qcnt → mget s.queues (s.inp.p.toNat * 4096 + s.inp.n) = some x → x.typ = some .output →
    ∃ t x', exec .qheadWrite s = .next t ∧ mget t.queues (s.inp.p.toNat * 4096 + s.inp.n) = some x' ∧ x'.base = x.base ∧ x'.ctl = x.ctl ∧
      x'.head = (if (x.tail - s.inp.v.setWidth 32).toNat ≤ 2 ^ (x.ctl.extractLsb' 8 5).toNat then s.inp.v.setWidth 32 else x.head)) ∧
  (∀ s q m, mget s.queues s.inp.n = some q → mayRead s s.inp.n q = true → q.typ = some .launch →
    launchRecord { s with nextId := s.nextId + 1, queues := mmod s.queues s.inp.n (fun x => { x with read := x.read + 1 }) } s.inp.n
      (s.bytes (q.entry q.read) 64) = some m →
    ∃ t q', exec .hostReadCompletion s = .next t ∧ mget t.images s.nextId = some m ∧ mget t.queues s.inp.n = some q' ∧ q'.read = q.read + 1 ∧
      q'.head = q.head ∧ t.mem = s.mem) ∧
  (∀ s q, mget s.queues s.inp.n = some q → mayRead s s.inp.n q = true → q.typ = some .launch →
    launchRecord { s with nextId := s.nextId + 1, queues := mmod s.queues s.inp.n (fun x => { x with read := x.read + 1 }) } s.inp.n
      (s.bytes (q.entry q.read) 64) = none →
    ∃ t q', exec .hostReadCompletion s = .next t ∧ mget t.images s.nextId = none ∧ mget t.queues s.inp.n = some q' ∧ q'.read = q.read + 1 ∧
      q'.head = q.head + 1) ∧
  (∀ s q o tile c k, mget s.queues s.inp.n = some q → mayRead s s.inp.n q = true → q.typ = some .input → q.port = some o → o.dest = .chan tile c →
    tile < 0x10000 → inputToken (s.bytes (q.entry q.read) 64) (streamRin s (s.inp.n / 4096)) = some k →
    ∃ t q' m, exec .hostReadCompletion s = .next t ∧ mget t.queues s.inp.n = some q' ∧ q'.read = q.read + 1 ∧
      q'.port = some { o with credits := o.credits - 1, pos := o.pos + 1 } ∧ t.net = s.net ++ [m] ∧ m.dst = tile ∧
      m.body = .token c o.pos { k with ch := c } ∧ t.mem = s.mem) ∧
  (∀ s, ∃ t, exec .flr s = .next t ∧ (∀ m ∈ t.images, m.2.part ≠ s.inp.p.toNat) ∧ (∀ x ∈ t.queues, x.1 / 4096 = s.inp.p.toNat → x.2.en = false) ∧
    t.head.keys = s.head.keys ∧ t.head.energy = s.head.energy ∧ t.head.partdefs = s.head.partdefs) ∧
  (∀ s h, s.ports[s.inp.n]? = some h → (∃ t, exec .hostPortLinkDown s = .next t ∧ t.ports[s.inp.n]? = some { h with up := false }) ∧
    ∃ t, exec .hostPortLinkUp s = .next t ∧ t.ports[s.inp.n]? = some { h with up := true })

/-- R298, R435, R439, R449, R450: span and root writes keep their defined bits; SUNDO changes only while no partition is defined; LOAD, GEN and ZERO change exactly
the key they name, refused outside the window's range and for equal halves, and busy while a partition that holds the index has a phase; and a register
reads as it was written, a window's too while its partition is not defined.
Where a clause rests on the model's own choice, that is log entries 114, 115, 116. -/
def Obligations.RegistersAndKeys : Prop :=
  (∀ s q, mget s.parts s.inp.p.toNat = some q →
    exec .spanWrite s = .next { s with parts := mset s.parts s.inp.p.toNat { q with mem := { q.mem with
      spans := q.mem.spans.set s.inp.n (s.inp.v &&& 0xF000003FFFFFFFFF) } } } ∧
    ∃ t, exec .ptrootWrite s = .next t ∧ t.recvs = s.recvs ∧ t.head = s.head ∧
      t.parts = mset s.parts s.inp.p.toNat { q with mem := { q.mem with root := s.inp.v &&& 0x3FFFFFFF001 } }) ∧
  (∀ s, exec .sundoWrite s = .next (if s.parts = [] then { s with head := { s.head with sundo := s.inp.v.setWidth 4 } } else s)) ∧
  (∀ s, s.inp.own = none → s.inp.n < 4096 → keyBusy s s.inp.n = false →
    (s.head.kmat.length = 64 → s.head.kmat.take 32 ≠ s.head.kmat.drop 32 → ∃ t, exec .keycmdLoad s = .next t ∧
      mget t.head.keys s.inp.n = some s.head.kmat ∧ t.head.kmat = [] ∧ t.head.kres = 0 ∧ ∀ k, k ≠ s.inp.n → mget t.head.keys k = mget s.head.keys k) ∧
    (s.head.kmat.length = 64 → s.head.kmat.take 32 = s.head.kmat.drop 32 → ∃ t, exec .keycmdLoad s = .next t ∧ t.head.keys = s.head.keys ∧ t.head.kres = 2) ∧
    (∃ t b, exec .keycmdGen s = .next t ∧ mget t.head.keys s.inp.n = some b ∧ b.length = 64 ∧ t.head.kres = 0 ∧
      ∀ k, k ≠ s.inp.n → mget t.head.keys k = mget s.head.keys k) ∧
    (∃ t, exec .keycmdZero s = .next t ∧ mget t.head.keys s.inp.n = none ∧ t.head.kres = 0 ∧
      ∀ k, k ≠ s.inp.n → mget t.head.keys k = mget s.head.keys k)) ∧
  (∀ s p q, s.inp.own = some p → mget s.parts p.toNat = some q → ¬(q.mem.kfirst ≤ s.inp.n ∧ s.inp.n < q.mem.kfirst + q.mem.kcnt) →
    ∀ i ∈ [Instr.keycmdLoad, .keycmdGen, .keycmdZero], ∃ t q', exec i s = .next t ∧ t.head.keys = s.head.keys ∧ mget t.parts p.toNat = some q' ∧ q'.kres = 2) ∧
  (∀ s, s.inp.own = none → s.inp.n < 4096 → keyBusy s s.inp.n = true →
    ∀ i ∈ [Instr.keycmdLoad, .keycmdGen, .keycmdZero], ∃ t, exec i s = .next t ∧ t.head.keys = s.head.keys ∧ t.head.kmat = s.head.kmat ∧ t.head.kres = 1) ∧
  (∀ s, s.inp.sp = .module → ∀ x ∈ [((0x10 : BitVec 18), (0xFFFF : Word)), (0x2100, 0xFFFFFFFFFFFFFFFF), (0x2208, 0xFFFFFFFFFFFFF001), (0x2210, 0xFFFFFFFF)],
    s.inp.off = x.1 → ∃ t, exec .registerWrite s = .next t ∧ readReg t .module x.1.toNat = s.inp.v &&& x.2) ∧
  (∀ s p, s.inp.sp = .window p → (s.window p.toNat).spans.length = 64 →
    (∀ n, n < 64 → s.inp.off = BitVec.ofNat 18 (0x20000 + 8 * n) →
      ∃ t, exec .registerWrite s = .next t ∧ readReg t (.window p) (0x20000 + 8 * n) = s.inp.v &&& 0xF000003FFFFFFFFF) ∧
    (∀ x ∈ [((0x20200 : BitVec 18), (0x3FFFFFFF001 : Word)), (0x20218, 0xFFFFFFFF), (0x20240, 0xFFFFFFFFFFFFFFFF)],
      s.inp.off = x.1 → ∃ t, exec .registerWrite s = .next t ∧ readReg t (.window p) x.1.toNat = s.inp.v &&& x.2)) ∧
  (∀ s, s.inp.off.toNat % 8 ≠ 0 → exec .registerWrite s = .next s)

/-- R215, R434, R448, R453, R454: a signed reading takes the next reading number and writes its 1,328 bytes at ESADDR; the attestation report has 1,536 bytes, the
nonce, BOOTST and %time in their places; the counters are flashed every second, and after a loss of auxiliary power resume from flash, RNUM 2^32 further, for
every partition number and the house; a management request is answered in units of 64 bytes, one over host port 0 once that port is up, and a second
one of the same endpoint is answered busy.
Where a clause rests on the model's own choice, that is log entries 12, 115, 120. -/
def Obligations.ReadingsAndReports : Prop :=
  (∀ s q, mget s.parts s.inp.p.toNat = some q →
    ∃ t r, exec .esnonceWrite s = .next t ∧ r.length = 1328 ∧ t.mem = memPuts s.mem (hostKey q.esaddr.toNat) r ∧
      t.account s.inp.p.toNat = { s.account s.inp.p.toNat with rnum := (s.account s.inp.p.toNat).rnum + 1 } ∧
      r.take 34 = leBytes 8 (s.account s.inp.p.toNat).uj.toNat ++ leBytes 8 ((s.account s.inp.p.toNat).rnum + 1).toNat ++ leBytes 8 s.time ++
        leBytes 8 s.inp.v.toNat ++ leBytes 2 s.inp.p.toNat) ∧
  (∀ s, ∃ r, exec .attnonceWrite s = .next (s.puts (hostKey s.head.attAddr.toNat) r) ∧ r.length = 1536 ∧
    (r.drop 8).take 32 = leBytes 32 s.inp.nonce.toNat ∧ (r.drop 168).take 8 = leBytes 8 (bootst s).toNat ∧ (r.drop 176).take 8 = leBytes 8 s.time) ∧
  (∀ s p e, mget s.head.energy p = some e →
    (∃ t, exec .counterFlash s = .next t ∧ mget t.head.energy p = some { e with flashUj := e.uj, flashRnum := e.rnum }) ∧
    (∀ k, k < 65 → ∃ t, exec .auxPowerLoss s = .next t ∧ t.account k = { s.account k with
      uj := (s.account k).flashUj, frac := 0, rnum := (s.account k).flashRnum + 0x100000000, flashRnum := (s.account k).flashRnum + 0x100000000 })) ∧
  (∀ bs : List Byte, (mctpUnits bs).flatten = bs ∧ ∀ u ∈ mctpUnits bs, u.length ≤ 64) ∧
  (∀ s r, s.inp.mctp = some r → r.ep.binding = .vdm → s.portUp (hostIf 0) = false → exec .mctpRequest s = .next s) ∧
  (∀ s e bs, s.inp.mctp = some (.control e bs) → (e.binding = .vdm → s.portUp (hostIf 0) = true) → (∀ x ∈ s.head.mctpReplies, x.1 ≠ e) →
    ∃ t a, exec .mctpRequest s = .next t ∧ t.head.mctpReplies = s.head.mctpReplies ++ (mctpUnits a).map (fun u => (e, u)) ∧ t.mem = s.mem) ∧
  (∀ s r, s.inp.mctp = some r → (r.ep.binding = .vdm → s.portUp (hostIf 0) = true) → (∃ x ∈ s.head.mctpReplies, x.1 = r.ep) →
    exec .mctpRequest s = .next { s with head := { s.head with mctpReplies := s.head.mctpReplies ++ [(r.ep, [1])] } }) ∧
  (∀ s e sp o, s.inp.mctp = some (.read e sp o) → (e.binding = .vdm → s.portUp (hostIf 0) = true) → (∀ x ∈ s.head.mctpReplies, x.1 ≠ e) →
    exec .mctpRequest s = .next { s with head := { s.head with mctpReplies := s.head.mctpReplies ++ [(e, 0 :: leBytes 8 (readReg s sp o.toNat).toNat)] } }) ∧
  (∀ s e v, s.inp.mctp = some (.write e .module 0x2100 v) → (e.binding = .vdm → s.portUp (hostIf 0) = true) → (∀ x ∈ s.head.mctpReplies, x.1 ≠ e) →
    exec .mctpRequest s = .next { s with head := { s.head with attAddr := v, mctpReplies := s.head.mctpReplies ++ [(e, [0])] } })

/-- R434, R440 to R445, R449, R455: LOAD and its end never write the running slot and report the result; COMMIT raises the fused minimum only for a newer version
that has booted through; bring-up keeps memory, stops in recovery when neither slot verifies, releases no tile without a fuse map, and else completes step 7
with every key zero; a thermal trip ends every image, powers the tiles down and keeps the energy accounts.
Where a clause rests on the model's own choice, that is log entries 108, 110, 111, 112, 113, 121. -/
def Obligations.FirmwareAndReset : Prop :=
  (∀ s, s.head.fwResult ≠ 1 → ∃ t, exec .fwcmdLoad s = .next t ∧ t.head.fwResult = 1 ∧ t.head.slotSvn = 0 ∧
    t.agenda = s.agenda ++ [⟨headIf, .fwLoadDone, Input.none⟩] ∧
    (if s.head.fwB then t.fuses.slotB = s.fuses.slotB else t.fuses.slotA = s.fuses.slotA)) ∧
  (∀ s, s.head.fwResult = 1 → exec .fwcmdLoad s = .next s ∧ exec .fwcmdCommit s = .next s) ∧
  (∀ s, s.head.fwResult = 1 → ∃ t, exec .fwLoadDone s = .next t ∧ t.head.fwResult ≠ 1 ∧ t.mem = s.mem ∧
    (if s.head.fwB then t.fuses.slotB = s.fuses.slotB else t.fuses.slotA = s.fuses.slotA) ∧
    (Config.slotBytes < s.head.fwLen.toNat → t.head.fwResult = 5) ∧
    (s.head.fwLen.toNat ≤ Config.slotBytes → s.head.fwAddr.getLsbD 0 = false → s.portUp (hostIf 0) = false → t.head.fwResult = 6)) ∧
  (∀ s, s.head.fwResult ≠ 1 → s.fuses.minSvn < s.head.fwSvn.toNat → s.head.bootStep = 7 →
    ∃ t, exec .fwcmdCommit s = .next t ∧ t.head.fwResult = 2 ∧ t.fuses = { s.fuses with minSvn := s.head.fwSvn.toNat }) ∧
  (∀ s, s.head.fwResult ≠ 1 → (s.head.fwSvn.toNat ≤ s.fuses.minSvn ∨ s.head.bootStep ≠ 7) →
    ∃ t, exec .fwcmdCommit s = .next t ∧ t.head.fwResult = 7 ∧ t.fuses = s.fuses) ∧
  (∀ s, bootSlot s = none → ∃ t, exec .bringUp s = .next t ∧ t.head.recov = true ∧ t.head.bootStep = 2 ∧ (∀ x, t.live x = false) ∧ t.mem = s.mem) ∧
  (∀ s b, bootSlot s = some b → mapError s.fuses = 5 →
    ∃ t, exec .bringUp s = .next t ∧ t.head.map = 2 ∧ t.head.fwB = b ∧ (∀ x, t.live x = false) ∧ t.mem = s.mem ∧ t.head.keys = []) ∧
  (∀ s b, bootSlot s = some b → mapError s.fuses ≠ 5 →
    ∃ t, exec .bringUp s = .next t ∧ t.head.map = (if mapError s.fuses = 0 then 0 else 1) ∧ t.head.fwB = b ∧ t.head.bootStep = 7 ∧ t.head.recov = false ∧
      t.mem = s.mem ∧ t.head.keys = [] ∧ t.parts = [] ∧ t.head.energy = s.head.energy ∧ t.head.trip = s.head.trip) ∧
  (∀ s, ∃ t, exec .thermalTrip s = .next t ∧ t.head.trip = true ∧ (∀ x, t.live x = false) ∧ t.images = [] ∧ t.net = [] ∧ t.inbox = [] ∧
    t.head.energy = s.head.energy)

-- The whole machine

/-- R10, R46, R47, R72, R79, R111, R298, R386, R408, R435, R436, R449, R450: what reset leaves: %time 0, no byte listed in memory, no partition, no usable key, the tiles not
released, BUDGET 28,000, SUNDO SIZE 4; and a reset tile has 64 registers of 0 without poison at each level, %fpst 0, %seed 1, no return address, no invocation,
no block, and a watchdog limit of 100,000,000.
Where a clause rests on the model's own choice, that is log entries 15, 16, 21, 26, 27, 28. -/
def Obligations.ResetState : Prop :=
  State.reset.time = 0 ∧ State.reset.mem = [] ∧ State.reset.parts = [] ∧ State.reset.head.keys = [] ∧ (∀ t, State.reset.live t = false) ∧
  State.reset.head.budget = 28000 ∧ State.reset.head.sundo = 4 ∧ MemOk State.reset ∧
  (∀ hi, (CTile.reset.level hi).regs = List.replicate 64 ⟨0, false⟩ ∧ (CTile.reset.level hi).fpst = 0 ∧ (CTile.reset.level hi).seed = 1 ∧
    (CTile.reset.level hi).link = 0xFFFFFFFF ∧ (CTile.reset.level hi).inv = none ∧ (CTile.reset.level hi).blk = none) ∧
  CTile.reset.sys.wdlim = 100000000 ∧ State.reset.core = CTile.reset

/-- R3, R4: a tile ID holds y in bits 15:8 and x in bits 7:0; a site is a compute tile when x + y is even and a memory tile when it is odd, so that neighbours are
of different kinds; there are 66 of each kind in each of 128 rows, 8,448 in all. -/
def Obligations.SitesOfTheField : Prop :=
  (∀ x y, x ≤ 131 → y ≤ 127 → (BitVec.ofNat 16 (tileId x y)).extractLsb' 8 8 = BitVec.ofNat 8 y ∧
    (BitVec.ofNat 16 (tileId x y)).extractLsb' 0 8 = BitVec.ofNat 8 x ∧ tileId x y < 2 ^ 16 ∧ inField (tileId x y) = true ∧
    (isCTile (tileId x y) = true ↔ (x + y) % 2 = 0)) ∧
  (∀ t w u, neighbour t w = some u → isCTile u = !(isCTile t)) ∧
  (∀ y, y ≤ 127 → ((List.range 132).filter (fun x => isCTile (tileId x y))).length = 66 ∧
    ((List.range 132).filter (fun x => !isCTile (tileId x y))).length = 66) ∧
  ((List.range 128).map (fun y => ((List.range 132).filter (fun x => isCTile (tileId x y))).length)).sum = 8448 ∧
  ((List.range 128).map (fun y => ((List.range 132).filter (fun x => !isCTile (tileId x y))).length)).sum = 8448

/-- R60, R240, R458: what a step does. The step that is due first is taken; with none due, the lowest slot that is ready fires, and the instruction is the one its
word decodes to, the word of any instruction being its encoding; a slot that fires has its operands and fires with at most four of its cycle, two of them
memory instructions; and with nothing at all to do the cycle of the next tile ends.
Where a clause rests on the model's own choice, that is log entries 2, 4, 125. -/
def Obligations.StepRunsDecoded : Prop :=
  (∀ s it r, s.agenda = it :: r → step s = exec it.step ({ s with agenda := r }.begin it.agent it.inp)) ∧
  (∀ s k b sl i, s.agenda = [] → pickSlot s = some k → s.blk? = some b → b.slots[k]? = some sl → decode sl.word = .ok i →
    step s = exec i { s.begin s.cur Input.none with core := { s.core with slot := k } }) ∧
  (∀ s k b sl i, s.agenda = [] → pickSlot s = some k → s.blk? = some b → b.slots[k]? = some sl → encode i = some sl.word →
    step s = exec i { s.begin s.cur Input.none with core := { s.core with slot := k } }) ∧
  (∀ s k, pickSlot s = some k → s.core.sys.stopped = false ∧ s.core.fired < 4 ∧ ∃ b sl i f, s.blk? = some b ∧ b.slots[k]? = some sl ∧
    decode sl.word = .ok i ∧ infoOf i = some f ∧ sl.st = .waiting ∧ (f.mem = true → s.core.mems < 2) ∧
    ∀ j, j < k → ∀ x, b.slots[j]? = some x → slotReady s b j = true → slotMem b j = true ∧ 2 ≤ s.core.mems) ∧
  (∀ s, s.agenda = [] → pickSlot s = none → tileStep s = none → nextArrival s = none → askingAgent s = none → fabricStep s = none → moduleStep s = none →
    step s = exec .resultDelivery (s.begin (nextTile s) Input.none))

/-- R28, R29, R31, R33 to R44: words written out from the encodings decode to the instructions they stand for. -/
def Obligations.DecodedWords : Prop :=
  (decode 0x01DFFFFF = .ok (.bro 3 3 0x7FFFF)) ∧
  (decode 0x06080000 = .ok (.hend 0 1)) ∧
  (decode 0x0CFFFF03 = .ok (.movi 0x1FFFE 3)) ∧
  (decode 0x0E113FA0 = .ok (.read 0 17 0x7F 0x20)) ∧
  (decode 0x14003F85 = .ok (.add 0 0x7F 0x05)) ∧
  (decode 0x15805141 = .ok (.subW 2 0x22 0x41)) ∧
  (decode 0x1600028A = .ok (.addi 0 5 0x0A)) ∧
  (decode 0x20213F88 = .ok (.tltu 0 1 0x7F 8)) ∧
  (decode 0x30183F86 = .ok (.fadd 0 3 0x7F 6)) ∧
  (decode 0x33047F82 = .ok (.cvtq8 0 0 2 1 0x7F 2)) ∧
  (decode 0x4301FF84 = .ok (.ldD 0 0 0x3FF 4)) ∧
  (decode 0x4932017F = .ok (.stW 0 1 9 2 0x7F)) ∧
  (decode 0x5E197FFF = .ok (.bara 0 37 0x7F 0x7F)) ∧
  (decode 0x65C0FF81 = .ok (.rld 3 3 0x7F 1)) ∧
  (decode 0x6C05BFFF = .ok (.mattr 0 1 2 0x7F 0x7F)) ∧
  (decode 0x71027F89 = .ok (.strmOut 0 1 0x7F 9)) ∧
  (decode 0x7802BFFF = .ok (.cswp 0)) ∧
  (∀ w : Word32, w.toNat / 2 ^ 24 = 0 → decode w = .error .unassignedOpcode)

/-- R28 to R44: decoding and encoding agree: a word decodes to an instruction exactly when it is that instruction's encoding, with every operand at every value the
encoding admits; every instruction of the opcode map has an encoding, and a step that is no instruction has none. -/
def Obligations.DecodeAndEncodeAgree : Prop :=
  (∀ (w : Word32) (i : Instr), decode w = .ok i ↔ encode i = some w) ∧ (∀ i, (infoOf i).isSome = (encode i).isSome)

/-- The manual gives every step an effect (R14, R365, R458): no step ends in a fault or a refusal, of any instruction or event and in any state.
Where a clause rests on the model's own choice, that is log entries 3, 6. -/
def Obligations.EveryStepGoesOn : Prop :=
  (∀ i s, ∃ t, exec i s = .next t) ∧ ∀ s, Goes (step s)

/-- Every step keeps memory in its canonical form, in which equal memories are equal data: keys strictly rising, and no byte listed that an unlisted one reads as.
Where a clause rests on the model's own choice, that is log entries 27, 29. -/
def Obligations.MemoryStaysCanonical : Prop :=
  ∀ s t, MemOk s → step s = .next t → MemOk t
end

