-- ==== Sys2Proof/Laws/Dispatch.lean ====
section
/-!
SUPPORT. Each arm of exec as an equation: the meaning that stands for a constructor.
-/

namespace Sys2Proof.Laws

open Sys2Proof Sys2Proof.Machine

theorem exec_bro x0 x1 x2 s : exec (.bro x0 x1 x2) s = execBro x0 x1 x2 s := rfl
theorem exec_brr x0 x1 s : exec (.brr x0 x1) s = execBrr x0 x1 s := rfl
theorem exec_callo x0 x1 x2 s : exec (.callo x0 x1 x2) s = execCallo x0 x1 x2 s := rfl
theorem exec_callr x0 x1 s : exec (.callr x0 x1) s = execCallr x0 x1 s := rfl
theorem exec_ret x0 x1 s : exec (.ret x0 x1) s = execRet x0 x1 s := rfl
theorem exec_hend x0 x1 s : exec (.hend x0 x1) s = execHend x0 x1 s := rfl
theorem exec_trapi x0 x1 s : exec (.trapi x0 x1) s = execTrapi x0 x1 s := rfl
theorem exec_brk x0 x1 s : exec (.brk x0 x1) s = execBrk x0 x1 s := rfl
theorem exec_nop x0 s : exec (.nop x0) s = execNop x0 s := rfl
theorem exec_rstl x0 x1 s : exec (.rstl x0 x1) s = execRstl x0 x1 s := rfl
theorem exec_mov x0 x1 x2 s : exec (.mov x0 x1 x2) s = execMov x0 x1 x2 s := rfl
theorem exec_movi x0 x1 s : exec (.movi x0 x1) s = execMovi x0 x1 s := rfl
theorem exec_genc x0 x1 x2 s : exec (.genc x0 x1 x2) s = execGenc x0 x1 x2 s := rfl
theorem exec_read x0 x1 x2 x3 s : exec (.read x0 x1 x2 x3) s = execRead x0 x1 x2 x3 s := rfl
theorem exec_write x0 x1 s : exec (.write x0 x1) s = execWrite x0 x1 s := rfl
theorem exec_mfs x0 x1 x2 s : exec (.mfs x0 x1 x2) s = execMfs x0 x1 x2 s := rfl
theorem exec_mts x0 x1 s : exec (.mts x0 x1) s = execMts x0 x1 s := rfl
theorem exec_null x0 x1 x2 s : exec (.null x0 x1 x2) s = execNull x0 x1 x2 s := rfl
theorem exec_sel x0 x1 s : exec (.sel x0 x1) s = execSel x0 x1 s := rfl
theorem exec_add x0 x1 x2 s : exec (.add x0 x1 x2) s = execAdd x0 x1 x2 s := rfl
theorem exec_sub x0 x1 x2 s : exec (.sub x0 x1 x2) s = execSub x0 x1 x2 s := rfl
theorem exec_mul x0 x1 x2 s : exec (.mul x0 x1 x2) s = execMul x0 x1 x2 s := rfl
theorem exec_mulhs x0 x1 x2 s : exec (.mulhs x0 x1 x2) s = execMulhs x0 x1 x2 s := rfl
theorem exec_mulhu x0 x1 x2 s : exec (.mulhu x0 x1 x2) s = execMulhu x0 x1 x2 s := rfl
theorem exec_divs x0 x1 x2 s : exec (.divs x0 x1 x2) s = execDivs x0 x1 x2 s := rfl
theorem exec_divu x0 x1 x2 s : exec (.divu x0 x1 x2) s = execDivu x0 x1 x2 s := rfl
theorem exec_rems x0 x1 x2 s : exec (.rems x0 x1 x2) s = execRems x0 x1 x2 s := rfl
theorem exec_remu x0 x1 x2 s : exec (.remu x0 x1 x2) s = execRemu x0 x1 x2 s := rfl
theorem exec_min x0 x1 x2 s : exec (.min x0 x1 x2) s = execMin x0 x1 x2 s := rfl
theorem exec_max x0 x1 x2 s : exec (.max x0 x1 x2) s = execMax x0 x1 x2 s := rfl
theorem exec_minu x0 x1 x2 s : exec (.minu x0 x1 x2) s = execMinu x0 x1 x2 s := rfl
theorem exec_maxu x0 x1 x2 s : exec (.maxu x0 x1 x2) s = execMaxu x0 x1 x2 s := rfl
theorem exec_and x0 x1 x2 s : exec (.and x0 x1 x2) s = execAnd x0 x1 x2 s := rfl
theorem exec_or x0 x1 x2 s : exec (.or x0 x1 x2) s = execOr x0 x1 x2 s := rfl
theorem exec_xor x0 x1 x2 s : exec (.xor x0 x1 x2) s = execXor x0 x1 x2 s := rfl
theorem exec_andn x0 x1 x2 s : exec (.andn x0 x1 x2) s = execAndn x0 x1 x2 s := rfl
theorem exec_orn x0 x1 x2 s : exec (.orn x0 x1 x2) s = execOrn x0 x1 x2 s := rfl
theorem exec_xnor x0 x1 x2 s : exec (.xnor x0 x1 x2) s = execXnor x0 x1 x2 s := rfl
theorem exec_shl x0 x1 x2 s : exec (.shl x0 x1 x2) s = execShl x0 x1 x2 s := rfl
theorem exec_shr x0 x1 x2 s : exec (.shr x0 x1 x2) s = execShr x0 x1 x2 s := rfl
theorem exec_sar x0 x1 x2 s : exec (.sar x0 x1 x2) s = execSar x0 x1 x2 s := rfl
theorem exec_rol x0 x1 x2 s : exec (.rol x0 x1 x2) s = execRol x0 x1 x2 s := rfl
theorem exec_ror x0 x1 x2 s : exec (.ror x0 x1 x2) s = execRor x0 x1 x2 s := rfl
theorem exec_abs x0 x1 x2 s : exec (.abs x0 x1 x2) s = execAbs x0 x1 x2 s := rfl
theorem exec_clz x0 x1 x2 s : exec (.clz x0 x1 x2) s = execClz x0 x1 x2 s := rfl
theorem exec_ctz x0 x1 x2 s : exec (.ctz x0 x1 x2) s = execCtz x0 x1 x2 s := rfl
theorem exec_popc x0 x1 x2 s : exec (.popc x0 x1 x2) s = execPopc x0 x1 x2 s := rfl
theorem exec_brev x0 x1 x2 s : exec (.brev x0 x1 x2) s = execBrev x0 x1 x2 s := rfl
theorem exec_bswap x0 x1 x2 s : exec (.bswap x0 x1 x2) s = execBswap x0 x1 x2 s := rfl
theorem exec_sextB x0 x1 x2 s : exec (.sextB x0 x1 x2) s = execSextB x0 x1 x2 s := rfl
theorem exec_sextH x0 x1 x2 s : exec (.sextH x0 x1 x2) s = execSextH x0 x1 x2 s := rfl
theorem exec_sextW x0 x1 x2 s : exec (.sextW x0 x1 x2) s = execSextW x0 x1 x2 s := rfl
theorem exec_zextB x0 x1 x2 s : exec (.zextB x0 x1 x2) s = execZextB x0 x1 x2 s := rfl
theorem exec_zextH x0 x1 x2 s : exec (.zextH x0 x1 x2) s = execZextH x0 x1 x2 s := rfl
theorem exec_zextW x0 x1 x2 s : exec (.zextW x0 x1 x2) s = execZextW x0 x1 x2 s := rfl
theorem exec_addW x0 x1 x2 s : exec (.addW x0 x1 x2) s = execAddW x0 x1 x2 s := rfl
theorem exec_subW x0 x1 x2 s : exec (.subW x0 x1 x2) s = execSubW x0 x1 x2 s := rfl
theorem exec_mulW x0 x1 x2 s : exec (.mulW x0 x1 x2) s = execMulW x0 x1 x2 s := rfl
theorem exec_mulhsW x0 x1 x2 s : exec (.mulhsW x0 x1 x2) s = execMulhsW x0 x1 x2 s := rfl
theorem exec_mulhuW x0 x1 x2 s : exec (.mulhuW x0 x1 x2) s = execMulhuW x0 x1 x2 s := rfl
theorem exec_divsW x0 x1 x2 s : exec (.divsW x0 x1 x2) s = execDivsW x0 x1 x2 s := rfl
theorem exec_divuW x0 x1 x2 s : exec (.divuW x0 x1 x2) s = execDivuW x0 x1 x2 s := rfl
theorem exec_remsW x0 x1 x2 s : exec (.remsW x0 x1 x2) s = execRemsW x0 x1 x2 s := rfl
theorem exec_remuW x0 x1 x2 s : exec (.remuW x0 x1 x2) s = execRemuW x0 x1 x2 s := rfl
theorem exec_minW x0 x1 x2 s : exec (.minW x0 x1 x2) s = execMinW x0 x1 x2 s := rfl
theorem exec_maxW x0 x1 x2 s : exec (.maxW x0 x1 x2) s = execMaxW x0 x1 x2 s := rfl
theorem exec_minuW x0 x1 x2 s : exec (.minuW x0 x1 x2) s = execMinuW x0 x1 x2 s := rfl
theorem exec_maxuW x0 x1 x2 s : exec (.maxuW x0 x1 x2) s = execMaxuW x0 x1 x2 s := rfl
theorem exec_andW x0 x1 x2 s : exec (.andW x0 x1 x2) s = execAndW x0 x1 x2 s := rfl
theorem exec_orW x0 x1 x2 s : exec (.orW x0 x1 x2) s = execOrW x0 x1 x2 s := rfl
theorem exec_xorW x0 x1 x2 s : exec (.xorW x0 x1 x2) s = execXorW x0 x1 x2 s := rfl
theorem exec_andnW x0 x1 x2 s : exec (.andnW x0 x1 x2) s = execAndnW x0 x1 x2 s := rfl
theorem exec_ornW x0 x1 x2 s : exec (.ornW x0 x1 x2) s = execOrnW x0 x1 x2 s := rfl
theorem exec_xnorW x0 x1 x2 s : exec (.xnorW x0 x1 x2) s = execXnorW x0 x1 x2 s := rfl
theorem exec_shlW x0 x1 x2 s : exec (.shlW x0 x1 x2) s = execShlW x0 x1 x2 s := rfl
theorem exec_shrW x0 x1 x2 s : exec (.shrW x0 x1 x2) s = execShrW x0 x1 x2 s := rfl
theorem exec_sarW x0 x1 x2 s : exec (.sarW x0 x1 x2) s = execSarW x0 x1 x2 s := rfl
theorem exec_rolW x0 x1 x2 s : exec (.rolW x0 x1 x2) s = execRolW x0 x1 x2 s := rfl
theorem exec_rorW x0 x1 x2 s : exec (.rorW x0 x1 x2) s = execRorW x0 x1 x2 s := rfl
theorem exec_absW x0 x1 x2 s : exec (.absW x0 x1 x2) s = execAbsW x0 x1 x2 s := rfl
theorem exec_clzW x0 x1 x2 s : exec (.clzW x0 x1 x2) s = execClzW x0 x1 x2 s := rfl
theorem exec_ctzW x0 x1 x2 s : exec (.ctzW x0 x1 x2) s = execCtzW x0 x1 x2 s := rfl
theorem exec_popcW x0 x1 x2 s : exec (.popcW x0 x1 x2) s = execPopcW x0 x1 x2 s := rfl
theorem exec_brevW x0 x1 x2 s : exec (.brevW x0 x1 x2) s = execBrevW x0 x1 x2 s := rfl
theorem exec_bswapW x0 x1 x2 s : exec (.bswapW x0 x1 x2) s = execBswapW x0 x1 x2 s := rfl
theorem exec_addi x0 x1 x2 s : exec (.addi x0 x1 x2) s = execAddi x0 x1 x2 s := rfl
theorem exec_addiW x0 x1 x2 s : exec (.addiW x0 x1 x2) s = execAddiW x0 x1 x2 s := rfl
theorem exec_andi x0 x1 x2 s : exec (.andi x0 x1 x2) s = execAndi x0 x1 x2 s := rfl
theorem exec_ori x0 x1 x2 s : exec (.ori x0 x1 x2) s = execOri x0 x1 x2 s := rfl
theorem exec_xori x0 x1 x2 s : exec (.xori x0 x1 x2) s = execXori x0 x1 x2 s := rfl
theorem exec_shli x0 x1 x2 x3 s : exec (.shli x0 x1 x2 x3) s = execShli x0 x1 x2 x3 s := rfl
theorem exec_shri x0 x1 x2 x3 s : exec (.shri x0 x1 x2 x3) s = execShri x0 x1 x2 x3 s := rfl
theorem exec_sari x0 x1 x2 x3 s : exec (.sari x0 x1 x2 x3) s = execSari x0 x1 x2 x3 s := rfl
theorem exec_roli x0 x1 x2 x3 s : exec (.roli x0 x1 x2 x3) s = execRoli x0 x1 x2 x3 s := rfl
theorem exec_rori x0 x1 x2 x3 s : exec (.rori x0 x1 x2 x3) s = execRori x0 x1 x2 x3 s := rfl
theorem exec_teq x0 x1 x2 x3 s : exec (.teq x0 x1 x2 x3) s = execTeq x0 x1 x2 x3 s := rfl
theorem exec_tne x0 x1 x2 x3 s : exec (.tne x0 x1 x2 x3) s = execTne x0 x1 x2 x3 s := rfl
theorem exec_tlt x0 x1 x2 x3 s : exec (.tlt x0 x1 x2 x3) s = execTlt x0 x1 x2 x3 s := rfl
theorem exec_tle x0 x1 x2 x3 s : exec (.tle x0 x1 x2 x3) s = execTle x0 x1 x2 x3 s := rfl
theorem exec_tltu x0 x1 x2 x3 s : exec (.tltu x0 x1 x2 x3) s = execTltu x0 x1 x2 x3 s := rfl
theorem exec_tleu x0 x1 x2 x3 s : exec (.tleu x0 x1 x2 x3) s = execTleu x0 x1 x2 x3 s := rfl
theorem exec_teqi x0 x1 x2 s : exec (.teqi x0 x1 x2) s = execTeqi x0 x1 x2 s := rfl
theorem exec_tnei x0 x1 x2 s : exec (.tnei x0 x1 x2) s = execTnei x0 x1 x2 s := rfl
theorem exec_tlti x0 x1 x2 s : exec (.tlti x0 x1 x2) s = execTlti x0 x1 x2 s := rfl
theorem exec_tlei x0 x1 x2 s : exec (.tlei x0 x1 x2) s = execTlei x0 x1 x2 s := rfl
theorem exec_tltui x0 x1 x2 s : exec (.tltui x0 x1 x2) s = execTltui x0 x1 x2 s := rfl
theorem exec_tleui x0 x1 x2 s : exec (.tleui x0 x1 x2) s = execTleui x0 x1 x2 s := rfl
theorem exec_lop3 x0 x1 x2 s : exec (.lop3 x0 x1 x2) s = execLop3 x0 x1 x2 s := rfl
theorem exec_fshl x0 x1 x2 s : exec (.fshl x0 x1 x2) s = execFshl x0 x1 x2 s := rfl
theorem exec_fshr x0 x1 x2 s : exec (.fshr x0 x1 x2) s = execFshr x0 x1 x2 s := rfl
theorem exec_extb x0 x1 x2 x3 x4 s : exec (.extb x0 x1 x2 x3 x4) s = execExtb x0 x1 x2 x3 x4 s := rfl
theorem exec_insb x0 x1 s : exec (.insb x0 x1) s = execInsb x0 x1 s := rfl
theorem exec_appc x0 x1 x2 s : exec (.appc x0 x1 x2) s = execAppc x0 x1 x2 s := rfl
theorem exec_fadd x0 x1 x2 x3 s : exec (.fadd x0 x1 x2 x3) s = execFadd x0 x1 x2 x3 s := rfl
theorem exec_fsub x0 x1 x2 x3 s : exec (.fsub x0 x1 x2 x3) s = execFsub x0 x1 x2 x3 s := rfl
theorem exec_fmul x0 x1 x2 x3 s : exec (.fmul x0 x1 x2 x3) s = execFmul x0 x1 x2 x3 s := rfl
theorem exec_fdiv x0 x1 x2 x3 s : exec (.fdiv x0 x1 x2 x3) s = execFdiv x0 x1 x2 x3 s := rfl
theorem exec_fsqrt x0 x1 x2 x3 s : exec (.fsqrt x0 x1 x2 x3) s = execFsqrt x0 x1 x2 x3 s := rfl
theorem exec_fmin x0 x1 x2 s : exec (.fmin x0 x1 x2) s = execFmin x0 x1 x2 s := rfl
theorem exec_fmax x0 x1 x2 s : exec (.fmax x0 x1 x2) s = execFmax x0 x1 x2 s := rfl
theorem exec_fabs x0 x1 x2 s : exec (.fabs x0 x1 x2) s = execFabs x0 x1 x2 s := rfl
theorem exec_fneg x0 x1 x2 s : exec (.fneg x0 x1 x2) s = execFneg x0 x1 x2 s := rfl
theorem exec_fteq x0 x1 x2 s : exec (.fteq x0 x1 x2) s = execFteq x0 x1 x2 s := rfl
theorem exec_ftlt x0 x1 x2 s : exec (.ftlt x0 x1 x2) s = execFtlt x0 x1 x2 s := rfl
theorem exec_ftle x0 x1 x2 s : exec (.ftle x0 x1 x2) s = execFtle x0 x1 x2 s := rfl
theorem exec_ftun x0 x1 x2 s : exec (.ftun x0 x1 x2) s = execFtun x0 x1 x2 s := rfl
theorem exec_fclass x0 x1 x2 s : exec (.fclass x0 x1 x2) s = execFclass x0 x1 x2 s := rfl
theorem exec_frnd x0 x1 x2 x3 s : exec (.frnd x0 x1 x2 x3) s = execFrnd x0 x1 x2 x3 s := rfl
theorem exec_fexp2 x0 x1 x2 x3 s : exec (.fexp2 x0 x1 x2 x3) s = execFexp2 x0 x1 x2 x3 s := rfl
theorem exec_flog2 x0 x1 x2 x3 s : exec (.flog2 x0 x1 x2 x3) s = execFlog2 x0 x1 x2 x3 s := rfl
theorem exec_ffma x0 x1 x2 s : exec (.ffma x0 x1 x2) s = execFfma x0 x1 x2 s := rfl
theorem exec_cvtfiW x0 x1 x2 x3 s : exec (.cvtfiW x0 x1 x2 x3) s = execCvtfiW x0 x1 x2 x3 s := rfl
theorem exec_cvtfiWU x0 x1 x2 x3 s : exec (.cvtfiWU x0 x1 x2 x3) s = execCvtfiWU x0 x1 x2 x3 s := rfl
theorem exec_cvtfiD x0 x1 x2 x3 s : exec (.cvtfiD x0 x1 x2 x3) s = execCvtfiD x0 x1 x2 x3 s := rfl
theorem exec_cvtfiDU x0 x1 x2 x3 s : exec (.cvtfiDU x0 x1 x2 x3) s = execCvtfiDU x0 x1 x2 x3 s := rfl
theorem exec_cvtifW x0 x1 x2 x3 s : exec (.cvtifW x0 x1 x2 x3) s = execCvtifW x0 x1 x2 x3 s := rfl
theorem exec_cvtifWU x0 x1 x2 x3 s : exec (.cvtifWU x0 x1 x2 x3) s = execCvtifWU x0 x1 x2 x3 s := rfl
theorem exec_cvtifD x0 x1 x2 x3 s : exec (.cvtifD x0 x1 x2 x3) s = execCvtifD x0 x1 x2 x3 s := rfl
theorem exec_cvtifDU x0 x1 x2 x3 s : exec (.cvtifDU x0 x1 x2 x3) s = execCvtifDU x0 x1 x2 x3 s := rfl
theorem exec_cvtffH x0 x1 x2 x3 s : exec (.cvtffH x0 x1 x2 x3) s = execCvtffH x0 x1 x2 x3 s := rfl
theorem exec_cvtffBf x0 x1 x2 x3 s : exec (.cvtffBf x0 x1 x2 x3) s = execCvtffBf x0 x1 x2 x3 s := rfl
theorem exec_cvtffFH x0 x1 x2 s : exec (.cvtffFH x0 x1 x2) s = execCvtffFH x0 x1 x2 s := rfl
theorem exec_cvtffFBf x0 x1 x2 s : exec (.cvtffFBf x0 x1 x2) s = execCvtffFBf x0 x1 x2 s := rfl
theorem exec_cvtd x0 x1 x2 x3 s : exec (.cvtd x0 x1 x2 x3) s = execCvtd x0 x1 x2 x3 s := rfl
theorem exec_cvtq8 x0 x1 x2 x3 x4 x5 s : exec (.cvtq8 x0 x1 x2 x3 x4 x5) s = execCvtq8 x0 x1 x2 x3 x4 x5 s := rfl
theorem exec_cvtq6 x0 x1 x2 x3 x4 x5 s : exec (.cvtq6 x0 x1 x2 x3 x4 x5) s = execCvtq6 x0 x1 x2 x3 x4 x5 s := rfl
theorem exec_cvtq4 x0 x1 x2 x3 x4 x5 s : exec (.cvtq4 x0 x1 x2 x3 x4 x5) s = execCvtq4 x0 x1 x2 x3 x4 x5 s := rfl
theorem exec_srseed x0 x1 x2 s : exec (.srseed x0 x1 x2) s = execSrseed x0 x1 x2 s := rfl
theorem exec_bscale x0 x1 x2 x3 s : exec (.bscale x0 x1 x2 x3) s = execBscale x0 x1 x2 x3 s := rfl
theorem exec_qblk x0 x1 x2 x3 x4 x5 s : exec (.qblk x0 x1 x2 x3 x4 x5) s = execQblk x0 x1 x2 x3 x4 x5 s := rfl
theorem exec_dqblk x0 x1 x2 x3 s : exec (.dqblk x0 x1 x2 x3) s = execDqblk x0 x1 x2 x3 s := rfl
theorem exec_lutld x0 x1 x2 x3 s : exec (.lutld x0 x1 x2 x3) s = execLutld x0 x1 x2 x3 s := rfl
theorem exec_lutenc x0 x1 x2 x3 s : exec (.lutenc x0 x1 x2 x3) s = execLutenc x0 x1 x2 x3 s := rfl
theorem exec_ldB x0 x1 x2 x3 s : exec (.ldB x0 x1 x2 x3) s = execLdB x0 x1 x2 x3 s := rfl
theorem exec_ldH x0 x1 x2 x3 s : exec (.ldH x0 x1 x2 x3) s = execLdH x0 x1 x2 x3 s := rfl
theorem exec_ldW x0 x1 x2 x3 s : exec (.ldW x0 x1 x2 x3) s = execLdW x0 x1 x2 x3 s := rfl
theorem exec_ldD x0 x1 x2 x3 s : exec (.ldD x0 x1 x2 x3) s = execLdD x0 x1 x2 x3 s := rfl
theorem exec_ldBSx x0 x1 x2 x3 s : exec (.ldBSx x0 x1 x2 x3) s = execLdBSx x0 x1 x2 x3 s := rfl
theorem exec_ldHSx x0 x1 x2 x3 s : exec (.ldHSx x0 x1 x2 x3) s = execLdHSx x0 x1 x2 x3 s := rfl
theorem exec_ldWSx x0 x1 x2 x3 s : exec (.ldWSx x0 x1 x2 x3) s = execLdWSx x0 x1 x2 x3 s := rfl
theorem exec_stB x0 x1 x2 x3 x4 s : exec (.stB x0 x1 x2 x3 x4) s = execStB x0 x1 x2 x3 x4 s := rfl
theorem exec_stH x0 x1 x2 x3 x4 s : exec (.stH x0 x1 x2 x3 x4) s = execStH x0 x1 x2 x3 x4 s := rfl
theorem exec_stW x0 x1 x2 x3 x4 s : exec (.stW x0 x1 x2 x3 x4) s = execStW x0 x1 x2 x3 x4 s := rfl
theorem exec_stD x0 x1 x2 x3 x4 s : exec (.stD x0 x1 x2 x3 x4) s = execStD x0 x1 x2 x3 x4 s := rfl
theorem exec_ldo x0 x1 x2 x3 s : exec (.ldo x0 x1 x2 x3) s = execLdo x0 x1 x2 x3 s := rfl
theorem exec_sto x0 x1 x2 x3 x4 s : exec (.sto x0 x1 x2 x3 x4) s = execSto x0 x1 x2 x3 x4 s := rfl
theorem exec_clro x0 x1 x2 x3 x4 s : exec (.clro x0 x1 x2 x3 x4) s = execClro x0 x1 x2 x3 x4 s := rfl
theorem exec_scld x0 x1 x2 x3 s : exec (.scld x0 x1 x2 x3) s = execScld x0 x1 x2 x3 s := rfl
theorem exec_scst x0 x1 x2 x3 x4 s : exec (.scst x0 x1 x2 x3 x4) s = execScst x0 x1 x2 x3 x4 s := rfl
theorem exec_atom x0 x1 x2 x3 x4 x5 s : exec (.atom x0 x1 x2 x3 x4 x5) s = execAtom x0 x1 x2 x3 x4 x5 s := rfl
theorem exec_atomn x0 x1 x2 x3 x4 x5 s : exec (.atomn x0 x1 x2 x3 x4 x5) s = execAtomn x0 x1 x2 x3 x4 x5 s := rfl
theorem exec_cas x0 x1 x2 s : exec (.cas x0 x1 x2) s = execCas x0 x1 x2 s := rfl
theorem exec_join2 x0 x1 x2 s : exec (.join2 x0 x1 x2) s = execJoin2 x0 x1 x2 s := rfl
theorem exec_join3 x0 x1 s : exec (.join3 x0 x1) s = execJoin3 x0 x1 s := rfl
theorem exec_fence x0 x1 x2 s : exec (.fence x0 x1 x2) s = execFence x0 x1 x2 s := rfl
theorem exec_send x0 x1 x2 x3 x4 x5 x6 s : exec (.send x0 x1 x2 x3 x4 x5 x6) s = execSend x0 x1 x2 x3 x4 x5 x6 s := rfl
theorem exec_sendr x0 x1 x2 x3 x4 x5 x6 s : exec (.sendr x0 x1 x2 x3 x4 x5 x6) s = execSendr x0 x1 x2 x3 x4 x5 x6 s := rfl
theorem exec_sendm x0 x1 x2 x3 x4 x5 s : exec (.sendm x0 x1 x2 x3 x4 x5) s = execSendm x0 x1 x2 x3 x4 x5 s := rfl
theorem exec_eos x0 x1 x2 x3 x4 s : exec (.eos x0 x1 x2 x3 x4) s = execEos x0 x1 x2 x3 x4 s := rfl
theorem exec_taga x0 x1 s : exec (.taga x0 x1) s = execTaga x0 x1 s := rfl
theorem exec_tagr x0 s : exec (.tagr x0) s = execTagr x0 s := rfl
theorem exec_tblk x0 x1 s : exec (.tblk x0 x1) s = execTblk x0 x1 s := rfl
theorem exec_tunb x0 x1 s : exec (.tunb x0 x1) s = execTunb x0 x1 s := rfl
theorem exec_bari x0 x1 x2 x3 s : exec (.bari x0 x1 x2 x3) s = execBari x0 x1 x2 x3 s := rfl
theorem exec_bara x0 x1 x2 x3 s : exec (.bara x0 x1 x2 x3) s = execBara x0 x1 x2 x3 s := rfl
theorem exec_barx x0 x1 x2 x3 s : exec (.barx x0 x1 x2 x3) s = execBarx x0 x1 x2 x3 s := rfl
theorem exec_mwin x0 x1 s : exec (.mwin x0 x1) s = execMwin x0 x1 s := rfl
theorem exec_mwend x0 s : exec (.mwend x0) s = execMwend x0 s := rfl
theorem exec_seal x0 s : exec (.seal x0) s = execSeal x0 s := rfl
theorem exec_sealw x0 x1 s : exec (.sealw x0 x1) s = execSealw x0 x1 s := rfl
theorem exec_irst x0 x1 x2 x3 x4 s : exec (.irst x0 x1 x2 x3 x4) s = execIrst x0 x1 x2 x3 x4 s := rfl
theorem exec_rld x0 x1 x2 x3 s : exec (.rld x0 x1 x2 x3) s = execRld x0 x1 x2 x3 s := rfl
theorem exec_rgo x0 x1 x2 x3 s : exec (.rgo x0 x1 x2 x3) s = execRgo x0 x1 x2 x3 s := rfl
theorem exec_rstop x0 x1 x2 x3 s : exec (.rstop x0 x1 x2 x3) s = execRstop x0 x1 x2 x3 s := rfl
theorem exec_rdrain x0 x1 x2 x3 x4 s : exec (.rdrain x0 x1 x2 x3 x4) s = execRdrain x0 x1 x2 x3 x4 s := rfl
theorem exec_rstat x0 x1 x2 x3 x4 s : exec (.rstat x0 x1 x2 x3 x4) s = execRstat x0 x1 x2 x3 x4 s := rfl
theorem exec_mma x0 x1 x2 x3 x4 s : exec (.mma x0 x1 x2 x3 x4) s = execMma x0 x1 x2 x3 x4 s := rfl
theorem exec_mmas x0 x1 x2 x3 x4 s : exec (.mmas x0 x1 x2 x3 x4) s = execMmas x0 x1 x2 x3 x4 s := rfl
theorem exec_mclr x0 x1 x2 x3 s : exec (.mclr x0 x1 x2 x3) s = execMclr x0 x1 x2 x3 s := rfl
theorem exec_mattr x0 x1 x2 x3 x4 s : exec (.mattr x0 x1 x2 x3 x4) s = execMattr x0 x1 x2 x3 x4 s := rfl
theorem exec_mfade x0 x1 x2 x3 s : exec (.mfade x0 x1 x2 x3) s = execMfade x0 x1 x2 x3 s := rfl
theorem exec_mstat x0 x1 x2 s : exec (.mstat x0 x1 x2) s = execMstat x0 x1 x2 s := rfl
theorem exec_lutsel x0 x1 x2 x3 s : exec (.lutsel x0 x1 x2 x3) s = execLutsel x0 x1 x2 x3 s := rfl
theorem exec_mlda x0 x1 x2 x3 s : exec (.mlda x0 x1 x2 x3) s = execMlda x0 x1 x2 x3 s := rfl
theorem exec_mdrain x0 x1 x2 x3 x4 x5 s : exec (.mdrain x0 x1 x2 x3 x4 x5) s = execMdrain x0 x1 x2 x3 x4 x5 s := rfl
theorem exec_apdef x0 x1 x2 x3 s : exec (.apdef x0 x1 x2 x3) s = execApdef x0 x1 x2 x3 s := rfl
theorem exec_strmIn x0 x1 x2 x3 s : exec (.strmIn x0 x1 x2 x3) s = execStrmIn x0 x1 x2 x3 s := rfl
theorem exec_strmOut x0 x1 x2 x3 s : exec (.strmOut x0 x1 x2 x3) s = execStrmOut x0 x1 x2 x3 s := rfl
theorem exec_sbar x0 x1 x2 x3 s : exec (.sbar x0 x1 x2 x3) s = execSbar x0 x1 x2 x3 s := rfl
theorem exec_bcopy x0 x1 x2 x3 x4 s : exec (.bcopy x0 x1 x2 x3 x4) s = execBcopy x0 x1 x2 x3 x4 s := rfl
theorem exec_bcopyh x0 x1 x2 x3 x4 s : exec (.bcopyh x0 x1 x2 x3 x4) s = execBcopyh x0 x1 x2 x3 x4 s := rfl
theorem exec_agcfg x0 x1 x2 x3 x4 s : exec (.agcfg x0 x1 x2 x3 x4) s = execAgcfg x0 x1 x2 x3 x4 s := rfl
theorem exec_aggo x0 x1 x2 x3 x4 s : exec (.aggo x0 x1 x2 x3 x4) s = execAggo x0 x1 x2 x3 x4 s := rfl
theorem exec_coll x0 x1 x2 x3 s : exec (.coll x0 x1 x2 x3) s = execColl x0 x1 x2 x3 s := rfl
theorem exec_trap x0 s : exec (.trap x0) s = execTrap x0 s := rfl
theorem exec_eres x0 x1 x2 s : exec (.eres x0 x1 x2) s = execEres x0 x1 x2 s := rfl
theorem exec_ekill x0 x1 x2 s : exec (.ekill x0 x1 x2) s = execEkill x0 x1 x2 s := rfl
theorem exec_mfsp x0 x1 x2 s : exec (.mfsp x0 x1 x2) s = execMfsp x0 x1 x2 s := rfl
theorem exec_mtsp x0 s : exec (.mtsp x0) s = execMtsp x0 s := rfl
theorem exec_halt x0 s : exec (.halt x0) s = execHalt x0 s := rfl
theorem exec_dbg x0 s : exec (.dbg x0) s = execDbg x0 s := rfl
theorem exec_wdog x0 s : exec (.wdog x0) s = execWdog x0 s := rfl
theorem exec_ecnt x0 x1 x2 s : exec (.ecnt x0 x1 x2) s = execEcnt x0 x1 x2 s := rfl
theorem exec_telm x0 s : exec (.telm x0) s = execTelm x0 s := rfl
theorem exec_cswp x0 s : exec (.cswp x0) s = execCswp x0 s := rfl
theorem exec_xflush x0 x1 x2 s : exec (.xflush x0 x1 x2) s = execXflush x0 x1 x2 s := rfl
theorem exec_blockFetchDone s : exec (.blockFetchDone) s = execBlockFetchDone s := rfl
theorem exec_fetchFrame s : exec (.fetchFrame) s = execFetchFrame s := rfl
theorem exec_resultDelivery s : exec (.resultDelivery) s = execResultDelivery s := rfl
theorem exec_blockCommit s : exec (.blockCommit) s = execBlockCommit s := rfl
theorem exec_commitWaitRelease s : exec (.commitWaitRelease) s = execCommitWaitRelease s := rfl
theorem exec_blockDead s : exec (.blockDead) s = execBlockDead s := rfl
theorem exec_mwinOverrun s : exec (.mwinOverrun) s = execMwinOverrun s := rfl
theorem exec_watchdog s : exec (.watchdog) s = execWatchdog s := rfl
theorem exec_dispatchDecision s : exec (.dispatchDecision) s = execDispatchDecision s := rfl
theorem exec_tokenArrival s : exec (.tokenArrival) s = execTokenArrival s := rfl
theorem exec_tagReturnToken s : exec (.tagReturnToken) s = execTagReturnToken s := rfl
theorem exec_legacyAck s : exec (.legacyAck) s = execLegacyAck s := rfl
theorem exec_creditReturn s : exec (.creditReturn) s = execCreditReturn s := rfl
theorem exec_trapCreditRequest s : exec (.trapCreditRequest) s = execTrapCreditRequest s := rfl
theorem exec_trapTokenSend s : exec (.trapTokenSend) s = execTrapTokenSend s := rfl
theorem exec_trapAnswerArrival s : exec (.trapAnswerArrival) s = execTrapAnswerArrival s := rfl
theorem exec_loadReply s : exec (.loadReply) s = execLoadReply s := rfl
theorem exec_atomicApply s : exec (.atomicApply) s = execAtomicApply s := rfl
theorem exec_atomicReply s : exec (.atomicReply) s = execAtomicReply s := rfl
theorem exec_mTileRequest s : exec (.mTileRequest) s = execMTileRequest s := rfl
theorem exec_heldAccessRelease s : exec (.heldAccessRelease) s = execHeldAccessRelease s := rfl
theorem exec_stoApply s : exec (.stoApply) s = execStoApply s := rfl
theorem exec_clroApply s : exec (.clroApply) s = execClroApply s := rfl
theorem exec_agcfgApply s : exec (.agcfgApply) s = execAgcfgApply s := rfl
theorem exec_postCommitReport s : exec (.postCommitReport) s = execPostCommitReport s := rfl
theorem exec_scRingToken s : exec (.scRingToken) s = execScRingToken s := rfl
theorem exec_scstAcknowledge s : exec (.scstAcknowledge) s = execScstAcknowledge s := rfl
theorem exec_barrierLineComplete s : exec (.barrierLineComplete) s = execBarrierLineComplete s := rfl
theorem exec_haltArrival s : exec (.haltArrival) s = execHaltArrival s := rfl
theorem exec_rowArrayCycle s : exec (.rowArrayCycle) s = execRowArrayCycle s := rfl
theorem exec_rowRound s : exec (.rowRound) s = execRowRound s := rfl
theorem exec_rowSlotCompletion s : exec (.rowSlotCompletion) s = execRowSlotCompletion s := rfl
theorem exec_rowStall s : exec (.rowStall) s = execRowStall s := rfl
theorem exec_matrixOpBegin s : exec (.matrixOpBegin) s = execMatrixOpBegin s := rfl
theorem exec_matrixOpEnd s : exec (.matrixOpEnd) s = execMatrixOpEnd s := rfl
theorem exec_mmasStagingStart s : exec (.mmasStagingStart) s = execMmasStagingStart s := rfl
theorem exec_ballastPass s : exec (.ballastPass) s = execBallastPass s := rfl
theorem exec_strmBindingEnd s : exec (.strmBindingEnd) s = execStrmBindingEnd s := rfl
theorem exec_streamErrorReply s : exec (.streamErrorReply) s = execStreamErrorReply s := rfl
theorem exec_barrierObjectUpdate s : exec (.barrierObjectUpdate) s = execBarrierObjectUpdate s := rfl
theorem exec_aggoDone s : exec (.aggoDone) s = execAggoDone s := rfl
theorem exec_xflushDone s : exec (.xflushDone) s = execXflushDone s := rfl
theorem exec_collTokenArrival s : exec (.collTokenArrival) s = execCollTokenArrival s := rfl
theorem exec_shoreRequest s : exec (.shoreRequest) s = execShoreRequest s := rfl
theorem exec_virtualRequestArrival s : exec (.virtualRequestArrival) s = execVirtualRequestArrival s := rfl
theorem exec_translationWalkEnd s : exec (.translationWalkEnd) s = execTranslationWalkEnd s := rfl
theorem exec_timeBeacon s : exec (.timeBeacon) s = execTimeBeacon s := rfl
theorem exec_beaconLoss s : exec (.beaconLoss) s = execBeaconLoss s := rfl
theorem exec_phaseFinish s : exec (.phaseFinish) s = execPhaseFinish s := rfl
theorem exec_phaseStarvedSave s : exec (.phaseStarvedSave) s = execPhaseStarvedSave s := rfl
theorem exec_phasePick s : exec (.phasePick) s = execPhasePick s := rfl
theorem exec_phaseConfigure s : exec (.phaseConfigure) s = execPhaseConfigure s := rfl
theorem exec_minqExpiry s : exec (.minqExpiry) s = execMinqExpiry s := rfl
theorem exec_preemptStart s : exec (.preemptStart) s = execPreemptStart s := rfl
theorem exec_graceEnd s : exec (.graceEnd) s = execGraceEnd s := rfl
theorem exec_contextSave s : exec (.contextSave) s = execContextSave s := rfl
theorem exec_resumption s : exec (.resumption) s = execResumption s := rfl
theorem exec_budgetPeriod s : exec (.budgetPeriod) s = execBudgetPeriod s := rfl
theorem exec_rebalancerMove s : exec (.rebalancerMove) s = execRebalancerMove s := rfl
theorem exec_moveAbandon s : exec (.moveAbandon) s = execMoveAbandon s := rfl
theorem exec_telemetryPeriod s : exec (.telemetryPeriod) s = execTelemetryPeriod s := rfl
theorem exec_launchSlotMap s : exec (.launchSlotMap) s = execLaunchSlotMap s := rfl
theorem exec_launchSlotTimeout s : exec (.launchSlotTimeout) s = execLaunchSlotTimeout s := rfl
theorem exec_periodicWaveTimer s : exec (.periodicWaveTimer) s = execPeriodicWaveTimer s := rfl
theorem exec_waveStart s : exec (.waveStart) s = execWaveStart s := rfl
theorem exec_actorAlign s : exec (.actorAlign) s = execActorAlign s := rfl
theorem exec_tileCut s : exec (.tileCut) s = execTileCut s := rfl
theorem exec_agentCut s : exec (.agentCut) s = execAgentCut s := rfl
theorem exec_waveComplete s : exec (.waveComplete) s = execWaveComplete s := rfl
theorem exec_sealPoint s : exec (.sealPoint) s = execSealPoint s := rfl
theorem exec_sealed s : exec (.sealed) s = execSealed s := rfl
theorem exec_retagSweepEnd s : exec (.retagSweepEnd) s = execRetagSweepEnd s := rfl
theorem exec_uncorrectable s : exec (.uncorrectable) s = execUncorrectable s := rfl
theorem exec_rollback s : exec (.rollback) s = execRollback s := rfl
theorem exec_flitHop s : exec (.flitHop) s = execFlitHop s := rfl
theorem exec_flitReceive s : exec (.flitReceive) s = execFlitReceive s := rfl
theorem exec_ackReceive s : exec (.ackReceive) s = execAckReceive s := rfl
theorem exec_ackTimer s : exec (.ackTimer) s = execAckTimer s := rfl
theorem exec_resendTimeout s : exec (.resendTimeout) s = execResendTimeout s := rfl
theorem exec_linkDead s : exec (.linkDead) s = execLinkDead s := rfl
theorem exec_siteDeath s : exec (.siteDeath) s = execSiteDeath s := rfl
theorem exec_flip s : exec (.flip) s = execFlip s := rfl
theorem exec_flipGraceEnd s : exec (.flipGraceEnd) s = execFlipGraceEnd s := rfl
theorem exec_connectionCreate s : exec (.connectionCreate) s = execConnectionCreate s := rfl
theorem exec_fjoithFrameReceive s : exec (.fjoithFrameReceive) s = execFjoithFrameReceive s := rfl
theorem exec_fjoithResendTimeout s : exec (.fjoithResendTimeout) s = execFjoithResendTimeout s := rfl
theorem exec_fjoithLaneLoss s : exec (.fjoithLaneLoss) s = execFjoithLaneLoss s := rfl
theorem exec_fjoithRetrainDone s : exec (.fjoithRetrainDone) s = execFjoithRetrainDone s := rfl
theorem exec_fjoithRetryTimer s : exec (.fjoithRetryTimer) s = execFjoithRetryTimer s := rfl
theorem exec_fjoithControlFlit s : exec (.fjoithControlFlit) s = execFjoithControlFlit s := rfl
theorem exec_mctpRequest s : exec (.mctpRequest) s = execMctpRequest s := rfl
theorem exec_partdefCreate s : exec (.partdefCreate) s = execPartdefCreate s := rfl
theorem exec_partdefDelete s : exec (.partdefDelete) s = execPartdefDelete s := rfl
theorem exec_qtailWrite s : exec (.qtailWrite) s = execQtailWrite s := rfl
theorem exec_qheadWrite s : exec (.qheadWrite) s = execQheadWrite s := rfl
theorem exec_spanWrite s : exec (.spanWrite) s = execSpanWrite s := rfl
theorem exec_ptrootWrite s : exec (.ptrootWrite) s = execPtrootWrite s := rfl
theorem exec_invalPage s : exec (.invalPage) s = execInvalPage s := rfl
theorem exec_invalAll s : exec (.invalAll) s = execInvalAll s := rfl
theorem exec_fretryRetry s : exec (.fretryRetry) s = execFretryRetry s := rfl
theorem exec_fretryAbort s : exec (.fretryAbort) s = execFretryAbort s := rfl
theorem exec_esnonceWrite s : exec (.esnonceWrite) s = execEsnonceWrite s := rfl
theorem exec_attnonceWrite s : exec (.attnonceWrite) s = execAttnonceWrite s := rfl
theorem exec_keycmdLoad s : exec (.keycmdLoad) s = execKeycmdLoad s := rfl
theorem exec_keycmdGen s : exec (.keycmdGen) s = execKeycmdGen s := rfl
theorem exec_keycmdZero s : exec (.keycmdZero) s = execKeycmdZero s := rfl
theorem exec_fwcmdLoad s : exec (.fwcmdLoad) s = execFwcmdLoad s := rfl
theorem exec_fwLoadDone s : exec (.fwLoadDone) s = execFwLoadDone s := rfl
theorem exec_fwcmdCommit s : exec (.fwcmdCommit) s = execFwcmdCommit s := rfl
theorem exec_sundoWrite s : exec (.sundoWrite) s = execSundoWrite s := rfl
theorem exec_registerWrite s : exec (.registerWrite) s = execRegisterWrite s := rfl
theorem exec_flr s : exec (.flr) s = execFlr s := rfl
theorem exec_bringUp s : exec (.bringUp) s = execBringUp s := rfl
theorem exec_thermalTrip s : exec (.thermalTrip) s = execThermalTrip s := rfl
theorem exec_counterFlash s : exec (.counterFlash) s = execCounterFlash s := rfl
theorem exec_auxPowerLoss s : exec (.auxPowerLoss) s = execAuxPowerLoss s := rfl
theorem exec_engineBeat s : exec (.engineBeat) s = execEngineBeat s := rfl
theorem exec_remoteTileRequest s : exec (.remoteTileRequest) s = execRemoteTileRequest s := rfl
theorem exec_hostPortLinkDown s : exec (.hostPortLinkDown) s = execHostPortLinkDown s := rfl
theorem exec_hostPortLinkUp s : exec (.hostPortLinkUp) s = execHostPortLinkUp s := rfl
theorem exec_vfEnableWrite s : exec (.vfEnableWrite) s = execVfEnableWrite s := rfl
theorem exec_hostReadCompletion s : exec (.hostReadCompletion) s = execHostReadCompletion s := rfl
theorem exec_ecntRecordReady s : exec (.ecntRecordReady) s = execEcntRecordReady s := rfl
theorem exec_invalidationDone s : exec (.invalidationDone) s = execInvalidationDone s := rfl
theorem exec_partitionDeleteDone s : exec (.partitionDeleteDone) s = execPartitionDeleteDone s := rfl

end Sys2Proof.Laws
end

