-- ==== Sys2Proof/Laws/Firing.lean ====
section
/-!
SUPPORT. What the firing of a word can do (R60 to R62, R31): one lemma for each way in which a slot in focus is taken.
-/

namespace Sys2Proof.Laws

open Sys2Proof Sys2Proof.Machine Sys2Proof.Safety

/-- What firing says of the block in the window. -/
theorem standing_some {i : Instr} {s : State} {f : Info} {sl : Slot} (h : standing i s = some (f, sl)) :
    ∃ b, infoOf i = some f ∧ s.blk? = some b ∧ b.slots[s.core.slot]? = some sl ∧ b.phase ≠ .committing ∧ b.trap = none ∧
      sl.st = .waiting ∧ ready f sl = true ∧ creditFree s i sl = true ∧ (needsStaging i = true → stagingFree s = true) := by
  unfold standing at h
  split at h
  · next f' b hf hb =>
    split at h
    · cases h
    · next sl' hs =>
      split at h
      · next hc => cases h; exact ⟨b, hf, hb, hs, hc⟩
      · cases h
  · cases h

/-- A slot that stands ready is taken: the outcome in full. -/
theorem fire_standing {i : Instr} {s : State} {f : Info} {sl : Slot} (h : standing i s = some (f, sl)) (body : Info → Args → State → Fired) :
    fire i s body =
      if hasNull f sl then .next (nullify i f s.core.slot (argsOf f s.core.slot sl) (marked s f))
      else if f.pr ≠ 0 ∧ (argsOf f s.core.slot sl).tp then .next (takeTrap (marked s f) (predTrap s.core.slot))
      else if predMatches f.pr (argsOf f s.core.slot sl).t = false then .next (markSlot s s.core.slot .unmatched f)
      else match body f (argsOf f s.core.slot sl) (marked s f) with
        | .trap c u info d dp => .next (takeTrap (marked s f) ⟨s.core.slot, c, u, info, d, dp, false⟩)
        | .done s' none => .next s'
        | .done s' (some v) => .next (deliver s' s.core.slot f f.lat v (argsOf f s.core.slot sl).anc none) := by
  obtain ⟨b, hf, hb, hs, hp, ht, hw, hr, hc, hst⟩ := standing_some h
  have hn : ¬(b.phase = .committing ∨ b.trap.isSome = true ∨ sl.st ≠ .waiting ∨ ready f sl = false ∨ creditFree s i sl = false ∨
      (needsStaging i = true ∧ stagingFree s = false)) := by
    simp only [hp, ht, hw, hr, hc, Option.isSome_none, ne_eq, not_true_eq_false, Bool.true_eq_false, Bool.false_eq_true, false_or, not_and]
    intro hns; rw [hst hns]; decide
  (simp only [fire, hf, hb, hs, if_neg hn, marked]) <;> rfl

/-- A slot that does not stand ready leaves the state as it is. -/
theorem fire_idle {i : Instr} {s : State} (h : standing i s = none) (body : Info → Args → State → Fired) : fire i s body = .next s := by
  unfold fire
  split
  · next f b hf hb =>
    dsimp only
    split
    · rfl
    · next sl hs =>
      split
      · rfl
      · next hn =>
        exfalso
        simp only [not_or, ne_eq, Decidable.not_not, not_and, Bool.not_eq_false, Bool.not_eq_true, Option.isSome_eq_false_iff, Option.isNone_iff_eq_none] at hn
        simp [standing, hf, hb, hs, hn] at h
        exact absurd (hn.2.2.2.2.2 h.1) (by simp [h.2])
  · rfl

theorem firing_some {i : Instr} {s : State} {f : Info} {a : Args} (h : firing i s = some (f, a)) :
    ∃ sl, standing i s = some (f, sl) ∧ hasNull f sl = false ∧ (f.pr = 0 ∨ a.tp = false) ∧ predMatches f.pr a.t = true ∧
      a = argsOf f s.core.slot sl := by
  unfold firing at h
  split at h
  · cases h
  · next f' sl hs =>
    split at h
    · next hc => cases h; exact ⟨sl, hs, hc.1, hc.2.1, hc.2.2, rfl⟩
    · cases h

/-- A normal firing: the body's trap, or its effect and value. -/
theorem fire_firing {i : Instr} {s : State} {f : Info} {a : Args} (h : firing i s = some (f, a)) (body : Info → Args → State → Fired) :
    fire i s body = match body f a (marked s f) with
      | .trap c u info d dp => .next (takeTrap (marked s f) ⟨s.core.slot, c, u, info, d, dp, false⟩)
      | .done s' none => .next s'
      | .done s' (some v) => .next (deliver s' s.core.slot f f.lat v a.anc none) := by
  obtain ⟨sl, hs, hn, hp, hm, rfl⟩ := firing_some h
  have : ¬(f.pr ≠ 0 ∧ (argsOf f s.core.slot sl).tp = true) := by
    rintro ⟨h0, h1⟩
    rcases hp with hp | hp
    · exact h0 hp
    · rw [hp] at h1; cases h1
  rw [fire_standing hs]
  simp only [hn, Bool.false_eq_true, if_false, if_neg this, hm, Bool.true_eq_false]

/-- The slot of a firing is the slot in focus. -/
theorem firing_slot {i : Instr} {s : State} {f : Info} {a : Args} (h : firing i s = some (f, a)) : a.slot = s.core.slot := by
  obtain ⟨sl, -, -, -, -, rfl⟩ := firing_some h
  rfl

/-- The form of a firing instruction. -/
theorem firing_info {i : Instr} {s : State} {f : Info} {a : Args} (h : firing i s = some (f, a)) : infoOf i = some f := by
  obtain ⟨sl, hs, -⟩ := firing_some h
  exact (standing_some hs).elim fun _ hb => hb.1

end Sys2Proof.Laws
end

