-- ==== Sys2Proof/Laws/Memory.lean ====
section
/-!
SUPPORT. The one memory of bytes (Machine/Ops.lean): every operation on it keeps its canonical form, a byte written is read back, and no
other byte changes; equal contents are equal data.
-/

namespace Sys2Proof.Laws

open Sys2Proof Sys2Proof.Machine Sys2Proof.Safety

/-- The memory after reset is canonical. -/
theorem reset_memOk : MemOk State.reset := rfl

/-- The canonical form of a list with a head: the head is listed, it lies below the rest, and the rest is canonical. -/
theorem memWf_cons {k : Nat} {b : Byte} {r : List Host.Cell} :
    memWf ((k, b) :: r) = true ↔ b ≠ unlistedByte ∧ (∀ x ∈ r.head?, k < x.1) ∧ memWf r = true := by
  cases r with
  | nil => simp [memWf]
  | cons x r => simp [memWf, and_assoc]

/-- Everything in the rest of a canonical list lies above its head. -/
theorem memWf_above {r : List Host.Cell} : ∀ {k : Nat} {b : Byte}, memWf ((k, b) :: r) = true → ∀ x ∈ r, k < x.1 := by
  induction r with
  | nil => intro k b _ x hx; cases hx
  | cons y r ih =>
    intro k b h x hx
    obtain ⟨_, h2, h3⟩ := memWf_cons.1 h
    have hy : k < y.1 := h2 y (by simp)
    rcases List.mem_cons.1 hx with rfl | hx
    · exact hy
    · exact hy.trans (ih h3 x hx)

/-- A canonical list with a head put below it is canonical. -/
theorem memWf_push {k : Nat} {b : Byte} {r : List Host.Cell} (hb : b ≠ unlistedByte) (hr : memWf r = true) (h : ∀ x ∈ r, k < x.1) :
    memWf ((k, b) :: r) = true :=
  memWf_cons.2 ⟨hb, fun x hx => h x (List.mem_of_mem_head? hx), hr⟩

/-- The entries after a write: those before, and at most the one written. -/
theorem mem_memPut {m : List Host.Cell} {k : Nat} {b : Byte} {x : Host.Cell} (h : x ∈ memPut m k b) : x = (k, b) ∨ x ∈ m := by
  induction m with
  | nil => simp only [memPut] at h; split at h <;> simp_all
  | cons y r ih =>
    simp only [memPut] at h
    split at h
    · split at h <;> simp_all
    · split at h
      · split at h <;> simp_all <;> tauto
      · rcases List.mem_cons.1 h with rfl | h
        · simp
        · rcases ih h with h | h <;> simp [h]

/-- A write keeps the canonical form. -/
theorem memPut_wf {m : List Host.Cell} {k : Nat} {b : Byte} (h : memWf m = true) : memWf (memPut m k b) = true := by
  induction m with
  | nil => by_cases hb : b = unlistedByte <;> simp [memPut, memWf, hb]
  | cons y r ih =>
    obtain ⟨k', b'⟩ := y
    have ha := memWf_above h
    obtain ⟨h1, _, h3⟩ := memWf_cons.1 h
    simp only [memPut]
    split
    · next hlt =>
      split
      · exact h
      · next hb =>
        refine memWf_push hb h fun x hx => ?_
        rcases List.mem_cons.1 hx with rfl | hx
        · exact hlt
        · exact hlt.trans (ha x hx)
    · split
      · next heq =>
        split
        · exact h3
        · next hb => exact memWf_push hb h3 fun x hx => heq ▸ ha x hx
      · next hlt hne =>
        refine memWf_push h1 (ih h3) fun x hx => ?_
        rcases mem_memPut hx with rfl | hx
        · show k' < k; omega
        · exact ha x hx

/-- Writing bytes keeps the canonical form. -/
theorem memPuts_wf {bs : List Byte} : ∀ {m : List Host.Cell} {k : Nat}, memWf m = true → memWf (memPuts m k bs) = true := by
  induction bs with
  | nil => intro m k h; exact h
  | cons b r ih => intro m k h; exact ih (memPut_wf h)

/-- Writing a list of cells one by one keeps the canonical form. -/
theorem foldl_memPut_wf {cs : List Host.Cell} : ∀ {m : List Host.Cell}, memWf m = true →
    memWf (cs.foldl (fun l x => memPut l x.1 x.2) m) = true := by
  induction cs with
  | nil => intro m h; exact h
  | cons c r ih => intro m h; exact ih (memPut_wf h)

/-- Dropping entries keeps the canonical form. -/
theorem filter_wf {p : Host.Cell → Bool} {m : List Host.Cell} (h : memWf m = true) : memWf (m.filter p) = true := by
  induction m with
  | nil => rfl
  | cons y r ih =>
    obtain ⟨k, b⟩ := y
    have ha := memWf_above h
    obtain ⟨h1, _, h3⟩ := memWf_cons.1 h
    rw [List.filter_cons]
    split
    · exact memWf_push h1 (ih h3) fun x hx => ha x (List.mem_of_mem_filter hx)
    · exact ih h3

/-- A key below every entry is not listed. -/
theorem memByte_below {m : List Host.Cell} {k : Nat} (h : ∀ x ∈ m, k < x.1) : memByte m k = unlistedByte := by
  induction m with
  | nil => rfl
  | cons y r ih =>
    have := h y (by simp)
    rw [memByte, if_neg (by omega)]
    exact ih fun x hx => h x (by simp [hx])

/-- The byte written is read back. -/
theorem memByte_memPut_self {m : List Host.Cell} {k : Nat} {b : Byte} (h : memWf m = true) : memByte (memPut m k b) k = b := by
  induction m with
  | nil => by_cases hb : b = unlistedByte <;> simp [memPut, memByte, hb]
  | cons y r ih =>
    obtain ⟨k', b'⟩ := y
    have ha := memWf_above h
    obtain ⟨_, _, h3⟩ := memWf_cons.1 h
    simp only [memPut]
    split
    · next hlt =>
      split
      · next hb =>
        rw [hb]
        refine memByte_below fun x hx => ?_
        rcases List.mem_cons.1 hx with rfl | hx
        · exact hlt
        · exact hlt.trans (ha x hx)
      · simp [memByte]
    · split
      · next heq =>
        split
        · next hb => rw [hb, heq]; exact memByte_below ha
        · simp [memByte]
      · next hne => rw [memByte, if_neg hne]; exact ih h3

/-- No other byte changes. -/
theorem memByte_memPut_ne {m : List Host.Cell} {k j : Nat} {b : Byte} (h : j ≠ k) : memByte (memPut m k b) j = memByte m j := by
  induction m with
  | nil => by_cases hb : b = unlistedByte <;> simp [memPut, memByte, hb, h]
  | cons y r ih =>
    obtain ⟨k', b'⟩ := y
    simp only [memPut]
    split
    · split
      · rfl
      · rw [memByte, if_neg h]
    · split
      · next heq =>
        split
        · rw [memByte, if_neg (by omega)]
        · rw [memByte, if_neg h, memByte, if_neg (by omega)]
      · simp only [memByte]; rw [ih]

/-- A byte outside those written keeps its value. -/
theorem memByte_memPuts_out {bs : List Byte} : ∀ {m : List Host.Cell} {k j : Nat}, (j < k ∨ k + bs.length ≤ j) →
    memByte (memPuts m k bs) j = memByte m j := by
  induction bs with
  | nil => intro m k j _; rfl
  | cons b r ih =>
    intro m k j h
    simp only [List.length_cons] at h
    rw [memPuts, ih (by omega), memByte_memPut_ne (by omega)]

/-- The bytes written are read back. -/
theorem memBytes_memPuts {bs : List Byte} : ∀ {m : List Host.Cell} {k : Nat}, memWf m = true → memBytes (memPuts m k bs) k bs.length = bs := by
  induction bs with
  | nil => intro m k _; rfl
  | cons b r ih =>
    intro m k h
    simp only [List.length_cons, memBytes, memPuts]
    rw [memByte_memPuts_out (Or.inl (Nat.lt_succ_self k)), memByte_memPut_self h, ih (memPut_wf h)]

/-- Equal contents are equal data. -/
theorem memWf_ext {m : List Host.Cell} : ∀ {n : List Host.Cell}, memWf m = true → memWf n = true → (∀ k, memByte m k = memByte n k) → m = n := by
  induction m with
  | nil =>
    intro n _ hn h
    cases n with
    | nil => rfl
    | cons y r => exact absurd (h y.1).symm (by simpa [memByte] using (memWf_cons.1 hn).1)
  | cons x r ih =>
    intro n hm hn h
    obtain ⟨k, b⟩ := x
    obtain ⟨h1, _, h3⟩ := memWf_cons.1 hm
    cases n with
    | nil => exact absurd (h k) (by simpa [memByte] using h1)
    | cons y s =>
      obtain ⟨j, c⟩ := y
      obtain ⟨g1, _, g3⟩ := memWf_cons.1 hn
      have hk : k = j := by
        rcases Nat.lt_trichotomy k j with hlt | rfl | hlt
        · have := h k
          rw [memByte_below (m := (j, c) :: s) (fun x hx => by
            rcases List.mem_cons.1 hx with rfl | hx
            · exact hlt
            · exact hlt.trans (memWf_above hn x hx))] at this
          exact absurd this (by simpa [memByte] using h1)
        · rfl
        · have := h j
          rw [memByte_below (m := (k, b) :: r) (fun x hx => by
            rcases List.mem_cons.1 hx with rfl | hx
            · exact hlt
            · exact hlt.trans (memWf_above hm x hx))] at this
          exact absurd this.symm (by simpa [memByte] using g1)
      subst hk
      have hb : b = c := by simpa [memByte] using h k
      subst hb
      refine congrArg _ (ih h3 g3 fun i => ?_)
      by_cases hi : i = k
      · rw [hi, memByte_below (memWf_above hm), memByte_below (memWf_above hn)]
      · have := h i
        simpa [memByte, hi] using this

/-- Writing bytes into a state keeps its memory canonical. -/
theorem puts_memOk {s : State} (h : MemOk s) (k : Nat) (bs : List Byte) : MemOk (s.puts k bs) := memPuts_wf h

/-- The bytes that a state has been given are read back. -/
theorem bytes_puts {s : State} (h : MemOk s) (k : Nat) (bs : List Byte) : (s.puts k bs).bytes k bs.length = bs := memBytes_memPuts h

/-- Every other byte stays. -/
theorem byte_puts_out {s : State} {k j : Nat} {bs : List Byte} (h : j < k ∨ k + bs.length ≤ j) : (s.puts k bs).byte j = s.byte j :=
  memByte_memPuts_out h

/-- Every part of a byte range lies in a line no lower than that of its first byte. -/
theorem lineParts_low {n : Nat} : ∀ {off : Nat} {bs : List Byte}, ∀ l ∈ lineParts off bs n, off / 64 ≤ l.1 := by
  induction n with
  | zero => intro off bs l h; simp [lineParts] at h
  | succ n ih =>
    intro off bs l h
    simp only [lineParts] at h
    split at h
    · simp at h
    · rcases List.mem_cons.1 h with rfl | h
      · exact Nat.le_refl _
      · have := ih l h
        omega

/-- What a write through a key changes: memory, errors and line keys; no byte below its line. -/
theorem encWrite_keeps (s : State) (k : Nat) (bs : List Byte) (e : Nat) : ∃ m b l, encWrite s k bs e = { s with mem := m, bad := b, lineKey := l } ∧
    (MemOk s → memWf m = true) ∧ ∀ j, j < k / 64 * 64 → memByte m j = s.byte j := by
  have go : ∀ (ps : List (Nat × Nat × List Byte)) (s : State), (∀ l ∈ ps, k / 64 ≤ l.1) → ∃ m b l, ps.foldl (fun s l =>
      let s' := s.puts (64 * l.1) (patchLine (encLine s l.1 e) l.2.2 l.2.1)
      { s' with lineKey := mset s'.lineKey l.1 (s.keyTag e) }) s = { s with mem := m, bad := b, lineKey := l } ∧
      (MemOk s → memWf m = true) ∧ ∀ j, j < k / 64 * 64 → memByte m j = s.byte j := by
    intro ps
    induction ps with
    | nil => exact fun s _ => ⟨s.mem, s.bad, s.lineKey, rfl, id, fun _ _ => rfl⟩
    | cons p ps ih =>
      intro s hp
      obtain ⟨m, b, l, h, hm, hj⟩ := ih _ fun l hl => hp l (List.mem_cons_of_mem _ hl)
      refine ⟨m, b, l, h, fun hs => hm (puts_memOk hs _ _), fun j hlt => (hj j hlt).trans ?_⟩
      have := hp p List.mem_cons_self
      exact byte_puts_out (Or.inl (by omega))
  exact go _ s fun l hl => lineParts_low l hl

/-- What the device's own write into a context area changes: memory, errors and line keys, and no byte of the tile field. -/
theorem ctxWrite_keeps (s : State) (pm : PartMem) (off : Nat) (bs : List Byte) : ∃ m b l, ctxWrite s pm off bs = { s with mem := m, bad := b, lineKey := l } ∧
    (MemOk s → memWf m = true) ∧ ∀ k < 0x1000000000000000, memByte m k = s.byte k := by
  have none : ∃ m b l, s = { s with mem := m, bad := b, lineKey := l } ∧ (MemOk s → memWf m = true) ∧ ∀ k < 0x1000000000000000, memByte m k = s.byte k :=
    ⟨s.mem, s.bad, s.lineKey, rfl, id, fun _ _ => rfl⟩
  simp only [ctxWrite]
  cases walk s pm .shore (pm.ctx.toNat + off) with
  | fault _ => exact none
  | leaf l =>
    by_cases h : (l.w && s.keyUsable l.key) = true
    · simp only [h, if_true]
      obtain ⟨m, b, x, h, hm, hj⟩ := encWrite_keeps s (shoreKey l.pa) bs l.key
      exact ⟨m, b, x, h, hm, fun k hk => hj k (by simp only [shoreKey]; omega)⟩
    · simp only [h]
      exact none

/-- What the writing of a save slot or a cut buffer changes: memory, errors, line keys and the count of free values, and no byte of the tile field. -/
theorem slotBlur_keeps (s : State) (p t off n : Nat) : ∃ m b l f, slotBlur s p t off n = { s with mem := m, bad := b, lineKey := l, free := f } ∧
    (MemOk s → memWf m = true) ∧ ∀ k < 0x1000000000000000, memByte m k = s.byte k := by
  unfold slotBlur
  cases mget s.parts p with
  | none => exact ⟨s.mem, s.bad, s.lineKey, s.free, rfl, id, fun _ _ => rfl⟩
  | some q =>
    simp only
    generalize List.range n = js
    induction js generalizing s with
    | nil => exact ⟨s.mem, s.bad, s.lineKey, s.free, rfl, id, fun _ _ => rfl⟩
    | cons j js ih =>
      simp only [List.foldl_cons]
      generalize he : ctxWrite s q.mem _ _ = u
      obtain ⟨m, b, l, h, hm, hj⟩ := ctxWrite_keeps s q.mem (saveSlot q t + off + 0x10000 * j) ((List.range 0x10000).map (fun i => Config.freeByte (s.free + i)))
      rw [he] at h
      subst h
      obtain ⟨m', b', l', f', h', hm', hj'⟩ := ih { s with mem := m, bad := b, lineKey := l, free := s.free + 0x10000 }
      exact ⟨m', b', l', f', h', fun hs => hm' (hm hs), fun k hk => (hj' k hk).trans (hj k hk)⟩

/-- The same of the save of a site, and of a tile's cut record. -/
theorem writeSave_keeps (s : State) (p t : Nat) : ∃ m b l f, writeSave s p t = { s with mem := m, bad := b, lineKey := l, free := f } ∧
    (MemOk s → memWf m = true) ∧ ∀ k < 0x1000000000000000, memByte m k = s.byte k := by
  unfold writeSave
  split
  · exact slotBlur_keeps s p t _ _
  · exact ⟨s.mem, s.bad, s.lineKey, s.free, rfl, id, fun _ _ => rfl⟩
theorem writeCut_keeps (s : State) (p t : Nat) (n : BitVec 32) : ∃ m b l f, writeCut s p t n = { s with mem := m, bad := b, lineKey := l, free := f } ∧
    (MemOk s → memWf m = true) ∧ ∀ k < 0x1000000000000000, memByte m k = s.byte k := slotBlur_keeps s p _ _ _

/-- Bytes of different tiles, and different bytes of one tile, have different keys. -/
theorem tileKey_inj {t u o p : Nat} (ho : o < 2 ^ 32) (hp : p < 2 ^ 32) (h : tileKey t o = tileKey u p) : t = u ∧ o = p := by
  simp only [tileKey] at h
  omega

end Sys2Proof.Laws
end

