-- ==== Sys2Proof/Laws/PerInstr.lean ====
section
/-!
SUPPORT. Decoding and encoding, one instruction at a time: the word that the encoder gives an instruction decodes to that instruction, with every
operand at every value.
-/

namespace Sys2Proof.Laws

open Sys2Proof

/-- The word of i, if it has one, decodes to i. -/
def EncodeThenDecode.Statement (i : Instr) : Prop := ∀ w, encode i = some w → decode w = .ok i

/-- A field is read from its place. -/
theorem fld_eq {n lo w : Nat} {x : BitVec w} (h : n / 2 ^ lo % 2 ^ w = x.toNat) : fld n lo w = x :=
  BitVec.eq_of_toNat_eq (by rw [fld, BitVec.toNat_ofNat, h])

/-- The decoder reads the number that the encoder made. -/
theorem decode_of {i : Instr} {n : Nat} {w : Word32} (he : encodeNat i = some n) (h : encode i = some w) (hn : n < 2 ^ 32)
    (hd : decodeNat n = .ok i) : decode w = .ok i := by
  rw [encode, he] at h
  cases h
  rw [decode, BitVec.toNat_ofNat, Nat.mod_eq_of_lt hn, hd]

/-- The low piece of a number cut at bit a, and the rest above it. -/
theorem cutAt {n r v a w b : Nat} (e : n / 2 ^ a = v + 2 ^ w * r) (h : v < 2 ^ w) (hb : a + w = b) : n / 2 ^ a % 2 ^ w = v ∧ n / 2 ^ b = r := by
  have hw : 0 < 2 ^ w := Nat.two_pow_pos w
  refine ⟨by rw [e, Nat.add_mul_mod_self_left, Nat.mod_eq_of_lt h], ?_⟩
  rw [← hb, Nat.pow_add, ← Nat.div_div_eq_div_mul, e, Nat.add_mul_div_left _ _ hw, Nat.div_eq_of_lt h, Nat.zero_add]

theorem low_piece {n v w : Nat} (h : n / 2 ^ 0 % 2 ^ w = v) : n % 2 ^ w = v := by rwa [Nat.pow_zero, Nat.div_one] at h

theorem lt_of_top {n v : Nat} (h : n / 2 ^ 24 = v) (hv : v < 2 ^ 8) : n < 2 ^ 32 := by
  subst h
  omega

-- The fields of a word with match value base, by shape

theorem enc_fields_1 (base : Nat) (x0 : BitVec 2) (x1 : BitVec 3) (x2 : BitVec 19) (h : base = (base / 2^24) * 2^24) (hc : base / 2^24 < 2^8) :
    enc_23_22_21_19_18_0 base x0 x1 x2 < 2^32 ∧ (enc_23_22_21_19_18_0 base x0 x1 x2) / 2^24 = base / 2^24 ∧ (enc_23_22_21_19_18_0 base x0 x1 x2) / 2 ^ 22 % 2 ^ 2 = x0.toNat ∧ (enc_23_22_21_19_18_0 base x0 x1 x2) / 2 ^ 19 % 2 ^ 3 = x1.toNat ∧ (enc_23_22_21_19_18_0 base x0 x1 x2) / 2 ^ 0 % 2 ^ 19 = x2.toNat := by
  generalize base / 2^24 = c3 at *
  have d0 : (enc_23_22_21_19_18_0 base x0 x1 x2) / 2 ^ 0 = x2.toNat + 2 ^ 19 * (x1.toNat + 2 ^ 3 * (x0.toNat + 2 ^ 2 * (c3))) := by rw [Nat.pow_zero, Nat.div_one, enc_23_22_21_19_18_0]; omega
  obtain ⟨p0, d1⟩ := cutAt d0 x2.isLt rfl
  obtain ⟨p1, d2⟩ := cutAt d1 x1.isLt rfl
  obtain ⟨p2, d3⟩ := cutAt d2 x0.isLt rfl
  exact ⟨lt_of_top d3 hc, d3, p2, p1, p0⟩

theorem enc_fields_2 (base : Nat) (x0 : BitVec 2) (x1 : BitVec 3) (h : base = (base % 2^19) + (base / 2^24) * 2^24) (hc : base / 2^24 < 2^8) :
    enc_23_22_21_19 base x0 x1 < 2^32 ∧ (enc_23_22_21_19 base x0 x1) / 2^24 = base / 2^24 ∧ (enc_23_22_21_19 base x0 x1) % 2^19 = base % 2^19 ∧ (enc_23_22_21_19 base x0 x1) / 2 ^ 22 % 2 ^ 2 = x0.toNat ∧ (enc_23_22_21_19 base x0 x1) / 2 ^ 19 % 2 ^ 3 = x1.toNat := by
  have b0 := Nat.mod_lt (base) (Nat.two_pow_pos 19)
  generalize base % 2^19 = c0 at *
  generalize base / 2^24 = c3 at *
  have d0 : (enc_23_22_21_19 base x0 x1) / 2 ^ 0 = c0 + 2 ^ 19 * (x1.toNat + 2 ^ 3 * (x0.toNat + 2 ^ 2 * (c3))) := by rw [Nat.pow_zero, Nat.div_one, enc_23_22_21_19]; omega
  obtain ⟨p0, d1⟩ := cutAt d0 b0 rfl
  obtain ⟨p1, d2⟩ := cutAt d1 x1.isLt rfl
  obtain ⟨p2, d3⟩ := cutAt d2 x0.isLt rfl
  exact ⟨lt_of_top d3 hc, d3, low_piece p0, p2, p1⟩

theorem enc_fields_3 (base : Nat) (x0 : BitVec 2) (x1 : BitVec 12) (h : base = (base % 2^7) + (base / 2^19 % 2^3) * 2^19 + (base / 2^24) * 2^24) (hc : base / 2^24 < 2^8) :
    enc_23_22_18_7 base x0 x1 < 2^32 ∧ (enc_23_22_18_7 base x0 x1) / 2^24 = base / 2^24 ∧ (enc_23_22_18_7 base x0 x1) / 2^19 % 2^3 = base / 2^19 % 2^3 ∧ (enc_23_22_18_7 base x0 x1) % 2^7 = base % 2^7 ∧ (enc_23_22_18_7 base x0 x1) / 2 ^ 22 % 2 ^ 2 = x0.toNat ∧ (enc_23_22_18_7 base x0 x1) / 2 ^ 7 % 2 ^ 12 = x1.toNat := by
  have b0 := Nat.mod_lt (base) (Nat.two_pow_pos 7)
  have b2 := Nat.mod_lt (base / 2^19) (Nat.two_pow_pos 3)
  generalize base % 2^7 = c0 at *
  generalize base / 2^19 % 2^3 = c2 at *
  generalize base / 2^24 = c4 at *
  have d0 : (enc_23_22_18_7 base x0 x1) / 2 ^ 0 = c0 + 2 ^ 7 * (x1.toNat + 2 ^ 12 * (c2 + 2 ^ 3 * (x0.toNat + 2 ^ 2 * (c4)))) := by rw [Nat.pow_zero, Nat.div_one, enc_23_22_18_7]; omega
  obtain ⟨p0, d1⟩ := cutAt d0 b0 rfl
  obtain ⟨p1, d2⟩ := cutAt d1 x1.isLt rfl
  obtain ⟨p2, d3⟩ := cutAt d2 b2 rfl
  obtain ⟨p3, d4⟩ := cutAt d3 x0.isLt rfl
  exact ⟨lt_of_top d4 hc, d4, p2, low_piece p0, p3, p1⟩

theorem enc_fields_4 (base : Nat) (x0 : BitVec 2) (x1 : BitVec 8) (h : base = (base % 2^7) + (base / 2^15 % 2^7) * 2^15 + (base / 2^24) * 2^24) (hc : base / 2^24 < 2^8) :
    enc_23_22_14_7 base x0 x1 < 2^32 ∧ (enc_23_22_14_7 base x0 x1) / 2^24 = base / 2^24 ∧ (enc_23_22_14_7 base x0 x1) / 2^15 % 2^7 = base / 2^15 % 2^7 ∧ (enc_23_22_14_7 base x0 x1) % 2^7 = base % 2^7 ∧ (enc_23_22_14_7 base x0 x1) / 2 ^ 22 % 2 ^ 2 = x0.toNat ∧ (enc_23_22_14_7 base x0 x1) / 2 ^ 7 % 2 ^ 8 = x1.toNat := by
  have b0 := Nat.mod_lt (base) (Nat.two_pow_pos 7)
  have b2 := Nat.mod_lt (base / 2^15) (Nat.two_pow_pos 7)
  generalize base % 2^7 = c0 at *
  generalize base / 2^15 % 2^7 = c2 at *
  generalize base / 2^24 = c4 at *
  have d0 : (enc_23_22_14_7 base x0 x1) / 2 ^ 0 = c0 + 2 ^ 7 * (x1.toNat + 2 ^ 8 * (c2 + 2 ^ 7 * (x0.toNat + 2 ^ 2 * (c4)))) := by rw [Nat.pow_zero, Nat.div_one, enc_23_22_14_7]; omega
  obtain ⟨p0, d1⟩ := cutAt d0 b0 rfl
  obtain ⟨p1, d2⟩ := cutAt d1 x1.isLt rfl
  obtain ⟨p2, d3⟩ := cutAt d2 b2 rfl
  obtain ⟨p3, d4⟩ := cutAt d3 x0.isLt rfl
  exact ⟨lt_of_top d4 hc, d4, p2, low_piece p0, p3, p1⟩

theorem enc_fields_5 (base : Nat) (x0 : BitVec 2) (h : base = (base % 2^7) + (base / 2^7 % 2^15) * 2^7 + (base / 2^24) * 2^24) (hc : base / 2^24 < 2^8) :
    enc_23_22 base x0 < 2^32 ∧ (enc_23_22 base x0) / 2^24 = base / 2^24 ∧ (enc_23_22 base x0) / 2^7 % 2^15 = base / 2^7 % 2^15 ∧ (enc_23_22 base x0) % 2^7 = base % 2^7 ∧ (enc_23_22 base x0) / 2 ^ 22 % 2 ^ 2 = x0.toNat := by
  have b0 := Nat.mod_lt (base) (Nat.two_pow_pos 7)
  have b1 := Nat.mod_lt (base / 2^7) (Nat.two_pow_pos 15)
  generalize base % 2^7 = c0 at *
  generalize base / 2^7 % 2^15 = c1 at *
  generalize base / 2^24 = c3 at *
  have d0 : (enc_23_22 base x0) / 2 ^ 0 = c0 + 2 ^ 7 * (c1 + 2 ^ 15 * (x0.toNat + 2 ^ 2 * (c3))) := by rw [Nat.pow_zero, Nat.div_one, enc_23_22]; omega
  obtain ⟨p0, d1⟩ := cutAt d0 b0 rfl
  obtain ⟨p1, d2⟩ := cutAt d1 b1 rfl
  obtain ⟨p2, d3⟩ := cutAt d2 x0.isLt rfl
  exact ⟨lt_of_top d3 hc, d3, p1, low_piece p0, p2⟩

theorem enc_fields_6 (base : Nat) (x0 : BitVec 2) (x1 : BitVec 19) (h : base = (base / 2^19 % 2^3) * 2^19 + (base / 2^24) * 2^24) (hc : base / 2^24 < 2^8) :
    enc_23_22_18_0 base x0 x1 < 2^32 ∧ (enc_23_22_18_0 base x0 x1) / 2^24 = base / 2^24 ∧ (enc_23_22_18_0 base x0 x1) / 2^19 % 2^3 = base / 2^19 % 2^3 ∧ (enc_23_22_18_0 base x0 x1) / 2 ^ 22 % 2 ^ 2 = x0.toNat ∧ (enc_23_22_18_0 base x0 x1) / 2 ^ 0 % 2 ^ 19 = x1.toNat := by
  have b1 := Nat.mod_lt (base / 2^19) (Nat.two_pow_pos 3)
  generalize base / 2^19 % 2^3 = c1 at *
  generalize base / 2^24 = c3 at *
  have d0 : (enc_23_22_18_0 base x0 x1) / 2 ^ 0 = x1.toNat + 2 ^ 19 * (c1 + 2 ^ 3 * (x0.toNat + 2 ^ 2 * (c3))) := by rw [Nat.pow_zero, Nat.div_one, enc_23_22_18_0]; omega
  obtain ⟨p0, d1⟩ := cutAt d0 x1.isLt rfl
  obtain ⟨p1, d2⟩ := cutAt d1 b1 rfl
  obtain ⟨p2, d3⟩ := cutAt d2 x0.isLt rfl
  exact ⟨lt_of_top d3 hc, d3, p1, p2, p0⟩

theorem enc_fields_7 (base : Nat) (x0 : BitVec 2) (x1 : BitVec 7) (x2 : BitVec 7) (h : base = (base / 2^14 % 2^8) * 2^14 + (base / 2^24) * 2^24) (hc : base / 2^24 < 2^8) :
    enc_23_22_13_7_6_0 base x0 x1 x2 < 2^32 ∧ (enc_23_22_13_7_6_0 base x0 x1 x2) / 2^24 = base / 2^24 ∧ (enc_23_22_13_7_6_0 base x0 x1 x2) / 2^14 % 2^8 = base / 2^14 % 2^8 ∧ (enc_23_22_13_7_6_0 base x0 x1 x2) / 2 ^ 22 % 2 ^ 2 = x0.toNat ∧ (enc_23_22_13_7_6_0 base x0 x1 x2) / 2 ^ 7 % 2 ^ 7 = x1.toNat ∧ (enc_23_22_13_7_6_0 base x0 x1 x2) / 2 ^ 0 % 2 ^ 7 = x2.toNat := by
  have b2 := Nat.mod_lt (base / 2^14) (Nat.two_pow_pos 8)
  generalize base / 2^14 % 2^8 = c2 at *
  generalize base / 2^24 = c4 at *
  have d0 : (enc_23_22_13_7_6_0 base x0 x1 x2) / 2 ^ 0 = x2.toNat + 2 ^ 7 * (x1.toNat + 2 ^ 7 * (c2 + 2 ^ 8 * (x0.toNat + 2 ^ 2 * (c4)))) := by rw [Nat.pow_zero, Nat.div_one, enc_23_22_13_7_6_0]; omega
  obtain ⟨p0, d1⟩ := cutAt d0 x2.isLt rfl
  obtain ⟨p1, d2⟩ := cutAt d1 x1.isLt rfl
  obtain ⟨p2, d3⟩ := cutAt d2 b2 rfl
  obtain ⟨p3, d4⟩ := cutAt d3 x0.isLt rfl
  exact ⟨lt_of_top d4 hc, d4, p2, p3, p1, p0⟩

theorem enc_fields_8 (base : Nat) (x0 : BitVec 17) (x1 : BitVec 7) (h : base = (base / 2^24) * 2^24) (hc : base / 2^24 < 2^8) :
    enc_23_7_6_0 base x0 x1 < 2^32 ∧ (enc_23_7_6_0 base x0 x1) / 2^24 = base / 2^24 ∧ (enc_23_7_6_0 base x0 x1) / 2 ^ 7 % 2 ^ 17 = x0.toNat ∧ (enc_23_7_6_0 base x0 x1) / 2 ^ 0 % 2 ^ 7 = x1.toNat := by
  generalize base / 2^24 = c2 at *
  have d0 : (enc_23_7_6_0 base x0 x1) / 2 ^ 0 = x1.toNat + 2 ^ 7 * (x0.toNat + 2 ^ 17 * (c2)) := by rw [Nat.pow_zero, Nat.div_one, enc_23_7_6_0]; omega
  obtain ⟨p0, d1⟩ := cutAt d0 x1.isLt rfl
  obtain ⟨p1, d2⟩ := cutAt d1 x0.isLt rfl
  exact ⟨lt_of_top d2 hc, d2, p1, p0⟩

theorem enc_fields_9 (base : Nat) (x0 : BitVec 2) (x1 : BitVec 15) (x2 : BitVec 7) (h : base = (base / 2^24) * 2^24) (hc : base / 2^24 < 2^8) :
    enc_23_22_21_7_6_0 base x0 x1 x2 < 2^32 ∧ (enc_23_22_21_7_6_0 base x0 x1 x2) / 2^24 = base / 2^24 ∧ (enc_23_22_21_7_6_0 base x0 x1 x2) / 2 ^ 22 % 2 ^ 2 = x0.toNat ∧ (enc_23_22_21_7_6_0 base x0 x1 x2) / 2 ^ 7 % 2 ^ 15 = x1.toNat ∧ (enc_23_22_21_7_6_0 base x0 x1 x2) / 2 ^ 0 % 2 ^ 7 = x2.toNat := by
  generalize base / 2^24 = c3 at *
  have d0 : (enc_23_22_21_7_6_0 base x0 x1 x2) / 2 ^ 0 = x2.toNat + 2 ^ 7 * (x1.toNat + 2 ^ 15 * (x0.toNat + 2 ^ 2 * (c3))) := by rw [Nat.pow_zero, Nat.div_one, enc_23_22_21_7_6_0]; omega
  obtain ⟨p0, d1⟩ := cutAt d0 x2.isLt rfl
  obtain ⟨p1, d2⟩ := cutAt d1 x1.isLt rfl
  obtain ⟨p2, d3⟩ := cutAt d2 x0.isLt rfl
  exact ⟨lt_of_top d3 hc, d3, p2, p1, p0⟩

theorem enc_fields_10 (base : Nat) (x0 : BitVec 2) (x1 : BitVec 6) (x2 : BitVec 7) (x3 : BitVec 7) (h : base = (base / 2^14 % 2^2) * 2^14 + (base / 2^24) * 2^24) (hc : base / 2^24 < 2^8) :
    enc_23_22_21_16_13_7_6_0 base x0 x1 x2 x3 < 2^32 ∧ (enc_23_22_21_16_13_7_6_0 base x0 x1 x2 x3) / 2^24 = base / 2^24 ∧ (enc_23_22_21_16_13_7_6_0 base x0 x1 x2 x3) / 2^14 % 2^2 = base / 2^14 % 2^2 ∧ (enc_23_22_21_16_13_7_6_0 base x0 x1 x2 x3) / 2 ^ 22 % 2 ^ 2 = x0.toNat ∧ (enc_23_22_21_16_13_7_6_0 base x0 x1 x2 x3) / 2 ^ 16 % 2 ^ 6 = x1.toNat ∧ (enc_23_22_21_16_13_7_6_0 base x0 x1 x2 x3) / 2 ^ 7 % 2 ^ 7 = x2.toNat ∧ (enc_23_22_21_16_13_7_6_0 base x0 x1 x2 x3) / 2 ^ 0 % 2 ^ 7 = x3.toNat := by
  have b2 := Nat.mod_lt (base / 2^14) (Nat.two_pow_pos 2)
  generalize base / 2^14 % 2^2 = c2 at *
  generalize base / 2^24 = c5 at *
  have d0 : (enc_23_22_21_16_13_7_6_0 base x0 x1 x2 x3) / 2 ^ 0 = x3.toNat + 2 ^ 7 * (x2.toNat + 2 ^ 7 * (c2 + 2 ^ 2 * (x1.toNat + 2 ^ 6 * (x0.toNat + 2 ^ 2 * (c5))))) := by rw [Nat.pow_zero, Nat.div_one, enc_23_22_21_16_13_7_6_0]; omega
  obtain ⟨p0, d1⟩ := cutAt d0 x3.isLt rfl
  obtain ⟨p1, d2⟩ := cutAt d1 x2.isLt rfl
  obtain ⟨p2, d3⟩ := cutAt d2 b2 rfl
  obtain ⟨p3, d4⟩ := cutAt d3 x1.isLt rfl
  obtain ⟨p4, d5⟩ := cutAt d4 x0.isLt rfl
  exact ⟨lt_of_top d5 hc, d5, p2, p4, p3, p1, p0⟩

theorem enc_fields_11 (base : Nat) (x0 : BitVec 2) (x1 : BitVec 6) (h : base = (base % 2^16) + (base / 2^24) * 2^24) (hc : base / 2^24 < 2^8) :
    enc_23_22_21_16 base x0 x1 < 2^32 ∧ (enc_23_22_21_16 base x0 x1) / 2^24 = base / 2^24 ∧ (enc_23_22_21_16 base x0 x1) % 2^16 = base % 2^16 ∧ (enc_23_22_21_16 base x0 x1) / 2 ^ 22 % 2 ^ 2 = x0.toNat ∧ (enc_23_22_21_16 base x0 x1) / 2 ^ 16 % 2 ^ 6 = x1.toNat := by
  have b0 := Nat.mod_lt (base) (Nat.two_pow_pos 16)
  generalize base % 2^16 = c0 at *
  generalize base / 2^24 = c3 at *
  have d0 : (enc_23_22_21_16 base x0 x1) / 2 ^ 0 = c0 + 2 ^ 16 * (x1.toNat + 2 ^ 6 * (x0.toNat + 2 ^ 2 * (c3))) := by rw [Nat.pow_zero, Nat.div_one, enc_23_22_21_16]; omega
  obtain ⟨p0, d1⟩ := cutAt d0 b0 rfl
  obtain ⟨p1, d2⟩ := cutAt d1 x1.isLt rfl
  obtain ⟨p2, d3⟩ := cutAt d2 x0.isLt rfl
  exact ⟨lt_of_top d3 hc, d3, low_piece p0, p2, p1⟩

theorem enc_fields_12 (base : Nat) (x0 : BitVec 2) (x1 : BitVec 8) (x2 : BitVec 7) (h : base = (base / 2^15 % 2^7) * 2^15 + (base / 2^24) * 2^24) (hc : base / 2^24 < 2^8) :
    enc_23_22_14_7_6_0 base x0 x1 x2 < 2^32 ∧ (enc_23_22_14_7_6_0 base x0 x1 x2) / 2^24 = base / 2^24 ∧ (enc_23_22_14_7_6_0 base x0 x1 x2) / 2^15 % 2^7 = base / 2^15 % 2^7 ∧ (enc_23_22_14_7_6_0 base x0 x1 x2) / 2 ^ 22 % 2 ^ 2 = x0.toNat ∧ (enc_23_22_14_7_6_0 base x0 x1 x2) / 2 ^ 7 % 2 ^ 8 = x1.toNat ∧ (enc_23_22_14_7_6_0 base x0 x1 x2) / 2 ^ 0 % 2 ^ 7 = x2.toNat := by
  have b2 := Nat.mod_lt (base / 2^15) (Nat.two_pow_pos 7)
  generalize base / 2^15 % 2^7 = c2 at *
  generalize base / 2^24 = c4 at *
  have d0 : (enc_23_22_14_7_6_0 base x0 x1 x2) / 2 ^ 0 = x2.toNat + 2 ^ 7 * (x1.toNat + 2 ^ 8 * (c2 + 2 ^ 7 * (x0.toNat + 2 ^ 2 * (c4)))) := by rw [Nat.pow_zero, Nat.div_one, enc_23_22_14_7_6_0]; omega
  obtain ⟨p0, d1⟩ := cutAt d0 x2.isLt rfl
  obtain ⟨p1, d2⟩ := cutAt d1 x1.isLt rfl
  obtain ⟨p2, d3⟩ := cutAt d2 b2 rfl
  obtain ⟨p3, d4⟩ := cutAt d3 x0.isLt rfl
  exact ⟨lt_of_top d4 hc, d4, p2, p3, p1, p0⟩

theorem enc_fields_13 (base : Nat) (x0 : BitVec 7) (x1 : BitVec 7) (h : base = (base / 2^14 % 2^10) * 2^14 + (base / 2^24) * 2^24) (hc : base / 2^24 < 2^8) :
    enc_13_7_6_0 base x0 x1 < 2^32 ∧ (enc_13_7_6_0 base x0 x1) / 2^24 = base / 2^24 ∧ (enc_13_7_6_0 base x0 x1) / 2^14 % 2^10 = base / 2^14 % 2^10 ∧ (enc_13_7_6_0 base x0 x1) / 2 ^ 7 % 2 ^ 7 = x0.toNat ∧ (enc_13_7_6_0 base x0 x1) / 2 ^ 0 % 2 ^ 7 = x1.toNat := by
  have b2 := Nat.mod_lt (base / 2^14) (Nat.two_pow_pos 10)
  generalize base / 2^14 % 2^10 = c2 at *
  generalize base / 2^24 = c3 at *
  have d0 : (enc_13_7_6_0 base x0 x1) / 2 ^ 0 = x1.toNat + 2 ^ 7 * (x0.toNat + 2 ^ 7 * (c2 + 2 ^ 10 * (c3))) := by rw [Nat.pow_zero, Nat.div_one, enc_13_7_6_0]; omega
  obtain ⟨p0, d1⟩ := cutAt d0 x1.isLt rfl
  obtain ⟨p1, d2⟩ := cutAt d1 x0.isLt rfl
  obtain ⟨p2, d3⟩ := cutAt d2 b2 rfl
  exact ⟨lt_of_top d3 hc, d3, p2, p1, p0⟩

theorem enc_fields_14 (base : Nat) (x0 : BitVec 2) (x1 : BitVec 1) (x2 : BitVec 6) (x3 : BitVec 7) (h : base = (base / 2^14 % 2^8) * 2^14 + (base / 2^24) * 2^24) (hc : base / 2^24 < 2^8) :
    enc_23_22_13_13_12_7_6_0 base x0 x1 x2 x3 < 2^32 ∧ (enc_23_22_13_13_12_7_6_0 base x0 x1 x2 x3) / 2^24 = base / 2^24 ∧ (enc_23_22_13_13_12_7_6_0 base x0 x1 x2 x3) / 2^14 % 2^8 = base / 2^14 % 2^8 ∧ (enc_23_22_13_13_12_7_6_0 base x0 x1 x2 x3) / 2 ^ 22 % 2 ^ 2 = x0.toNat ∧ (enc_23_22_13_13_12_7_6_0 base x0 x1 x2 x3) / 2 ^ 13 % 2 ^ 1 = x1.toNat ∧ (enc_23_22_13_13_12_7_6_0 base x0 x1 x2 x3) / 2 ^ 7 % 2 ^ 6 = x2.toNat ∧ (enc_23_22_13_13_12_7_6_0 base x0 x1 x2 x3) / 2 ^ 0 % 2 ^ 7 = x3.toNat := by
  have b3 := Nat.mod_lt (base / 2^14) (Nat.two_pow_pos 8)
  generalize base / 2^14 % 2^8 = c3 at *
  generalize base / 2^24 = c5 at *
  have d0 : (enc_23_22_13_13_12_7_6_0 base x0 x1 x2 x3) / 2 ^ 0 = x3.toNat + 2 ^ 7 * (x2.toNat + 2 ^ 6 * (x1.toNat + 2 ^ 1 * (c3 + 2 ^ 8 * (x0.toNat + 2 ^ 2 * (c5))))) := by rw [Nat.pow_zero, Nat.div_one, enc_23_22_13_13_12_7_6_0]; omega
  obtain ⟨p0, d1⟩ := cutAt d0 x3.isLt rfl
  obtain ⟨p1, d2⟩ := cutAt d1 x2.isLt rfl
  obtain ⟨p2, d3⟩ := cutAt d2 x1.isLt rfl
  obtain ⟨p3, d4⟩ := cutAt d3 b3 rfl
  obtain ⟨p4, d5⟩ := cutAt d4 x0.isLt rfl
  exact ⟨lt_of_top d5 hc, d5, p3, p4, p2, p1, p0⟩

theorem enc_fields_15 (base : Nat) (x0 : BitVec 2) (x1 : BitVec 1) (x2 : BitVec 7) (x3 : BitVec 7) (h : base = (base / 2^14 % 2^7) * 2^14 + (base / 2^24) * 2^24) (hc : base / 2^24 < 2^8) :
    enc_23_22_21_21_13_7_6_0 base x0 x1 x2 x3 < 2^32 ∧ (enc_23_22_21_21_13_7_6_0 base x0 x1 x2 x3) / 2^24 = base / 2^24 ∧ (enc_23_22_21_21_13_7_6_0 base x0 x1 x2 x3) / 2^14 % 2^7 = base / 2^14 % 2^7 ∧ (enc_23_22_21_21_13_7_6_0 base x0 x1 x2 x3) / 2 ^ 22 % 2 ^ 2 = x0.toNat ∧ (enc_23_22_21_21_13_7_6_0 base x0 x1 x2 x3) / 2 ^ 21 % 2 ^ 1 = x1.toNat ∧ (enc_23_22_21_21_13_7_6_0 base x0 x1 x2 x3) / 2 ^ 7 % 2 ^ 7 = x2.toNat ∧ (enc_23_22_21_21_13_7_6_0 base x0 x1 x2 x3) / 2 ^ 0 % 2 ^ 7 = x3.toNat := by
  have b2 := Nat.mod_lt (base / 2^14) (Nat.two_pow_pos 7)
  generalize base / 2^14 % 2^7 = c2 at *
  generalize base / 2^24 = c5 at *
  have d0 : (enc_23_22_21_21_13_7_6_0 base x0 x1 x2 x3) / 2 ^ 0 = x3.toNat + 2 ^ 7 * (x2.toNat + 2 ^ 7 * (c2 + 2 ^ 7 * (x1.toNat + 2 ^ 1 * (x0.toNat + 2 ^ 2 * (c5))))) := by rw [Nat.pow_zero, Nat.div_one, enc_23_22_21_21_13_7_6_0]; omega
  obtain ⟨p0, d1⟩ := cutAt d0 x3.isLt rfl
  obtain ⟨p1, d2⟩ := cutAt d1 x2.isLt rfl
  obtain ⟨p2, d3⟩ := cutAt d2 b2 rfl
  obtain ⟨p3, d4⟩ := cutAt d3 x1.isLt rfl
  obtain ⟨p4, d5⟩ := cutAt d4 x0.isLt rfl
  exact ⟨lt_of_top d5 hc, d5, p2, p4, p3, p1, p0⟩

theorem enc_fields_16 (base : Nat) (x0 : BitVec 8) (x1 : BitVec 7) (x2 : BitVec 7) (h : base = (base / 2^22 % 2^2) * 2^22 + (base / 2^24) * 2^24) (hc : base / 2^24 < 2^8) :
    enc_21_14_13_7_6_0 base x0 x1 x2 < 2^32 ∧ (enc_21_14_13_7_6_0 base x0 x1 x2) / 2^24 = base / 2^24 ∧ (enc_21_14_13_7_6_0 base x0 x1 x2) / 2^22 % 2^2 = base / 2^22 % 2^2 ∧ (enc_21_14_13_7_6_0 base x0 x1 x2) / 2 ^ 14 % 2 ^ 8 = x0.toNat ∧ (enc_21_14_13_7_6_0 base x0 x1 x2) / 2 ^ 7 % 2 ^ 7 = x1.toNat ∧ (enc_21_14_13_7_6_0 base x0 x1 x2) / 2 ^ 0 % 2 ^ 7 = x2.toNat := by
  have b3 := Nat.mod_lt (base / 2^22) (Nat.two_pow_pos 2)
  generalize base / 2^22 % 2^2 = c3 at *
  generalize base / 2^24 = c4 at *
  have d0 : (enc_21_14_13_7_6_0 base x0 x1 x2) / 2 ^ 0 = x2.toNat + 2 ^ 7 * (x1.toNat + 2 ^ 7 * (x0.toNat + 2 ^ 8 * (c3 + 2 ^ 2 * (c4)))) := by rw [Nat.pow_zero, Nat.div_one, enc_21_14_13_7_6_0]; omega
  obtain ⟨p0, d1⟩ := cutAt d0 x2.isLt rfl
  obtain ⟨p1, d2⟩ := cutAt d1 x1.isLt rfl
  obtain ⟨p2, d3⟩ := cutAt d2 x0.isLt rfl
  obtain ⟨p3, d4⟩ := cutAt d3 b3 rfl
  exact ⟨lt_of_top d4 hc, d4, p3, p2, p1, p0⟩

theorem enc_fields_17 (base : Nat) (x0 : BitVec 1) (x1 : BitVec 7) (x2 : BitVec 7) (h : base = (base / 2^15 % 2^9) * 2^15 + (base / 2^24) * 2^24) (hc : base / 2^24 < 2^8) :
    enc_14_14_13_7_6_0 base x0 x1 x2 < 2^32 ∧ (enc_14_14_13_7_6_0 base x0 x1 x2) / 2^24 = base / 2^24 ∧ (enc_14_14_13_7_6_0 base x0 x1 x2) / 2^15 % 2^9 = base / 2^15 % 2^9 ∧ (enc_14_14_13_7_6_0 base x0 x1 x2) / 2 ^ 14 % 2 ^ 1 = x0.toNat ∧ (enc_14_14_13_7_6_0 base x0 x1 x2) / 2 ^ 7 % 2 ^ 7 = x1.toNat ∧ (enc_14_14_13_7_6_0 base x0 x1 x2) / 2 ^ 0 % 2 ^ 7 = x2.toNat := by
  have b3 := Nat.mod_lt (base / 2^15) (Nat.two_pow_pos 9)
  generalize base / 2^15 % 2^9 = c3 at *
  generalize base / 2^24 = c4 at *
  have d0 : (enc_14_14_13_7_6_0 base x0 x1 x2) / 2 ^ 0 = x2.toNat + 2 ^ 7 * (x1.toNat + 2 ^ 7 * (x0.toNat + 2 ^ 1 * (c3 + 2 ^ 9 * (c4)))) := by rw [Nat.pow_zero, Nat.div_one, enc_14_14_13_7_6_0]; omega
  obtain ⟨p0, d1⟩ := cutAt d0 x2.isLt rfl
  obtain ⟨p1, d2⟩ := cutAt d1 x1.isLt rfl
  obtain ⟨p2, d3⟩ := cutAt d2 x0.isLt rfl
  obtain ⟨p3, d4⟩ := cutAt d3 b3 rfl
  exact ⟨lt_of_top d4 hc, d4, p3, p2, p1, p0⟩

theorem enc_fields_18 (base : Nat) (x0 : BitVec 2) (x1 : BitVec 1) (x2 : BitVec 6) (x3 : BitVec 6) (x4 : BitVec 7) (h : base = (base / 2^20 % 2^2) * 2^20 + (base / 2^24) * 2^24) (hc : base / 2^24 < 2^8) :
    enc_23_22_19_19_18_13_12_7_6_0 base x0 x1 x2 x3 x4 < 2^32 ∧ (enc_23_22_19_19_18_13_12_7_6_0 base x0 x1 x2 x3 x4) / 2^24 = base / 2^24 ∧ (enc_23_22_19_19_18_13_12_7_6_0 base x0 x1 x2 x3 x4) / 2^20 % 2^2 = base / 2^20 % 2^2 ∧ (enc_23_22_19_19_18_13_12_7_6_0 base x0 x1 x2 x3 x4) / 2 ^ 22 % 2 ^ 2 = x0.toNat ∧ (enc_23_22_19_19_18_13_12_7_6_0 base x0 x1 x2 x3 x4) / 2 ^ 19 % 2 ^ 1 = x1.toNat ∧ (enc_23_22_19_19_18_13_12_7_6_0 base x0 x1 x2 x3 x4) / 2 ^ 13 % 2 ^ 6 = x2.toNat ∧ (enc_23_22_19_19_18_13_12_7_6_0 base x0 x1 x2 x3 x4) / 2 ^ 7 % 2 ^ 6 = x3.toNat ∧ (enc_23_22_19_19_18_13_12_7_6_0 base x0 x1 x2 x3 x4) / 2 ^ 0 % 2 ^ 7 = x4.toNat := by
  have b4 := Nat.mod_lt (base / 2^20) (Nat.two_pow_pos 2)
  generalize base / 2^20 % 2^2 = c4 at *
  generalize base / 2^24 = c6 at *
  have d0 : (enc_23_22_19_19_18_13_12_7_6_0 base x0 x1 x2 x3 x4) / 2 ^ 0 = x4.toNat + 2 ^ 7 * (x3.toNat + 2 ^ 6 * (x2.toNat + 2 ^ 6 * (x1.toNat + 2 ^ 1 * (c4 + 2 ^ 2 * (x0.toNat + 2 ^ 2 * (c6)))))) := by rw [Nat.pow_zero, Nat.div_one, enc_23_22_19_19_18_13_12_7_6_0]; omega
  obtain ⟨p0, d1⟩ := cutAt d0 x4.isLt rfl
  obtain ⟨p1, d2⟩ := cutAt d1 x3.isLt rfl
  obtain ⟨p2, d3⟩ := cutAt d2 x2.isLt rfl
  obtain ⟨p3, d4⟩ := cutAt d3 x1.isLt rfl
  obtain ⟨p4, d5⟩ := cutAt d4 b4 rfl
  obtain ⟨p5, d6⟩ := cutAt d5 x0.isLt rfl
  exact ⟨lt_of_top d6 hc, d6, p4, p5, p3, p2, p1, p0⟩

theorem enc_fields_19 (base : Nat) (x0 : BitVec 2) (x1 : BitVec 14) (x2 : BitVec 7) (h : base = (base / 2^21 % 2^1) * 2^21 + (base / 2^24) * 2^24) (hc : base / 2^24 < 2^8) :
    enc_23_22_20_7_6_0 base x0 x1 x2 < 2^32 ∧ (enc_23_22_20_7_6_0 base x0 x1 x2) / 2^24 = base / 2^24 ∧ (enc_23_22_20_7_6_0 base x0 x1 x2) / 2^21 % 2^1 = base / 2^21 % 2^1 ∧ (enc_23_22_20_7_6_0 base x0 x1 x2) / 2 ^ 22 % 2 ^ 2 = x0.toNat ∧ (enc_23_22_20_7_6_0 base x0 x1 x2) / 2 ^ 7 % 2 ^ 14 = x1.toNat ∧ (enc_23_22_20_7_6_0 base x0 x1 x2) / 2 ^ 0 % 2 ^ 7 = x2.toNat := by
  have b2 := Nat.mod_lt (base / 2^21) (Nat.two_pow_pos 1)
  generalize base / 2^21 % 2^1 = c2 at *
  generalize base / 2^24 = c4 at *
  have d0 : (enc_23_22_20_7_6_0 base x0 x1 x2) / 2 ^ 0 = x2.toNat + 2 ^ 7 * (x1.toNat + 2 ^ 14 * (c2 + 2 ^ 1 * (x0.toNat + 2 ^ 2 * (c4)))) := by rw [Nat.pow_zero, Nat.div_one, enc_23_22_20_7_6_0]; omega
  obtain ⟨p0, d1⟩ := cutAt d0 x2.isLt rfl
  obtain ⟨p1, d2⟩ := cutAt d1 x1.isLt rfl
  obtain ⟨p2, d3⟩ := cutAt d2 b2 rfl
  obtain ⟨p3, d4⟩ := cutAt d3 x0.isLt rfl
  exact ⟨lt_of_top d4 hc, d4, p2, p3, p1, p0⟩

theorem enc_fields_20 (base : Nat) (x0 : BitVec 2) (x1 : BitVec 3) (x2 : BitVec 7) (x3 : BitVec 7) (h : base = (base / 2^14 % 2^5) * 2^14 + (base / 2^24) * 2^24) (hc : base / 2^24 < 2^8) :
    enc_23_22_21_19_13_7_6_0 base x0 x1 x2 x3 < 2^32 ∧ (enc_23_22_21_19_13_7_6_0 base x0 x1 x2 x3) / 2^24 = base / 2^24 ∧ (enc_23_22_21_19_13_7_6_0 base x0 x1 x2 x3) / 2^14 % 2^5 = base / 2^14 % 2^5 ∧ (enc_23_22_21_19_13_7_6_0 base x0 x1 x2 x3) / 2 ^ 22 % 2 ^ 2 = x0.toNat ∧ (enc_23_22_21_19_13_7_6_0 base x0 x1 x2 x3) / 2 ^ 19 % 2 ^ 3 = x1.toNat ∧ (enc_23_22_21_19_13_7_6_0 base x0 x1 x2 x3) / 2 ^ 7 % 2 ^ 7 = x2.toNat ∧ (enc_23_22_21_19_13_7_6_0 base x0 x1 x2 x3) / 2 ^ 0 % 2 ^ 7 = x3.toNat := by
  have b2 := Nat.mod_lt (base / 2^14) (Nat.two_pow_pos 5)
  generalize base / 2^14 % 2^5 = c2 at *
  generalize base / 2^24 = c5 at *
  have d0 : (enc_23_22_21_19_13_7_6_0 base x0 x1 x2 x3) / 2 ^ 0 = x3.toNat + 2 ^ 7 * (x2.toNat + 2 ^ 7 * (c2 + 2 ^ 5 * (x1.toNat + 2 ^ 3 * (x0.toNat + 2 ^ 2 * (c5))))) := by rw [Nat.pow_zero, Nat.div_one, enc_23_22_21_19_13_7_6_0]; omega
  obtain ⟨p0, d1⟩ := cutAt d0 x3.isLt rfl
  obtain ⟨p1, d2⟩ := cutAt d1 x2.isLt rfl
  obtain ⟨p2, d3⟩ := cutAt d2 b2 rfl
  obtain ⟨p3, d4⟩ := cutAt d3 x1.isLt rfl
  obtain ⟨p4, d5⟩ := cutAt d4 x0.isLt rfl
  exact ⟨lt_of_top d5 hc, d5, p2, p4, p3, p1, p0⟩

theorem enc_fields_21 (base : Nat) (x0 : BitVec 2) (x1 : BitVec 7) (x2 : BitVec 7) (h : base = (base / 2^14 % 2^5) * 2^14 + (base / 2^19 % 2^3) * 2^19 + (base / 2^24) * 2^24) (hc : base / 2^24 < 2^8) :
    enc_23_22_13_7_6_0 base x0 x1 x2 < 2^32 ∧ (enc_23_22_13_7_6_0 base x0 x1 x2) / 2^24 = base / 2^24 ∧ (enc_23_22_13_7_6_0 base x0 x1 x2) / 2^14 % 2^5 = base / 2^14 % 2^5 ∧ (enc_23_22_13_7_6_0 base x0 x1 x2) / 2^19 % 2^3 = base / 2^19 % 2^3 ∧ (enc_23_22_13_7_6_0 base x0 x1 x2) / 2 ^ 22 % 2 ^ 2 = x0.toNat ∧ (enc_23_22_13_7_6_0 base x0 x1 x2) / 2 ^ 7 % 2 ^ 7 = x1.toNat ∧ (enc_23_22_13_7_6_0 base x0 x1 x2) / 2 ^ 0 % 2 ^ 7 = x2.toNat := by
  have b2 := Nat.mod_lt (base / 2^14) (Nat.two_pow_pos 5)
  have b3 := Nat.mod_lt (base / 2^19) (Nat.two_pow_pos 3)
  generalize base / 2^14 % 2^5 = c2 at *
  generalize base / 2^19 % 2^3 = c3 at *
  generalize base / 2^24 = c5 at *
  have d0 : (enc_23_22_13_7_6_0 base x0 x1 x2) / 2 ^ 0 = x2.toNat + 2 ^ 7 * (x1.toNat + 2 ^ 7 * (c2 + 2 ^ 5 * (c3 + 2 ^ 3 * (x0.toNat + 2 ^ 2 * (c5))))) := by rw [Nat.pow_zero, Nat.div_one, enc_23_22_13_7_6_0]; omega
  obtain ⟨p0, d1⟩ := cutAt d0 x2.isLt rfl
  obtain ⟨p1, d2⟩ := cutAt d1 x1.isLt rfl
  obtain ⟨p2, d3⟩ := cutAt d2 b2 rfl
  obtain ⟨p3, d4⟩ := cutAt d3 b3 rfl
  obtain ⟨p4, d5⟩ := cutAt d4 x0.isLt rfl
  exact ⟨lt_of_top d5 hc, d5, p2, p3, p4, p1, p0⟩

theorem enc_fields_22 (base : Nat) (x0 : BitVec 3) (x1 : BitVec 7) (x2 : BitVec 7) (h : base = (base / 2^14 % 2^5) * 2^14 + (base / 2^22 % 2^2) * 2^22 + (base / 2^24) * 2^24) (hc : base / 2^24 < 2^8) :
    enc_21_19_13_7_6_0 base x0 x1 x2 < 2^32 ∧ (enc_21_19_13_7_6_0 base x0 x1 x2) / 2^24 = base / 2^24 ∧ (enc_21_19_13_7_6_0 base x0 x1 x2) / 2^14 % 2^5 = base / 2^14 % 2^5 ∧ (enc_21_19_13_7_6_0 base x0 x1 x2) / 2^22 % 2^2 = base / 2^22 % 2^2 ∧ (enc_21_19_13_7_6_0 base x0 x1 x2) / 2 ^ 19 % 2 ^ 3 = x0.toNat ∧ (enc_21_19_13_7_6_0 base x0 x1 x2) / 2 ^ 7 % 2 ^ 7 = x1.toNat ∧ (enc_21_19_13_7_6_0 base x0 x1 x2) / 2 ^ 0 % 2 ^ 7 = x2.toNat := by
  have b2 := Nat.mod_lt (base / 2^14) (Nat.two_pow_pos 5)
  have b4 := Nat.mod_lt (base / 2^22) (Nat.two_pow_pos 2)
  generalize base / 2^14 % 2^5 = c2 at *
  generalize base / 2^22 % 2^2 = c4 at *
  generalize base / 2^24 = c5 at *
  have d0 : (enc_21_19_13_7_6_0 base x0 x1 x2) / 2 ^ 0 = x2.toNat + 2 ^ 7 * (x1.toNat + 2 ^ 7 * (c2 + 2 ^ 5 * (x0.toNat + 2 ^ 3 * (c4 + 2 ^ 2 * (c5))))) := by rw [Nat.pow_zero, Nat.div_one, enc_21_19_13_7_6_0]; omega
  obtain ⟨p0, d1⟩ := cutAt d0 x2.isLt rfl
  obtain ⟨p1, d2⟩ := cutAt d1 x1.isLt rfl
  obtain ⟨p2, d3⟩ := cutAt d2 b2 rfl
  obtain ⟨p3, d4⟩ := cutAt d3 x0.isLt rfl
  obtain ⟨p4, d5⟩ := cutAt d4 b4 rfl
  exact ⟨lt_of_top d5 hc, d5, p2, p4, p3, p1, p0⟩

theorem enc_fields_23 (base : Nat) (x0 : BitVec 2) (x1 : BitVec 4) (x2 : BitVec 7) (x3 : BitVec 7) (h : base = (base / 2^18 % 2^1) * 2^18 + (base / 2^19 % 2^3) * 2^19 + (base / 2^24) * 2^24) (hc : base / 2^24 < 2^8) :
    enc_23_22_17_14_13_7_6_0 base x0 x1 x2 x3 < 2^32 ∧ (enc_23_22_17_14_13_7_6_0 base x0 x1 x2 x3) / 2^24 = base / 2^24 ∧ (enc_23_22_17_14_13_7_6_0 base x0 x1 x2 x3) / 2^18 % 2^1 = base / 2^18 % 2^1 ∧ (enc_23_22_17_14_13_7_6_0 base x0 x1 x2 x3) / 2^19 % 2^3 = base / 2^19 % 2^3 ∧ (enc_23_22_17_14_13_7_6_0 base x0 x1 x2 x3) / 2 ^ 22 % 2 ^ 2 = x0.toNat ∧ (enc_23_22_17_14_13_7_6_0 base x0 x1 x2 x3) / 2 ^ 14 % 2 ^ 4 = x1.toNat ∧ (enc_23_22_17_14_13_7_6_0 base x0 x1 x2 x3) / 2 ^ 7 % 2 ^ 7 = x2.toNat ∧ (enc_23_22_17_14_13_7_6_0 base x0 x1 x2 x3) / 2 ^ 0 % 2 ^ 7 = x3.toNat := by
  have b3 := Nat.mod_lt (base / 2^18) (Nat.two_pow_pos 1)
  have b4 := Nat.mod_lt (base / 2^19) (Nat.two_pow_pos 3)
  generalize base / 2^18 % 2^1 = c3 at *
  generalize base / 2^19 % 2^3 = c4 at *
  generalize base / 2^24 = c6 at *
  have d0 : (enc_23_22_17_14_13_7_6_0 base x0 x1 x2 x3) / 2 ^ 0 = x3.toNat + 2 ^ 7 * (x2.toNat + 2 ^ 7 * (x1.toNat + 2 ^ 4 * (c3 + 2 ^ 1 * (c4 + 2 ^ 3 * (x0.toNat + 2 ^ 2 * (c6)))))) := by rw [Nat.pow_zero, Nat.div_one, enc_23_22_17_14_13_7_6_0]; omega
  obtain ⟨p0, d1⟩ := cutAt d0 x3.isLt rfl
  obtain ⟨p1, d2⟩ := cutAt d1 x2.isLt rfl
  obtain ⟨p2, d3⟩ := cutAt d2 x1.isLt rfl
  obtain ⟨p3, d4⟩ := cutAt d3 b3 rfl
  obtain ⟨p4, d5⟩ := cutAt d4 b4 rfl
  obtain ⟨p5, d6⟩ := cutAt d5 x0.isLt rfl
  exact ⟨lt_of_top d6 hc, d6, p3, p4, p5, p2, p1, p0⟩

theorem enc_fields_24 (base : Nat) (x0 : BitVec 2) (x1 : BitVec 3) (x2 : BitVec 2) (x3 : BitVec 3) (x4 : BitVec 7) (x5 : BitVec 7) (h : base = (base / 2^24) * 2^24) (hc : base / 2^24 < 2^8) :
    enc_23_22_21_19_18_17_16_14_13_7_6_0 base x0 x1 x2 x3 x4 x5 < 2^32 ∧ (enc_23_22_21_19_18_17_16_14_13_7_6_0 base x0 x1 x2 x3 x4 x5) / 2^24 = base / 2^24 ∧ (enc_23_22_21_19_18_17_16_14_13_7_6_0 base x0 x1 x2 x3 x4 x5) / 2 ^ 22 % 2 ^ 2 = x0.toNat ∧ (enc_23_22_21_19_18_17_16_14_13_7_6_0 base x0 x1 x2 x3 x4 x5) / 2 ^ 19 % 2 ^ 3 = x1.toNat ∧ (enc_23_22_21_19_18_17_16_14_13_7_6_0 base x0 x1 x2 x3 x4 x5) / 2 ^ 17 % 2 ^ 2 = x2.toNat ∧ (enc_23_22_21_19_18_17_16_14_13_7_6_0 base x0 x1 x2 x3 x4 x5) / 2 ^ 14 % 2 ^ 3 = x3.toNat ∧ (enc_23_22_21_19_18_17_16_14_13_7_6_0 base x0 x1 x2 x3 x4 x5) / 2 ^ 7 % 2 ^ 7 = x4.toNat ∧ (enc_23_22_21_19_18_17_16_14_13_7_6_0 base x0 x1 x2 x3 x4 x5) / 2 ^ 0 % 2 ^ 7 = x5.toNat := by
  generalize base / 2^24 = c6 at *
  have d0 : (enc_23_22_21_19_18_17_16_14_13_7_6_0 base x0 x1 x2 x3 x4 x5) / 2 ^ 0 = x5.toNat + 2 ^ 7 * (x4.toNat + 2 ^ 7 * (x3.toNat + 2 ^ 3 * (x2.toNat + 2 ^ 2 * (x1.toNat + 2 ^ 3 * (x0.toNat + 2 ^ 2 * (c6)))))) := by rw [Nat.pow_zero, Nat.div_one, enc_23_22_21_19_18_17_16_14_13_7_6_0]; omega
  obtain ⟨p0, d1⟩ := cutAt d0 x5.isLt rfl
  obtain ⟨p1, d2⟩ := cutAt d1 x4.isLt rfl
  obtain ⟨p2, d3⟩ := cutAt d2 x3.isLt rfl
  obtain ⟨p3, d4⟩ := cutAt d3 x2.isLt rfl
  obtain ⟨p4, d5⟩ := cutAt d4 x1.isLt rfl
  obtain ⟨p5, d6⟩ := cutAt d5 x0.isLt rfl
  exact ⟨lt_of_top d6 hc, d6, p5, p4, p3, p2, p1, p0⟩

theorem enc_fields_25 (base : Nat) (x0 : BitVec 2) (x1 : BitVec 2) (x2 : BitVec 6) (h : base = (base % 2^14) + (base / 2^24) * 2^24) (hc : base / 2^24 < 2^8) :
    enc_23_22_21_20_19_14 base x0 x1 x2 < 2^32 ∧ (enc_23_22_21_20_19_14 base x0 x1 x2) / 2^24 = base / 2^24 ∧ (enc_23_22_21_20_19_14 base x0 x1 x2) % 2^14 = base % 2^14 ∧ (enc_23_22_21_20_19_14 base x0 x1 x2) / 2 ^ 22 % 2 ^ 2 = x0.toNat ∧ (enc_23_22_21_20_19_14 base x0 x1 x2) / 2 ^ 20 % 2 ^ 2 = x1.toNat ∧ (enc_23_22_21_20_19_14 base x0 x1 x2) / 2 ^ 14 % 2 ^ 6 = x2.toNat := by
  have b0 := Nat.mod_lt (base) (Nat.two_pow_pos 14)
  generalize base % 2^14 = c0 at *
  generalize base / 2^24 = c4 at *
  have d0 : (enc_23_22_21_20_19_14 base x0 x1 x2) / 2 ^ 0 = c0 + 2 ^ 14 * (x2.toNat + 2 ^ 6 * (x1.toNat + 2 ^ 2 * (x0.toNat + 2 ^ 2 * (c4)))) := by rw [Nat.pow_zero, Nat.div_one, enc_23_22_21_20_19_14]; omega
  obtain ⟨p0, d1⟩ := cutAt d0 b0 rfl
  obtain ⟨p1, d2⟩ := cutAt d1 x2.isLt rfl
  obtain ⟨p2, d3⟩ := cutAt d2 x1.isLt rfl
  obtain ⟨p3, d4⟩ := cutAt d3 x0.isLt rfl
  exact ⟨lt_of_top d4 hc, d4, low_piece p0, p3, p2, p1⟩

theorem enc_fields_26 (base : Nat) (x0 : BitVec 2) (x1 : BitVec 4) (x2 : BitVec 7) (x3 : BitVec 7) (h : base = (base / 2^14 % 2^4) * 2^14 + (base / 2^24) * 2^24) (hc : base / 2^24 < 2^8) :
    enc_23_22_21_18_13_7_6_0 base x0 x1 x2 x3 < 2^32 ∧ (enc_23_22_21_18_13_7_6_0 base x0 x1 x2 x3) / 2^24 = base / 2^24 ∧ (enc_23_22_21_18_13_7_6_0 base x0 x1 x2 x3) / 2^14 % 2^4 = base / 2^14 % 2^4 ∧ (enc_23_22_21_18_13_7_6_0 base x0 x1 x2 x3) / 2 ^ 22 % 2 ^ 2 = x0.toNat ∧ (enc_23_22_21_18_13_7_6_0 base x0 x1 x2 x3) / 2 ^ 18 % 2 ^ 4 = x1.toNat ∧ (enc_23_22_21_18_13_7_6_0 base x0 x1 x2 x3) / 2 ^ 7 % 2 ^ 7 = x2.toNat ∧ (enc_23_22_21_18_13_7_6_0 base x0 x1 x2 x3) / 2 ^ 0 % 2 ^ 7 = x3.toNat := by
  have b2 := Nat.mod_lt (base / 2^14) (Nat.two_pow_pos 4)
  generalize base / 2^14 % 2^4 = c2 at *
  generalize base / 2^24 = c5 at *
  have d0 : (enc_23_22_21_18_13_7_6_0 base x0 x1 x2 x3) / 2 ^ 0 = x3.toNat + 2 ^ 7 * (x2.toNat + 2 ^ 7 * (c2 + 2 ^ 4 * (x1.toNat + 2 ^ 4 * (x0.toNat + 2 ^ 2 * (c5))))) := by rw [Nat.pow_zero, Nat.div_one, enc_23_22_21_18_13_7_6_0]; omega
  obtain ⟨p0, d1⟩ := cutAt d0 x3.isLt rfl
  obtain ⟨p1, d2⟩ := cutAt d1 x2.isLt rfl
  obtain ⟨p2, d3⟩ := cutAt d2 b2 rfl
  obtain ⟨p3, d4⟩ := cutAt d3 x1.isLt rfl
  obtain ⟨p4, d5⟩ := cutAt d4 x0.isLt rfl
  exact ⟨lt_of_top d5 hc, d5, p2, p4, p3, p1, p0⟩

theorem enc_fields_27 (base : Nat) (x0 : BitVec 2) (x1 : BitVec 4) (x2 : BitVec 2) (x3 : BitVec 2) (x4 : BitVec 7) (x5 : BitVec 7) (h : base = (base / 2^24) * 2^24) (hc : base / 2^24 < 2^8) :
    enc_23_22_21_18_17_16_15_14_13_7_6_0 base x0 x1 x2 x3 x4 x5 < 2^32 ∧ (enc_23_22_21_18_17_16_15_14_13_7_6_0 base x0 x1 x2 x3 x4 x5) / 2^24 = base / 2^24 ∧ (enc_23_22_21_18_17_16_15_14_13_7_6_0 base x0 x1 x2 x3 x4 x5) / 2 ^ 22 % 2 ^ 2 = x0.toNat ∧ (enc_23_22_21_18_17_16_15_14_13_7_6_0 base x0 x1 x2 x3 x4 x5) / 2 ^ 18 % 2 ^ 4 = x1.toNat ∧ (enc_23_22_21_18_17_16_15_14_13_7_6_0 base x0 x1 x2 x3 x4 x5) / 2 ^ 16 % 2 ^ 2 = x2.toNat ∧ (enc_23_22_21_18_17_16_15_14_13_7_6_0 base x0 x1 x2 x3 x4 x5) / 2 ^ 14 % 2 ^ 2 = x3.toNat ∧ (enc_23_22_21_18_17_16_15_14_13_7_6_0 base x0 x1 x2 x3 x4 x5) / 2 ^ 7 % 2 ^ 7 = x4.toNat ∧ (enc_23_22_21_18_17_16_15_14_13_7_6_0 base x0 x1 x2 x3 x4 x5) / 2 ^ 0 % 2 ^ 7 = x5.toNat := by
  generalize base / 2^24 = c6 at *
  have d0 : (enc_23_22_21_18_17_16_15_14_13_7_6_0 base x0 x1 x2 x3 x4 x5) / 2 ^ 0 = x5.toNat + 2 ^ 7 * (x4.toNat + 2 ^ 7 * (x3.toNat + 2 ^ 2 * (x2.toNat + 2 ^ 2 * (x1.toNat + 2 ^ 4 * (x0.toNat + 2 ^ 2 * (c6)))))) := by rw [Nat.pow_zero, Nat.div_one, enc_23_22_21_18_17_16_15_14_13_7_6_0]; omega
  obtain ⟨p0, d1⟩ := cutAt d0 x5.isLt rfl
  obtain ⟨p1, d2⟩ := cutAt d1 x4.isLt rfl
  obtain ⟨p2, d3⟩ := cutAt d2 x3.isLt rfl
  obtain ⟨p3, d4⟩ := cutAt d3 x2.isLt rfl
  obtain ⟨p4, d5⟩ := cutAt d4 x1.isLt rfl
  obtain ⟨p5, d6⟩ := cutAt d5 x0.isLt rfl
  exact ⟨lt_of_top d6 hc, d6, p5, p4, p3, p2, p1, p0⟩

theorem enc_fields_28 (base : Nat) (x0 : BitVec 2) (x1 : BitVec 2) (x2 : BitVec 7) (x3 : BitVec 7) (h : base = (base / 2^16 % 2^6) * 2^16 + (base / 2^24) * 2^24) (hc : base / 2^24 < 2^8) :
    enc_23_22_15_14_13_7_6_0 base x0 x1 x2 x3 < 2^32 ∧ (enc_23_22_15_14_13_7_6_0 base x0 x1 x2 x3) / 2^24 = base / 2^24 ∧ (enc_23_22_15_14_13_7_6_0 base x0 x1 x2 x3) / 2^16 % 2^6 = base / 2^16 % 2^6 ∧ (enc_23_22_15_14_13_7_6_0 base x0 x1 x2 x3) / 2 ^ 22 % 2 ^ 2 = x0.toNat ∧ (enc_23_22_15_14_13_7_6_0 base x0 x1 x2 x3) / 2 ^ 14 % 2 ^ 2 = x1.toNat ∧ (enc_23_22_15_14_13_7_6_0 base x0 x1 x2 x3) / 2 ^ 7 % 2 ^ 7 = x2.toNat ∧ (enc_23_22_15_14_13_7_6_0 base x0 x1 x2 x3) / 2 ^ 0 % 2 ^ 7 = x3.toNat := by
  have b3 := Nat.mod_lt (base / 2^16) (Nat.two_pow_pos 6)
  generalize base / 2^16 % 2^6 = c3 at *
  generalize base / 2^24 = c5 at *
  have d0 : (enc_23_22_15_14_13_7_6_0 base x0 x1 x2 x3) / 2 ^ 0 = x3.toNat + 2 ^ 7 * (x2.toNat + 2 ^ 7 * (x1.toNat + 2 ^ 2 * (c3 + 2 ^ 6 * (x0.toNat + 2 ^ 2 * (c5))))) := by rw [Nat.pow_zero, Nat.div_one, enc_23_22_15_14_13_7_6_0]; omega
  obtain ⟨p0, d1⟩ := cutAt d0 x3.isLt rfl
  obtain ⟨p1, d2⟩ := cutAt d1 x2.isLt rfl
  obtain ⟨p2, d3⟩ := cutAt d2 x1.isLt rfl
  obtain ⟨p3, d4⟩ := cutAt d3 b3 rfl
  obtain ⟨p4, d5⟩ := cutAt d4 x0.isLt rfl
  exact ⟨lt_of_top d5 hc, d5, p3, p4, p2, p1, p0⟩

theorem enc_fields_29 (base : Nat) (x0 : BitVec 2) (x1 : BitVec 1) (x2 : BitVec 10) (x3 : BitVec 7) (h : base = (base / 2^17 % 2^4) * 2^17 + (base / 2^24) * 2^24) (hc : base / 2^24 < 2^8) :
    enc_23_22_21_21_16_7_6_0 base x0 x1 x2 x3 < 2^32 ∧ (enc_23_22_21_21_16_7_6_0 base x0 x1 x2 x3) / 2^24 = base / 2^24 ∧ (enc_23_22_21_21_16_7_6_0 base x0 x1 x2 x3) / 2^17 % 2^4 = base / 2^17 % 2^4 ∧ (enc_23_22_21_21_16_7_6_0 base x0 x1 x2 x3) / 2 ^ 22 % 2 ^ 2 = x0.toNat ∧ (enc_23_22_21_21_16_7_6_0 base x0 x1 x2 x3) / 2 ^ 21 % 2 ^ 1 = x1.toNat ∧ (enc_23_22_21_21_16_7_6_0 base x0 x1 x2 x3) / 2 ^ 7 % 2 ^ 10 = x2.toNat ∧ (enc_23_22_21_21_16_7_6_0 base x0 x1 x2 x3) / 2 ^ 0 % 2 ^ 7 = x3.toNat := by
  have b2 := Nat.mod_lt (base / 2^17) (Nat.two_pow_pos 4)
  generalize base / 2^17 % 2^4 = c2 at *
  generalize base / 2^24 = c5 at *
  have d0 : (enc_23_22_21_21_16_7_6_0 base x0 x1 x2 x3) / 2 ^ 0 = x3.toNat + 2 ^ 7 * (x2.toNat + 2 ^ 10 * (c2 + 2 ^ 4 * (x1.toNat + 2 ^ 1 * (x0.toNat + 2 ^ 2 * (c5))))) := by rw [Nat.pow_zero, Nat.div_one, enc_23_22_21_21_16_7_6_0]; omega
  obtain ⟨p0, d1⟩ := cutAt d0 x3.isLt rfl
  obtain ⟨p1, d2⟩ := cutAt d1 x2.isLt rfl
  obtain ⟨p2, d3⟩ := cutAt d2 b2 rfl
  obtain ⟨p3, d4⟩ := cutAt d3 x1.isLt rfl
  obtain ⟨p4, d5⟩ := cutAt d4 x0.isLt rfl
  exact ⟨lt_of_top d5 hc, d5, p2, p4, p3, p1, p0⟩

theorem enc_fields_30 (base : Nat) (x0 : BitVec 2) (x1 : BitVec 1) (x2 : BitVec 4) (x3 : BitVec 10) (x4 : BitVec 7) (h : base = (base / 2^24) * 2^24) (hc : base / 2^24 < 2^8) :
    enc_23_22_21_21_20_17_16_7_6_0 base x0 x1 x2 x3 x4 < 2^32 ∧ (enc_23_22_21_21_20_17_16_7_6_0 base x0 x1 x2 x3 x4) / 2^24 = base / 2^24 ∧ (enc_23_22_21_21_20_17_16_7_6_0 base x0 x1 x2 x3 x4) / 2 ^ 22 % 2 ^ 2 = x0.toNat ∧ (enc_23_22_21_21_20_17_16_7_6_0 base x0 x1 x2 x3 x4) / 2 ^ 21 % 2 ^ 1 = x1.toNat ∧ (enc_23_22_21_21_20_17_16_7_6_0 base x0 x1 x2 x3 x4) / 2 ^ 17 % 2 ^ 4 = x2.toNat ∧ (enc_23_22_21_21_20_17_16_7_6_0 base x0 x1 x2 x3 x4) / 2 ^ 7 % 2 ^ 10 = x3.toNat ∧ (enc_23_22_21_21_20_17_16_7_6_0 base x0 x1 x2 x3 x4) / 2 ^ 0 % 2 ^ 7 = x4.toNat := by
  generalize base / 2^24 = c5 at *
  have d0 : (enc_23_22_21_21_20_17_16_7_6_0 base x0 x1 x2 x3 x4) / 2 ^ 0 = x4.toNat + 2 ^ 7 * (x3.toNat + 2 ^ 10 * (x2.toNat + 2 ^ 4 * (x1.toNat + 2 ^ 1 * (x0.toNat + 2 ^ 2 * (c5))))) := by rw [Nat.pow_zero, Nat.div_one, enc_23_22_21_21_20_17_16_7_6_0]; omega
  obtain ⟨p0, d1⟩ := cutAt d0 x4.isLt rfl
  obtain ⟨p1, d2⟩ := cutAt d1 x3.isLt rfl
  obtain ⟨p2, d3⟩ := cutAt d2 x2.isLt rfl
  obtain ⟨p3, d4⟩ := cutAt d3 x1.isLt rfl
  obtain ⟨p4, d5⟩ := cutAt d4 x0.isLt rfl
  exact ⟨lt_of_top d5 hc, d5, p4, p3, p2, p1, p0⟩

theorem enc_fields_31 (base : Nat) (x0 : BitVec 2) (x1 : BitVec 1) (x2 : BitVec 4) (x3 : BitVec 4) (x4 : BitVec 1) (x5 : BitVec 7) (h : base = (base / 2^7 % 2^5) * 2^7 + (base / 2^24) * 2^24) (hc : base / 2^24 < 2^8) :
    enc_23_22_21_21_20_17_16_13_12_12_6_0 base x0 x1 x2 x3 x4 x5 < 2^32 ∧ (enc_23_22_21_21_20_17_16_13_12_12_6_0 base x0 x1 x2 x3 x4 x5) / 2^24 = base / 2^24 ∧ (enc_23_22_21_21_20_17_16_13_12_12_6_0 base x0 x1 x2 x3 x4 x5) / 2^7 % 2^5 = base / 2^7 % 2^5 ∧ (enc_23_22_21_21_20_17_16_13_12_12_6_0 base x0 x1 x2 x3 x4 x5) / 2 ^ 22 % 2 ^ 2 = x0.toNat ∧ (enc_23_22_21_21_20_17_16_13_12_12_6_0 base x0 x1 x2 x3 x4 x5) / 2 ^ 21 % 2 ^ 1 = x1.toNat ∧ (enc_23_22_21_21_20_17_16_13_12_12_6_0 base x0 x1 x2 x3 x4 x5) / 2 ^ 17 % 2 ^ 4 = x2.toNat ∧ (enc_23_22_21_21_20_17_16_13_12_12_6_0 base x0 x1 x2 x3 x4 x5) / 2 ^ 13 % 2 ^ 4 = x3.toNat ∧ (enc_23_22_21_21_20_17_16_13_12_12_6_0 base x0 x1 x2 x3 x4 x5) / 2 ^ 12 % 2 ^ 1 = x4.toNat ∧ (enc_23_22_21_21_20_17_16_13_12_12_6_0 base x0 x1 x2 x3 x4 x5) / 2 ^ 0 % 2 ^ 7 = x5.toNat := by
  have b1 := Nat.mod_lt (base / 2^7) (Nat.two_pow_pos 5)
  generalize base / 2^7 % 2^5 = c1 at *
  generalize base / 2^24 = c7 at *
  have d0 : (enc_23_22_21_21_20_17_16_13_12_12_6_0 base x0 x1 x2 x3 x4 x5) / 2 ^ 0 = x5.toNat + 2 ^ 7 * (c1 + 2 ^ 5 * (x4.toNat + 2 ^ 1 * (x3.toNat + 2 ^ 4 * (x2.toNat + 2 ^ 4 * (x1.toNat + 2 ^ 1 * (x0.toNat + 2 ^ 2 * (c7))))))) := by rw [Nat.pow_zero, Nat.div_one, enc_23_22_21_21_20_17_16_13_12_12_6_0]; omega
  obtain ⟨p0, d1⟩ := cutAt d0 x5.isLt rfl
  obtain ⟨p1, d2⟩ := cutAt d1 b1 rfl
  obtain ⟨p2, d3⟩ := cutAt d2 x4.isLt rfl
  obtain ⟨p3, d4⟩ := cutAt d3 x3.isLt rfl
  obtain ⟨p4, d5⟩ := cutAt d4 x2.isLt rfl
  obtain ⟨p5, d6⟩ := cutAt d5 x1.isLt rfl
  obtain ⟨p6, d7⟩ := cutAt d6 x0.isLt rfl
  exact ⟨lt_of_top d7 hc, d7, p1, p6, p5, p4, p3, p2, p0⟩

theorem enc_fields_32 (base : Nat) (x0 : BitVec 4) (x1 : BitVec 1) (x2 : BitVec 7) (h : base = (base / 2^7 % 2^5) * 2^7 + (base / 2^13 % 2^4) * 2^13 + (base / 2^21 % 2^3) * 2^21 + (base / 2^24) * 2^24) (hc : base / 2^24 < 2^8) :
    enc_20_17_12_12_6_0 base x0 x1 x2 < 2^32 ∧ (enc_20_17_12_12_6_0 base x0 x1 x2) / 2^24 = base / 2^24 ∧ (enc_20_17_12_12_6_0 base x0 x1 x2) / 2^7 % 2^5 = base / 2^7 % 2^5 ∧ (enc_20_17_12_12_6_0 base x0 x1 x2) / 2^13 % 2^4 = base / 2^13 % 2^4 ∧ (enc_20_17_12_12_6_0 base x0 x1 x2) / 2^21 % 2^3 = base / 2^21 % 2^3 ∧ (enc_20_17_12_12_6_0 base x0 x1 x2) / 2 ^ 17 % 2 ^ 4 = x0.toNat ∧ (enc_20_17_12_12_6_0 base x0 x1 x2) / 2 ^ 12 % 2 ^ 1 = x1.toNat ∧ (enc_20_17_12_12_6_0 base x0 x1 x2) / 2 ^ 0 % 2 ^ 7 = x2.toNat := by
  have b1 := Nat.mod_lt (base / 2^7) (Nat.two_pow_pos 5)
  have b3 := Nat.mod_lt (base / 2^13) (Nat.two_pow_pos 4)
  have b5 := Nat.mod_lt (base / 2^21) (Nat.two_pow_pos 3)
  generalize base / 2^7 % 2^5 = c1 at *
  generalize base / 2^13 % 2^4 = c3 at *
  generalize base / 2^21 % 2^3 = c5 at *
  generalize base / 2^24 = c6 at *
  have d0 : (enc_20_17_12_12_6_0 base x0 x1 x2) / 2 ^ 0 = x2.toNat + 2 ^ 7 * (c1 + 2 ^ 5 * (x1.toNat + 2 ^ 1 * (c3 + 2 ^ 4 * (x0.toNat + 2 ^ 4 * (c5 + 2 ^ 3 * (c6)))))) := by rw [Nat.pow_zero, Nat.div_one, enc_20_17_12_12_6_0]; omega
  obtain ⟨p0, d1⟩ := cutAt d0 x2.isLt rfl
  obtain ⟨p1, d2⟩ := cutAt d1 b1 rfl
  obtain ⟨p2, d3⟩ := cutAt d2 x1.isLt rfl
  obtain ⟨p3, d4⟩ := cutAt d3 b3 rfl
  obtain ⟨p4, d5⟩ := cutAt d4 x0.isLt rfl
  obtain ⟨p5, d6⟩ := cutAt d5 b5 rfl
  exact ⟨lt_of_top d6 hc, d6, p1, p3, p5, p4, p2, p0⟩

theorem enc_fields_33 (base : Nat) (x0 : BitVec 2) (x1 : BitVec 3) (x2 : BitVec 7) (h : base = (base / 2^10 % 2^12) * 2^10 + (base / 2^24) * 2^24) (hc : base / 2^24 < 2^8) :
    enc_23_22_9_7_6_0 base x0 x1 x2 < 2^32 ∧ (enc_23_22_9_7_6_0 base x0 x1 x2) / 2^24 = base / 2^24 ∧ (enc_23_22_9_7_6_0 base x0 x1 x2) / 2^10 % 2^12 = base / 2^10 % 2^12 ∧ (enc_23_22_9_7_6_0 base x0 x1 x2) / 2 ^ 22 % 2 ^ 2 = x0.toNat ∧ (enc_23_22_9_7_6_0 base x0 x1 x2) / 2 ^ 7 % 2 ^ 3 = x1.toNat ∧ (enc_23_22_9_7_6_0 base x0 x1 x2) / 2 ^ 0 % 2 ^ 7 = x2.toNat := by
  have b2 := Nat.mod_lt (base / 2^10) (Nat.two_pow_pos 12)
  generalize base / 2^10 % 2^12 = c2 at *
  generalize base / 2^24 = c4 at *
  have d0 : (enc_23_22_9_7_6_0 base x0 x1 x2) / 2 ^ 0 = x2.toNat + 2 ^ 7 * (x1.toNat + 2 ^ 3 * (c2 + 2 ^ 12 * (x0.toNat + 2 ^ 2 * (c4)))) := by rw [Nat.pow_zero, Nat.div_one, enc_23_22_9_7_6_0]; omega
  obtain ⟨p0, d1⟩ := cutAt d0 x2.isLt rfl
  obtain ⟨p1, d2⟩ := cutAt d1 x1.isLt rfl
  obtain ⟨p2, d3⟩ := cutAt d2 b2 rfl
  obtain ⟨p3, d4⟩ := cutAt d3 x0.isLt rfl
  exact ⟨lt_of_top d4 hc, d4, p2, p3, p1, p0⟩

theorem enc_fields_34 (base : Nat) (x0 : BitVec 2) (x1 : BitVec 1) (x2 : BitVec 4) (x3 : BitVec 3) (x4 : BitVec 1) (x5 : BitVec 3) (x6 : BitVec 7) (h : base = (base / 2^14 % 2^3) * 2^14 + (base / 2^24) * 2^24) (hc : base / 2^24 < 2^8) :
    enc_23_22_21_21_20_17_13_11_10_10_9_7_6_0 base x0 x1 x2 x3 x4 x5 x6 < 2^32 ∧ (enc_23_22_21_21_20_17_13_11_10_10_9_7_6_0 base x0 x1 x2 x3 x4 x5 x6) / 2^24 = base / 2^24 ∧ (enc_23_22_21_21_20_17_13_11_10_10_9_7_6_0 base x0 x1 x2 x3 x4 x5 x6) / 2^14 % 2^3 = base / 2^14 % 2^3 ∧ (enc_23_22_21_21_20_17_13_11_10_10_9_7_6_0 base x0 x1 x2 x3 x4 x5 x6) / 2 ^ 22 % 2 ^ 2 = x0.toNat ∧ (enc_23_22_21_21_20_17_13_11_10_10_9_7_6_0 base x0 x1 x2 x3 x4 x5 x6) / 2 ^ 21 % 2 ^ 1 = x1.toNat ∧ (enc_23_22_21_21_20_17_13_11_10_10_9_7_6_0 base x0 x1 x2 x3 x4 x5 x6) / 2 ^ 17 % 2 ^ 4 = x2.toNat ∧ (enc_23_22_21_21_20_17_13_11_10_10_9_7_6_0 base x0 x1 x2 x3 x4 x5 x6) / 2 ^ 11 % 2 ^ 3 = x3.toNat ∧ (enc_23_22_21_21_20_17_13_11_10_10_9_7_6_0 base x0 x1 x2 x3 x4 x5 x6) / 2 ^ 10 % 2 ^ 1 = x4.toNat ∧ (enc_23_22_21_21_20_17_13_11_10_10_9_7_6_0 base x0 x1 x2 x3 x4 x5 x6) / 2 ^ 7 % 2 ^ 3 = x5.toNat ∧ (enc_23_22_21_21_20_17_13_11_10_10_9_7_6_0 base x0 x1 x2 x3 x4 x5 x6) / 2 ^ 0 % 2 ^ 7 = x6.toNat := by
  have b4 := Nat.mod_lt (base / 2^14) (Nat.two_pow_pos 3)
  generalize base / 2^14 % 2^3 = c4 at *
  generalize base / 2^24 = c8 at *
  have d0 : (enc_23_22_21_21_20_17_13_11_10_10_9_7_6_0 base x0 x1 x2 x3 x4 x5 x6) / 2 ^ 0 = x6.toNat + 2 ^ 7 * (x5.toNat + 2 ^ 3 * (x4.toNat + 2 ^ 1 * (x3.toNat + 2 ^ 3 * (c4 + 2 ^ 3 * (x2.toNat + 2 ^ 4 * (x1.toNat + 2 ^ 1 * (x0.toNat + 2 ^ 2 * (c8)))))))) := by rw [Nat.pow_zero, Nat.div_one, enc_23_22_21_21_20_17_13_11_10_10_9_7_6_0]; omega
  obtain ⟨p0, d1⟩ := cutAt d0 x6.isLt rfl
  obtain ⟨p1, d2⟩ := cutAt d1 x5.isLt rfl
  obtain ⟨p2, d3⟩ := cutAt d2 x4.isLt rfl
  obtain ⟨p3, d4⟩ := cutAt d3 x3.isLt rfl
  obtain ⟨p4, d5⟩ := cutAt d4 b4 rfl
  obtain ⟨p5, d6⟩ := cutAt d5 x2.isLt rfl
  obtain ⟨p6, d7⟩ := cutAt d6 x1.isLt rfl
  obtain ⟨p7, d8⟩ := cutAt d7 x0.isLt rfl
  exact ⟨lt_of_top d8 hc, d8, p4, p7, p6, p5, p3, p2, p1, p0⟩

theorem enc_fields_35 (base : Nat) (x0 : BitVec 2) (x1 : BitVec 1) (x2 : BitVec 4) (x3 : BitVec 2) (x4 : BitVec 3) (x5 : BitVec 7) (h : base = (base / 2^12 % 2^5) * 2^12 + (base / 2^24) * 2^24) (hc : base / 2^24 < 2^8) :
    enc_23_22_21_21_20_17_11_10_9_7_6_0 base x0 x1 x2 x3 x4 x5 < 2^32 ∧ (enc_23_22_21_21_20_17_11_10_9_7_6_0 base x0 x1 x2 x3 x4 x5) / 2^24 = base / 2^24 ∧ (enc_23_22_21_21_20_17_11_10_9_7_6_0 base x0 x1 x2 x3 x4 x5) / 2^12 % 2^5 = base / 2^12 % 2^5 ∧ (enc_23_22_21_21_20_17_11_10_9_7_6_0 base x0 x1 x2 x3 x4 x5) / 2 ^ 22 % 2 ^ 2 = x0.toNat ∧ (enc_23_22_21_21_20_17_11_10_9_7_6_0 base x0 x1 x2 x3 x4 x5) / 2 ^ 21 % 2 ^ 1 = x1.toNat ∧ (enc_23_22_21_21_20_17_11_10_9_7_6_0 base x0 x1 x2 x3 x4 x5) / 2 ^ 17 % 2 ^ 4 = x2.toNat ∧ (enc_23_22_21_21_20_17_11_10_9_7_6_0 base x0 x1 x2 x3 x4 x5) / 2 ^ 10 % 2 ^ 2 = x3.toNat ∧ (enc_23_22_21_21_20_17_11_10_9_7_6_0 base x0 x1 x2 x3 x4 x5) / 2 ^ 7 % 2 ^ 3 = x4.toNat ∧ (enc_23_22_21_21_20_17_11_10_9_7_6_0 base x0 x1 x2 x3 x4 x5) / 2 ^ 0 % 2 ^ 7 = x5.toNat := by
  have b3 := Nat.mod_lt (base / 2^12) (Nat.two_pow_pos 5)
  generalize base / 2^12 % 2^5 = c3 at *
  generalize base / 2^24 = c7 at *
  have d0 : (enc_23_22_21_21_20_17_11_10_9_7_6_0 base x0 x1 x2 x3 x4 x5) / 2 ^ 0 = x5.toNat + 2 ^ 7 * (x4.toNat + 2 ^ 3 * (x3.toNat + 2 ^ 2 * (c3 + 2 ^ 5 * (x2.toNat + 2 ^ 4 * (x1.toNat + 2 ^ 1 * (x0.toNat + 2 ^ 2 * (c7))))))) := by rw [Nat.pow_zero, Nat.div_one, enc_23_22_21_21_20_17_11_10_9_7_6_0]; omega
  obtain ⟨p0, d1⟩ := cutAt d0 x5.isLt rfl
  obtain ⟨p1, d2⟩ := cutAt d1 x4.isLt rfl
  obtain ⟨p2, d3⟩ := cutAt d2 x3.isLt rfl
  obtain ⟨p3, d4⟩ := cutAt d3 b3 rfl
  obtain ⟨p4, d5⟩ := cutAt d4 x2.isLt rfl
  obtain ⟨p5, d6⟩ := cutAt d5 x1.isLt rfl
  obtain ⟨p6, d7⟩ := cutAt d6 x0.isLt rfl
  exact ⟨lt_of_top d7 hc, d7, p3, p6, p5, p4, p2, p1, p0⟩

theorem enc_fields_36 (base : Nat) (x0 : BitVec 2) (x1 : BitVec 1) (x2 : BitVec 4) (x3 : BitVec 3) (x4 : BitVec 7) (h : base = (base / 2^10 % 2^7) * 2^10 + (base / 2^24) * 2^24) (hc : base / 2^24 < 2^8) :
    enc_23_22_21_21_20_17_9_7_6_0 base x0 x1 x2 x3 x4 < 2^32 ∧ (enc_23_22_21_21_20_17_9_7_6_0 base x0 x1 x2 x3 x4) / 2^24 = base / 2^24 ∧ (enc_23_22_21_21_20_17_9_7_6_0 base x0 x1 x2 x3 x4) / 2^10 % 2^7 = base / 2^10 % 2^7 ∧ (enc_23_22_21_21_20_17_9_7_6_0 base x0 x1 x2 x3 x4) / 2 ^ 22 % 2 ^ 2 = x0.toNat ∧ (enc_23_22_21_21_20_17_9_7_6_0 base x0 x1 x2 x3 x4) / 2 ^ 21 % 2 ^ 1 = x1.toNat ∧ (enc_23_22_21_21_20_17_9_7_6_0 base x0 x1 x2 x3 x4) / 2 ^ 17 % 2 ^ 4 = x2.toNat ∧ (enc_23_22_21_21_20_17_9_7_6_0 base x0 x1 x2 x3 x4) / 2 ^ 7 % 2 ^ 3 = x3.toNat ∧ (enc_23_22_21_21_20_17_9_7_6_0 base x0 x1 x2 x3 x4) / 2 ^ 0 % 2 ^ 7 = x4.toNat := by
  have b2 := Nat.mod_lt (base / 2^10) (Nat.two_pow_pos 7)
  generalize base / 2^10 % 2^7 = c2 at *
  generalize base / 2^24 = c6 at *
  have d0 : (enc_23_22_21_21_20_17_9_7_6_0 base x0 x1 x2 x3 x4) / 2 ^ 0 = x4.toNat + 2 ^ 7 * (x3.toNat + 2 ^ 3 * (c2 + 2 ^ 7 * (x2.toNat + 2 ^ 4 * (x1.toNat + 2 ^ 1 * (x0.toNat + 2 ^ 2 * (c6)))))) := by rw [Nat.pow_zero, Nat.div_one, enc_23_22_21_21_20_17_9_7_6_0]; omega
  obtain ⟨p0, d1⟩ := cutAt d0 x4.isLt rfl
  obtain ⟨p1, d2⟩ := cutAt d1 x3.isLt rfl
  obtain ⟨p2, d3⟩ := cutAt d2 b2 rfl
  obtain ⟨p3, d4⟩ := cutAt d3 x2.isLt rfl
  obtain ⟨p4, d5⟩ := cutAt d4 x1.isLt rfl
  obtain ⟨p5, d6⟩ := cutAt d5 x0.isLt rfl
  exact ⟨lt_of_top d6 hc, d6, p2, p5, p4, p3, p1, p0⟩

theorem enc_fields_37 (base : Nat) (x0 : BitVec 2) (x1 : BitVec 7) (h : base = (base / 2^7 % 2^15) * 2^7 + (base / 2^24) * 2^24) (hc : base / 2^24 < 2^8) :
    enc_23_22_6_0 base x0 x1 < 2^32 ∧ (enc_23_22_6_0 base x0 x1) / 2^24 = base / 2^24 ∧ (enc_23_22_6_0 base x0 x1) / 2^7 % 2^15 = base / 2^7 % 2^15 ∧ (enc_23_22_6_0 base x0 x1) / 2 ^ 22 % 2 ^ 2 = x0.toNat ∧ (enc_23_22_6_0 base x0 x1) / 2 ^ 0 % 2 ^ 7 = x1.toNat := by
  have b1 := Nat.mod_lt (base / 2^7) (Nat.two_pow_pos 15)
  generalize base / 2^7 % 2^15 = c1 at *
  generalize base / 2^24 = c3 at *
  have d0 : (enc_23_22_6_0 base x0 x1) / 2 ^ 0 = x1.toNat + 2 ^ 7 * (c1 + 2 ^ 15 * (x0.toNat + 2 ^ 2 * (c3))) := by rw [Nat.pow_zero, Nat.div_one, enc_23_22_6_0]; omega
  obtain ⟨p0, d1⟩ := cutAt d0 x1.isLt rfl
  obtain ⟨p1, d2⟩ := cutAt d1 b1 rfl
  obtain ⟨p2, d3⟩ := cutAt d2 x0.isLt rfl
  exact ⟨lt_of_top d3 hc, d3, p1, p2, p0⟩

theorem enc_fields_38 (base : Nat) (x0 : BitVec 2) (x1 : BitVec 6) (h : base = (base % 2^7) + (base / 2^13 % 2^9) * 2^13 + (base / 2^24) * 2^24) (hc : base / 2^24 < 2^8) :
    enc_23_22_12_7 base x0 x1 < 2^32 ∧ (enc_23_22_12_7 base x0 x1) / 2^24 = base / 2^24 ∧ (enc_23_22_12_7 base x0 x1) / 2^13 % 2^9 = base / 2^13 % 2^9 ∧ (enc_23_22_12_7 base x0 x1) % 2^7 = base % 2^7 ∧ (enc_23_22_12_7 base x0 x1) / 2 ^ 22 % 2 ^ 2 = x0.toNat ∧ (enc_23_22_12_7 base x0 x1) / 2 ^ 7 % 2 ^ 6 = x1.toNat := by
  have b0 := Nat.mod_lt (base) (Nat.two_pow_pos 7)
  have b2 := Nat.mod_lt (base / 2^13) (Nat.two_pow_pos 9)
  generalize base % 2^7 = c0 at *
  generalize base / 2^13 % 2^9 = c2 at *
  generalize base / 2^24 = c4 at *
  have d0 : (enc_23_22_12_7 base x0 x1) / 2 ^ 0 = c0 + 2 ^ 7 * (x1.toNat + 2 ^ 6 * (c2 + 2 ^ 9 * (x0.toNat + 2 ^ 2 * (c4)))) := by rw [Nat.pow_zero, Nat.div_one, enc_23_22_12_7]; omega
  obtain ⟨p0, d1⟩ := cutAt d0 b0 rfl
  obtain ⟨p1, d2⟩ := cutAt d1 x1.isLt rfl
  obtain ⟨p2, d3⟩ := cutAt d2 b2 rfl
  obtain ⟨p3, d4⟩ := cutAt d3 x0.isLt rfl
  exact ⟨lt_of_top d4 hc, d4, p2, low_piece p0, p3, p1⟩

theorem enc_fields_39 (base : Nat) (x0 : BitVec 2) (x1 : BitVec 6) (x2 : BitVec 7) (x3 : BitVec 7) (h : base = (base / 2^20 % 2^2) * 2^20 + (base / 2^24) * 2^24) (hc : base / 2^24 < 2^8) :
    enc_23_22_19_14_13_7_6_0 base x0 x1 x2 x3 < 2^32 ∧ (enc_23_22_19_14_13_7_6_0 base x0 x1 x2 x3) / 2^24 = base / 2^24 ∧ (enc_23_22_19_14_13_7_6_0 base x0 x1 x2 x3) / 2^20 % 2^2 = base / 2^20 % 2^2 ∧ (enc_23_22_19_14_13_7_6_0 base x0 x1 x2 x3) / 2 ^ 22 % 2 ^ 2 = x0.toNat ∧ (enc_23_22_19_14_13_7_6_0 base x0 x1 x2 x3) / 2 ^ 14 % 2 ^ 6 = x1.toNat ∧ (enc_23_22_19_14_13_7_6_0 base x0 x1 x2 x3) / 2 ^ 7 % 2 ^ 7 = x2.toNat ∧ (enc_23_22_19_14_13_7_6_0 base x0 x1 x2 x3) / 2 ^ 0 % 2 ^ 7 = x3.toNat := by
  have b3 := Nat.mod_lt (base / 2^20) (Nat.two_pow_pos 2)
  generalize base / 2^20 % 2^2 = c3 at *
  generalize base / 2^24 = c5 at *
  have d0 : (enc_23_22_19_14_13_7_6_0 base x0 x1 x2 x3) / 2 ^ 0 = x3.toNat + 2 ^ 7 * (x2.toNat + 2 ^ 7 * (x1.toNat + 2 ^ 6 * (c3 + 2 ^ 2 * (x0.toNat + 2 ^ 2 * (c5))))) := by rw [Nat.pow_zero, Nat.div_one, enc_23_22_19_14_13_7_6_0]; omega
  obtain ⟨p0, d1⟩ := cutAt d0 x3.isLt rfl
  obtain ⟨p1, d2⟩ := cutAt d1 x2.isLt rfl
  obtain ⟨p2, d3⟩ := cutAt d2 x1.isLt rfl
  obtain ⟨p3, d4⟩ := cutAt d3 b3 rfl
  obtain ⟨p4, d5⟩ := cutAt d4 x0.isLt rfl
  exact ⟨lt_of_top d5 hc, d5, p3, p4, p2, p1, p0⟩

theorem enc_fields_40 (base : Nat) (x0 : BitVec 2) (x1 : BitVec 11) (h : base = (base % 2^7) + (base / 2^18 % 2^4) * 2^18 + (base / 2^24) * 2^24) (hc : base / 2^24 < 2^8) :
    enc_23_22_17_7 base x0 x1 < 2^32 ∧ (enc_23_22_17_7 base x0 x1) / 2^24 = base / 2^24 ∧ (enc_23_22_17_7 base x0 x1) / 2^18 % 2^4 = base / 2^18 % 2^4 ∧ (enc_23_22_17_7 base x0 x1) % 2^7 = base % 2^7 ∧ (enc_23_22_17_7 base x0 x1) / 2 ^ 22 % 2 ^ 2 = x0.toNat ∧ (enc_23_22_17_7 base x0 x1) / 2 ^ 7 % 2 ^ 11 = x1.toNat := by
  have b0 := Nat.mod_lt (base) (Nat.two_pow_pos 7)
  have b2 := Nat.mod_lt (base / 2^18) (Nat.two_pow_pos 4)
  generalize base % 2^7 = c0 at *
  generalize base / 2^18 % 2^4 = c2 at *
  generalize base / 2^24 = c4 at *
  have d0 : (enc_23_22_17_7 base x0 x1) / 2 ^ 0 = c0 + 2 ^ 7 * (x1.toNat + 2 ^ 11 * (c2 + 2 ^ 4 * (x0.toNat + 2 ^ 2 * (c4)))) := by rw [Nat.pow_zero, Nat.div_one, enc_23_22_17_7]; omega
  obtain ⟨p0, d1⟩ := cutAt d0 b0 rfl
  obtain ⟨p1, d2⟩ := cutAt d1 x1.isLt rfl
  obtain ⟨p2, d3⟩ := cutAt d2 b2 rfl
  obtain ⟨p3, d4⟩ := cutAt d3 x0.isLt rfl
  exact ⟨lt_of_top d4 hc, d4, p2, low_piece p0, p3, p1⟩

theorem enc_fields_41 (base : Nat) (x0 : BitVec 2) (x1 : BitVec 1) (x2 : BitVec 2) (x3 : BitVec 7) (x4 : BitVec 7) (h : base = (base / 2^17 % 2^5) * 2^17 + (base / 2^24) * 2^24) (hc : base / 2^24 < 2^8) :
    enc_23_22_16_16_15_14_13_7_6_0 base x0 x1 x2 x3 x4 < 2^32 ∧ (enc_23_22_16_16_15_14_13_7_6_0 base x0 x1 x2 x3 x4) / 2^24 = base / 2^24 ∧ (enc_23_22_16_16_15_14_13_7_6_0 base x0 x1 x2 x3 x4) / 2^17 % 2^5 = base / 2^17 % 2^5 ∧ (enc_23_22_16_16_15_14_13_7_6_0 base x0 x1 x2 x3 x4) / 2 ^ 22 % 2 ^ 2 = x0.toNat ∧ (enc_23_22_16_16_15_14_13_7_6_0 base x0 x1 x2 x3 x4) / 2 ^ 16 % 2 ^ 1 = x1.toNat ∧ (enc_23_22_16_16_15_14_13_7_6_0 base x0 x1 x2 x3 x4) / 2 ^ 14 % 2 ^ 2 = x2.toNat ∧ (enc_23_22_16_16_15_14_13_7_6_0 base x0 x1 x2 x3 x4) / 2 ^ 7 % 2 ^ 7 = x3.toNat ∧ (enc_23_22_16_16_15_14_13_7_6_0 base x0 x1 x2 x3 x4) / 2 ^ 0 % 2 ^ 7 = x4.toNat := by
  have b4 := Nat.mod_lt (base / 2^17) (Nat.two_pow_pos 5)
  generalize base / 2^17 % 2^5 = c4 at *
  generalize base / 2^24 = c6 at *
  have d0 : (enc_23_22_16_16_15_14_13_7_6_0 base x0 x1 x2 x3 x4) / 2 ^ 0 = x4.toNat + 2 ^ 7 * (x3.toNat + 2 ^ 7 * (x2.toNat + 2 ^ 2 * (x1.toNat + 2 ^ 1 * (c4 + 2 ^ 5 * (x0.toNat + 2 ^ 2 * (c6)))))) := by rw [Nat.pow_zero, Nat.div_one, enc_23_22_16_16_15_14_13_7_6_0]; omega
  obtain ⟨p0, d1⟩ := cutAt d0 x4.isLt rfl
  obtain ⟨p1, d2⟩ := cutAt d1 x3.isLt rfl
  obtain ⟨p2, d3⟩ := cutAt d2 x2.isLt rfl
  obtain ⟨p3, d4⟩ := cutAt d3 x1.isLt rfl
  obtain ⟨p4, d5⟩ := cutAt d4 b4 rfl
  obtain ⟨p5, d6⟩ := cutAt d5 x0.isLt rfl
  exact ⟨lt_of_top d6 hc, d6, p4, p5, p3, p2, p1, p0⟩

theorem enc_fields_42 (base : Nat) (x0 : BitVec 2) (x1 : BitVec 4) (x2 : BitVec 4) (x3 : BitVec 7) (x4 : BitVec 7) (h : base = (base / 2^24) * 2^24) (hc : base / 2^24 < 2^8) :
    enc_23_22_21_18_17_14_13_7_6_0 base x0 x1 x2 x3 x4 < 2^32 ∧ (enc_23_22_21_18_17_14_13_7_6_0 base x0 x1 x2 x3 x4) / 2^24 = base / 2^24 ∧ (enc_23_22_21_18_17_14_13_7_6_0 base x0 x1 x2 x3 x4) / 2 ^ 22 % 2 ^ 2 = x0.toNat ∧ (enc_23_22_21_18_17_14_13_7_6_0 base x0 x1 x2 x3 x4) / 2 ^ 18 % 2 ^ 4 = x1.toNat ∧ (enc_23_22_21_18_17_14_13_7_6_0 base x0 x1 x2 x3 x4) / 2 ^ 14 % 2 ^ 4 = x2.toNat ∧ (enc_23_22_21_18_17_14_13_7_6_0 base x0 x1 x2 x3 x4) / 2 ^ 7 % 2 ^ 7 = x3.toNat ∧ (enc_23_22_21_18_17_14_13_7_6_0 base x0 x1 x2 x3 x4) / 2 ^ 0 % 2 ^ 7 = x4.toNat := by
  generalize base / 2^24 = c5 at *
  have d0 : (enc_23_22_21_18_17_14_13_7_6_0 base x0 x1 x2 x3 x4) / 2 ^ 0 = x4.toNat + 2 ^ 7 * (x3.toNat + 2 ^ 7 * (x2.toNat + 2 ^ 4 * (x1.toNat + 2 ^ 4 * (x0.toNat + 2 ^ 2 * (c5))))) := by rw [Nat.pow_zero, Nat.div_one, enc_23_22_21_18_17_14_13_7_6_0]; omega
  obtain ⟨p0, d1⟩ := cutAt d0 x4.isLt rfl
  obtain ⟨p1, d2⟩ := cutAt d1 x3.isLt rfl
  obtain ⟨p2, d3⟩ := cutAt d2 x2.isLt rfl
  obtain ⟨p3, d4⟩ := cutAt d3 x1.isLt rfl
  obtain ⟨p4, d5⟩ := cutAt d4 x0.isLt rfl
  exact ⟨lt_of_top d5 hc, d5, p4, p3, p2, p1, p0⟩

theorem enc_fields_43 (base : Nat) (x0 : BitVec 2) (x1 : BitVec 2) (x2 : BitVec 7) (x3 : BitVec 7) (h : base = (base / 2^16 % 2^2) * 2^16 + (base / 2^18 % 2^4) * 2^18 + (base / 2^24) * 2^24) (hc : base / 2^24 < 2^8) :
    enc_23_22_15_14_13_7_6_0 base x0 x1 x2 x3 < 2^32 ∧ (enc_23_22_15_14_13_7_6_0 base x0 x1 x2 x3) / 2^24 = base / 2^24 ∧ (enc_23_22_15_14_13_7_6_0 base x0 x1 x2 x3) / 2^18 % 2^4 = base / 2^18 % 2^4 ∧ (enc_23_22_15_14_13_7_6_0 base x0 x1 x2 x3) / 2^16 % 2^2 = base / 2^16 % 2^2 ∧ (enc_23_22_15_14_13_7_6_0 base x0 x1 x2 x3) / 2 ^ 22 % 2 ^ 2 = x0.toNat ∧ (enc_23_22_15_14_13_7_6_0 base x0 x1 x2 x3) / 2 ^ 14 % 2 ^ 2 = x1.toNat ∧ (enc_23_22_15_14_13_7_6_0 base x0 x1 x2 x3) / 2 ^ 7 % 2 ^ 7 = x2.toNat ∧ (enc_23_22_15_14_13_7_6_0 base x0 x1 x2 x3) / 2 ^ 0 % 2 ^ 7 = x3.toNat := by
  have b3 := Nat.mod_lt (base / 2^16) (Nat.two_pow_pos 2)
  have b4 := Nat.mod_lt (base / 2^18) (Nat.two_pow_pos 4)
  generalize base / 2^16 % 2^2 = c3 at *
  generalize base / 2^18 % 2^4 = c4 at *
  generalize base / 2^24 = c6 at *
  have d0 : (enc_23_22_15_14_13_7_6_0 base x0 x1 x2 x3) / 2 ^ 0 = x3.toNat + 2 ^ 7 * (x2.toNat + 2 ^ 7 * (x1.toNat + 2 ^ 2 * (c3 + 2 ^ 2 * (c4 + 2 ^ 4 * (x0.toNat + 2 ^ 2 * (c6)))))) := by rw [Nat.pow_zero, Nat.div_one, enc_23_22_15_14_13_7_6_0]; omega
  obtain ⟨p0, d1⟩ := cutAt d0 x3.isLt rfl
  obtain ⟨p1, d2⟩ := cutAt d1 x2.isLt rfl
  obtain ⟨p2, d3⟩ := cutAt d2 x1.isLt rfl
  obtain ⟨p3, d4⟩ := cutAt d3 b3 rfl
  obtain ⟨p4, d5⟩ := cutAt d4 b4 rfl
  obtain ⟨p5, d6⟩ := cutAt d5 x0.isLt rfl
  exact ⟨lt_of_top d6 hc, d6, p4, p3, p5, p2, p1, p0⟩

theorem enc_fields_44 (base : Nat) (x0 : BitVec 2) (x1 : BitVec 1) (x2 : BitVec 2) (x3 : BitVec 7) (x4 : BitVec 7) (h : base = (base / 2^17 % 2^1) * 2^17 + (base / 2^18 % 2^4) * 2^18 + (base / 2^24) * 2^24) (hc : base / 2^24 < 2^8) :
    enc_23_22_16_16_15_14_13_7_6_0 base x0 x1 x2 x3 x4 < 2^32 ∧ (enc_23_22_16_16_15_14_13_7_6_0 base x0 x1 x2 x3 x4) / 2^24 = base / 2^24 ∧ (enc_23_22_16_16_15_14_13_7_6_0 base x0 x1 x2 x3 x4) / 2^18 % 2^4 = base / 2^18 % 2^4 ∧ (enc_23_22_16_16_15_14_13_7_6_0 base x0 x1 x2 x3 x4) / 2^17 % 2^1 = base / 2^17 % 2^1 ∧ (enc_23_22_16_16_15_14_13_7_6_0 base x0 x1 x2 x3 x4) / 2 ^ 22 % 2 ^ 2 = x0.toNat ∧ (enc_23_22_16_16_15_14_13_7_6_0 base x0 x1 x2 x3 x4) / 2 ^ 16 % 2 ^ 1 = x1.toNat ∧ (enc_23_22_16_16_15_14_13_7_6_0 base x0 x1 x2 x3 x4) / 2 ^ 14 % 2 ^ 2 = x2.toNat ∧ (enc_23_22_16_16_15_14_13_7_6_0 base x0 x1 x2 x3 x4) / 2 ^ 7 % 2 ^ 7 = x3.toNat ∧ (enc_23_22_16_16_15_14_13_7_6_0 base x0 x1 x2 x3 x4) / 2 ^ 0 % 2 ^ 7 = x4.toNat := by
  have b4 := Nat.mod_lt (base / 2^17) (Nat.two_pow_pos 1)
  have b5 := Nat.mod_lt (base / 2^18) (Nat.two_pow_pos 4)
  generalize base / 2^17 % 2^1 = c4 at *
  generalize base / 2^18 % 2^4 = c5 at *
  generalize base / 2^24 = c7 at *
  have d0 : (enc_23_22_16_16_15_14_13_7_6_0 base x0 x1 x2 x3 x4) / 2 ^ 0 = x4.toNat + 2 ^ 7 * (x3.toNat + 2 ^ 7 * (x2.toNat + 2 ^ 2 * (x1.toNat + 2 ^ 1 * (c4 + 2 ^ 1 * (c5 + 2 ^ 4 * (x0.toNat + 2 ^ 2 * (c7))))))) := by rw [Nat.pow_zero, Nat.div_one, enc_23_22_16_16_15_14_13_7_6_0]; omega
  obtain ⟨p0, d1⟩ := cutAt d0 x4.isLt rfl
  obtain ⟨p1, d2⟩ := cutAt d1 x3.isLt rfl
  obtain ⟨p2, d3⟩ := cutAt d2 x2.isLt rfl
  obtain ⟨p3, d4⟩ := cutAt d3 x1.isLt rfl
  obtain ⟨p4, d5⟩ := cutAt d4 b4 rfl
  obtain ⟨p5, d6⟩ := cutAt d5 b5 rfl
  obtain ⟨p6, d7⟩ := cutAt d6 x0.isLt rfl
  exact ⟨lt_of_top d7 hc, d7, p5, p4, p6, p3, p2, p1, p0⟩

theorem enc_fields_45 (base : Nat) (x0 : BitVec 2) (x1 : BitVec 7) (x2 : BitVec 7) (h : base = (base / 2^14 % 2^4) * 2^14 + (base / 2^18 % 2^4) * 2^18 + (base / 2^24) * 2^24) (hc : base / 2^24 < 2^8) :
    enc_23_22_13_7_6_0 base x0 x1 x2 < 2^32 ∧ (enc_23_22_13_7_6_0 base x0 x1 x2) / 2^24 = base / 2^24 ∧ (enc_23_22_13_7_6_0 base x0 x1 x2) / 2^18 % 2^4 = base / 2^18 % 2^4 ∧ (enc_23_22_13_7_6_0 base x0 x1 x2) / 2^14 % 2^4 = base / 2^14 % 2^4 ∧ (enc_23_22_13_7_6_0 base x0 x1 x2) / 2 ^ 22 % 2 ^ 2 = x0.toNat ∧ (enc_23_22_13_7_6_0 base x0 x1 x2) / 2 ^ 7 % 2 ^ 7 = x1.toNat ∧ (enc_23_22_13_7_6_0 base x0 x1 x2) / 2 ^ 0 % 2 ^ 7 = x2.toNat := by
  have b2 := Nat.mod_lt (base / 2^14) (Nat.two_pow_pos 4)
  have b3 := Nat.mod_lt (base / 2^18) (Nat.two_pow_pos 4)
  generalize base / 2^14 % 2^4 = c2 at *
  generalize base / 2^18 % 2^4 = c3 at *
  generalize base / 2^24 = c5 at *
  have d0 : (enc_23_22_13_7_6_0 base x0 x1 x2) / 2 ^ 0 = x2.toNat + 2 ^ 7 * (x1.toNat + 2 ^ 7 * (c2 + 2 ^ 4 * (c3 + 2 ^ 4 * (x0.toNat + 2 ^ 2 * (c5))))) := by rw [Nat.pow_zero, Nat.div_one, enc_23_22_13_7_6_0]; omega
  obtain ⟨p0, d1⟩ := cutAt d0 x2.isLt rfl
  obtain ⟨p1, d2⟩ := cutAt d1 x1.isLt rfl
  obtain ⟨p2, d3⟩ := cutAt d2 b2 rfl
  obtain ⟨p3, d4⟩ := cutAt d3 b3 rfl
  obtain ⟨p4, d5⟩ := cutAt d4 x0.isLt rfl
  exact ⟨lt_of_top d5 hc, d5, p3, p2, p4, p1, p0⟩

theorem enc_fields_46 (base : Nat) (x0 : BitVec 2) (x1 : BitVec 5) (x2 : BitVec 7) (x3 : BitVec 7) (h : base = (base / 2^19 % 2^3) * 2^19 + (base / 2^24) * 2^24) (hc : base / 2^24 < 2^8) :
    enc_23_22_18_14_13_7_6_0 base x0 x1 x2 x3 < 2^32 ∧ (enc_23_22_18_14_13_7_6_0 base x0 x1 x2 x3) / 2^24 = base / 2^24 ∧ (enc_23_22_18_14_13_7_6_0 base x0 x1 x2 x3) / 2^19 % 2^3 = base / 2^19 % 2^3 ∧ (enc_23_22_18_14_13_7_6_0 base x0 x1 x2 x3) / 2 ^ 22 % 2 ^ 2 = x0.toNat ∧ (enc_23_22_18_14_13_7_6_0 base x0 x1 x2 x3) / 2 ^ 14 % 2 ^ 5 = x1.toNat ∧ (enc_23_22_18_14_13_7_6_0 base x0 x1 x2 x3) / 2 ^ 7 % 2 ^ 7 = x2.toNat ∧ (enc_23_22_18_14_13_7_6_0 base x0 x1 x2 x3) / 2 ^ 0 % 2 ^ 7 = x3.toNat := by
  have b3 := Nat.mod_lt (base / 2^19) (Nat.two_pow_pos 3)
  generalize base / 2^19 % 2^3 = c3 at *
  generalize base / 2^24 = c5 at *
  have d0 : (enc_23_22_18_14_13_7_6_0 base x0 x1 x2 x3) / 2 ^ 0 = x3.toNat + 2 ^ 7 * (x2.toNat + 2 ^ 7 * (x1.toNat + 2 ^ 5 * (c3 + 2 ^ 3 * (x0.toNat + 2 ^ 2 * (c5))))) := by rw [Nat.pow_zero, Nat.div_one, enc_23_22_18_14_13_7_6_0]; omega
  obtain ⟨p0, d1⟩ := cutAt d0 x3.isLt rfl
  obtain ⟨p1, d2⟩ := cutAt d1 x2.isLt rfl
  obtain ⟨p2, d3⟩ := cutAt d2 x1.isLt rfl
  obtain ⟨p3, d4⟩ := cutAt d3 b3 rfl
  obtain ⟨p4, d5⟩ := cutAt d4 x0.isLt rfl
  exact ⟨lt_of_top d5 hc, d5, p3, p4, p2, p1, p0⟩

theorem enc_fields_47 (base : Nat) (x0 : BitVec 2) (x1 : BitVec 3) (x2 : BitVec 7) (x3 : BitVec 7) (h : base = (base / 2^17 % 2^1) * 2^17 + (base / 2^18 % 2^4) * 2^18 + (base / 2^24) * 2^24) (hc : base / 2^24 < 2^8) :
    enc_23_22_16_14_13_7_6_0 base x0 x1 x2 x3 < 2^32 ∧ (enc_23_22_16_14_13_7_6_0 base x0 x1 x2 x3) / 2^24 = base / 2^24 ∧ (enc_23_22_16_14_13_7_6_0 base x0 x1 x2 x3) / 2^17 % 2^1 = base / 2^17 % 2^1 ∧ (enc_23_22_16_14_13_7_6_0 base x0 x1 x2 x3) / 2^18 % 2^4 = base / 2^18 % 2^4 ∧ (enc_23_22_16_14_13_7_6_0 base x0 x1 x2 x3) / 2 ^ 22 % 2 ^ 2 = x0.toNat ∧ (enc_23_22_16_14_13_7_6_0 base x0 x1 x2 x3) / 2 ^ 14 % 2 ^ 3 = x1.toNat ∧ (enc_23_22_16_14_13_7_6_0 base x0 x1 x2 x3) / 2 ^ 7 % 2 ^ 7 = x2.toNat ∧ (enc_23_22_16_14_13_7_6_0 base x0 x1 x2 x3) / 2 ^ 0 % 2 ^ 7 = x3.toNat := by
  have b3 := Nat.mod_lt (base / 2^17) (Nat.two_pow_pos 1)
  have b4 := Nat.mod_lt (base / 2^18) (Nat.two_pow_pos 4)
  generalize base / 2^17 % 2^1 = c3 at *
  generalize base / 2^18 % 2^4 = c4 at *
  generalize base / 2^24 = c6 at *
  have d0 : (enc_23_22_16_14_13_7_6_0 base x0 x1 x2 x3) / 2 ^ 0 = x3.toNat + 2 ^ 7 * (x2.toNat + 2 ^ 7 * (x1.toNat + 2 ^ 3 * (c3 + 2 ^ 1 * (c4 + 2 ^ 4 * (x0.toNat + 2 ^ 2 * (c6)))))) := by rw [Nat.pow_zero, Nat.div_one, enc_23_22_16_14_13_7_6_0]; omega
  obtain ⟨p0, d1⟩ := cutAt d0 x3.isLt rfl
  obtain ⟨p1, d2⟩ := cutAt d1 x2.isLt rfl
  obtain ⟨p2, d3⟩ := cutAt d2 x1.isLt rfl
  obtain ⟨p3, d4⟩ := cutAt d3 b3 rfl
  obtain ⟨p4, d5⟩ := cutAt d4 b4 rfl
  obtain ⟨p5, d6⟩ := cutAt d5 x0.isLt rfl
  exact ⟨lt_of_top d6 hc, d6, p3, p4, p5, p2, p1, p0⟩

theorem enc_fields_48 (base : Nat) (x0 : BitVec 2) (x1 : BitVec 8) (x2 : BitVec 7) (x3 : BitVec 7) (h : base = (base / 2^24) * 2^24) (hc : base / 2^24 < 2^8) :
    enc_23_22_21_14_13_7_6_0 base x0 x1 x2 x3 < 2^32 ∧ (enc_23_22_21_14_13_7_6_0 base x0 x1 x2 x3) / 2^24 = base / 2^24 ∧ (enc_23_22_21_14_13_7_6_0 base x0 x1 x2 x3) / 2 ^ 22 % 2 ^ 2 = x0.toNat ∧ (enc_23_22_21_14_13_7_6_0 base x0 x1 x2 x3) / 2 ^ 14 % 2 ^ 8 = x1.toNat ∧ (enc_23_22_21_14_13_7_6_0 base x0 x1 x2 x3) / 2 ^ 7 % 2 ^ 7 = x2.toNat ∧ (enc_23_22_21_14_13_7_6_0 base x0 x1 x2 x3) / 2 ^ 0 % 2 ^ 7 = x3.toNat := by
  generalize base / 2^24 = c4 at *
  have d0 : (enc_23_22_21_14_13_7_6_0 base x0 x1 x2 x3) / 2 ^ 0 = x3.toNat + 2 ^ 7 * (x2.toNat + 2 ^ 7 * (x1.toNat + 2 ^ 8 * (x0.toNat + 2 ^ 2 * (c4)))) := by rw [Nat.pow_zero, Nat.div_one, enc_23_22_21_14_13_7_6_0]; omega
  obtain ⟨p0, d1⟩ := cutAt d0 x3.isLt rfl
  obtain ⟨p1, d2⟩ := cutAt d1 x2.isLt rfl
  obtain ⟨p2, d3⟩ := cutAt d2 x1.isLt rfl
  obtain ⟨p3, d4⟩ := cutAt d3 x0.isLt rfl
  exact ⟨lt_of_top d4 hc, d4, p3, p2, p1, p0⟩

theorem enc_fields_49 (base : Nat) (x0 : BitVec 2) (x1 : BitVec 1) (x2 : BitVec 6) (x3 : BitVec 7) (x4 : BitVec 7) (h : base = (base / 2^21 % 2^1) * 2^21 + (base / 2^24) * 2^24) (hc : base / 2^24 < 2^8) :
    enc_23_22_20_20_19_14_13_7_6_0 base x0 x1 x2 x3 x4 < 2^32 ∧ (enc_23_22_20_20_19_14_13_7_6_0 base x0 x1 x2 x3 x4) / 2^24 = base / 2^24 ∧ (enc_23_22_20_20_19_14_13_7_6_0 base x0 x1 x2 x3 x4) / 2^21 % 2^1 = base / 2^21 % 2^1 ∧ (enc_23_22_20_20_19_14_13_7_6_0 base x0 x1 x2 x3 x4) / 2 ^ 22 % 2 ^ 2 = x0.toNat ∧ (enc_23_22_20_20_19_14_13_7_6_0 base x0 x1 x2 x3 x4) / 2 ^ 20 % 2 ^ 1 = x1.toNat ∧ (enc_23_22_20_20_19_14_13_7_6_0 base x0 x1 x2 x3 x4) / 2 ^ 14 % 2 ^ 6 = x2.toNat ∧ (enc_23_22_20_20_19_14_13_7_6_0 base x0 x1 x2 x3 x4) / 2 ^ 7 % 2 ^ 7 = x3.toNat ∧ (enc_23_22_20_20_19_14_13_7_6_0 base x0 x1 x2 x3 x4) / 2 ^ 0 % 2 ^ 7 = x4.toNat := by
  have b4 := Nat.mod_lt (base / 2^21) (Nat.two_pow_pos 1)
  generalize base / 2^21 % 2^1 = c4 at *
  generalize base / 2^24 = c6 at *
  have d0 : (enc_23_22_20_20_19_14_13_7_6_0 base x0 x1 x2 x3 x4) / 2 ^ 0 = x4.toNat + 2 ^ 7 * (x3.toNat + 2 ^ 7 * (x2.toNat + 2 ^ 6 * (x1.toNat + 2 ^ 1 * (c4 + 2 ^ 1 * (x0.toNat + 2 ^ 2 * (c6)))))) := by rw [Nat.pow_zero, Nat.div_one, enc_23_22_20_20_19_14_13_7_6_0]; omega
  obtain ⟨p0, d1⟩ := cutAt d0 x4.isLt rfl
  obtain ⟨p1, d2⟩ := cutAt d1 x3.isLt rfl
  obtain ⟨p2, d3⟩ := cutAt d2 x2.isLt rfl
  obtain ⟨p3, d4⟩ := cutAt d3 x1.isLt rfl
  obtain ⟨p4, d5⟩ := cutAt d4 b4 rfl
  obtain ⟨p5, d6⟩ := cutAt d5 x0.isLt rfl
  exact ⟨lt_of_top d6 hc, d6, p4, p5, p3, p2, p1, p0⟩

theorem enc_fields_50 (base : Nat) (x0 : BitVec 2) (x1 : BitVec 2) (x2 : BitVec 2) (x3 : BitVec 7) (x4 : BitVec 7) (h : base = (base / 2^18 % 2^4) * 2^18 + (base / 2^24) * 2^24) (hc : base / 2^24 < 2^8) :
    enc_23_22_17_16_15_14_13_7_6_0 base x0 x1 x2 x3 x4 < 2^32 ∧ (enc_23_22_17_16_15_14_13_7_6_0 base x0 x1 x2 x3 x4) / 2^24 = base / 2^24 ∧ (enc_23_22_17_16_15_14_13_7_6_0 base x0 x1 x2 x3 x4) / 2^18 % 2^4 = base / 2^18 % 2^4 ∧ (enc_23_22_17_16_15_14_13_7_6_0 base x0 x1 x2 x3 x4) / 2 ^ 22 % 2 ^ 2 = x0.toNat ∧ (enc_23_22_17_16_15_14_13_7_6_0 base x0 x1 x2 x3 x4) / 2 ^ 16 % 2 ^ 2 = x1.toNat ∧ (enc_23_22_17_16_15_14_13_7_6_0 base x0 x1 x2 x3 x4) / 2 ^ 14 % 2 ^ 2 = x2.toNat ∧ (enc_23_22_17_16_15_14_13_7_6_0 base x0 x1 x2 x3 x4) / 2 ^ 7 % 2 ^ 7 = x3.toNat ∧ (enc_23_22_17_16_15_14_13_7_6_0 base x0 x1 x2 x3 x4) / 2 ^ 0 % 2 ^ 7 = x4.toNat := by
  have b4 := Nat.mod_lt (base / 2^18) (Nat.two_pow_pos 4)
  generalize base / 2^18 % 2^4 = c4 at *
  generalize base / 2^24 = c6 at *
  have d0 : (enc_23_22_17_16_15_14_13_7_6_0 base x0 x1 x2 x3 x4) / 2 ^ 0 = x4.toNat + 2 ^ 7 * (x3.toNat + 2 ^ 7 * (x2.toNat + 2 ^ 2 * (x1.toNat + 2 ^ 2 * (c4 + 2 ^ 4 * (x0.toNat + 2 ^ 2 * (c6)))))) := by rw [Nat.pow_zero, Nat.div_one, enc_23_22_17_16_15_14_13_7_6_0]; omega
  obtain ⟨p0, d1⟩ := cutAt d0 x4.isLt rfl
  obtain ⟨p1, d2⟩ := cutAt d1 x3.isLt rfl
  obtain ⟨p2, d3⟩ := cutAt d2 x2.isLt rfl
  obtain ⟨p3, d4⟩ := cutAt d3 x1.isLt rfl
  obtain ⟨p4, d5⟩ := cutAt d4 b4 rfl
  obtain ⟨p5, d6⟩ := cutAt d5 x0.isLt rfl
  exact ⟨lt_of_top d6 hc, d6, p4, p5, p3, p2, p1, p0⟩

theorem enc_fields_51 (base : Nat) (x0 : BitVec 2) (x1 : BitVec 3) (x2 : BitVec 7) (x3 : BitVec 7) (h : base = (base / 2^17 % 2^5) * 2^17 + (base / 2^24) * 2^24) (hc : base / 2^24 < 2^8) :
    enc_23_22_16_14_13_7_6_0 base x0 x1 x2 x3 < 2^32 ∧ (enc_23_22_16_14_13_7_6_0 base x0 x1 x2 x3) / 2^24 = base / 2^24 ∧ (enc_23_22_16_14_13_7_6_0 base x0 x1 x2 x3) / 2^17 % 2^5 = base / 2^17 % 2^5 ∧ (enc_23_22_16_14_13_7_6_0 base x0 x1 x2 x3) / 2 ^ 22 % 2 ^ 2 = x0.toNat ∧ (enc_23_22_16_14_13_7_6_0 base x0 x1 x2 x3) / 2 ^ 14 % 2 ^ 3 = x1.toNat ∧ (enc_23_22_16_14_13_7_6_0 base x0 x1 x2 x3) / 2 ^ 7 % 2 ^ 7 = x2.toNat ∧ (enc_23_22_16_14_13_7_6_0 base x0 x1 x2 x3) / 2 ^ 0 % 2 ^ 7 = x3.toNat := by
  have b3 := Nat.mod_lt (base / 2^17) (Nat.two_pow_pos 5)
  generalize base / 2^17 % 2^5 = c3 at *
  generalize base / 2^24 = c5 at *
  have d0 : (enc_23_22_16_14_13_7_6_0 base x0 x1 x2 x3) / 2 ^ 0 = x3.toNat + 2 ^ 7 * (x2.toNat + 2 ^ 7 * (x1.toNat + 2 ^ 3 * (c3 + 2 ^ 5 * (x0.toNat + 2 ^ 2 * (c5))))) := by rw [Nat.pow_zero, Nat.div_one, enc_23_22_16_14_13_7_6_0]; omega
  obtain ⟨p0, d1⟩ := cutAt d0 x3.isLt rfl
  obtain ⟨p1, d2⟩ := cutAt d1 x2.isLt rfl
  obtain ⟨p2, d3⟩ := cutAt d2 x1.isLt rfl
  obtain ⟨p3, d4⟩ := cutAt d3 b3 rfl
  obtain ⟨p4, d5⟩ := cutAt d4 x0.isLt rfl
  exact ⟨lt_of_top d5 hc, d5, p3, p4, p2, p1, p0⟩

theorem enc_fields_52 (base : Nat) (x0 : BitVec 2) (h : base = (base % 2^14) + (base / 2^14 % 2^8) * 2^14 + (base / 2^24) * 2^24) (hc : base / 2^24 < 2^8) :
    enc_23_22 base x0 < 2^32 ∧ (enc_23_22 base x0) / 2^24 = base / 2^24 ∧ (enc_23_22 base x0) / 2^14 % 2^8 = base / 2^14 % 2^8 ∧ (enc_23_22 base x0) % 2^14 = base % 2^14 ∧ (enc_23_22 base x0) / 2 ^ 22 % 2 ^ 2 = x0.toNat := by
  have b0 := Nat.mod_lt (base) (Nat.two_pow_pos 14)
  have b1 := Nat.mod_lt (base / 2^14) (Nat.two_pow_pos 8)
  generalize base % 2^14 = c0 at *
  generalize base / 2^14 % 2^8 = c1 at *
  generalize base / 2^24 = c3 at *
  have d0 : (enc_23_22 base x0) / 2 ^ 0 = c0 + 2 ^ 14 * (c1 + 2 ^ 8 * (x0.toNat + 2 ^ 2 * (c3))) := by rw [Nat.pow_zero, Nat.div_one, enc_23_22]; omega
  obtain ⟨p0, d1⟩ := cutAt d0 b0 rfl
  obtain ⟨p1, d2⟩ := cutAt d1 b1 rfl
  obtain ⟨p2, d3⟩ := cutAt d2 x0.isLt rfl
  exact ⟨lt_of_top d3 hc, d3, p1, low_piece p0, p2⟩

theorem decode_op_01 (n : Nat) (h : n / 2^24 = 0x1) : decodeNat n = .ok (.bro (fld n 22 2) (fld n 19 3) (fld n 0 19)) := by
  unfold decodeNat; rw [h]; rfl

theorem decode_op_02 (n : Nat) (h : n / 2^24 = 0x2) : decodeNat n = if n % 2^19 = 0x0 then .ok (.brr (fld n 22 2) (fld n 19 3)) else .error .reservedField := by
  unfold decodeNat; rw [h]; rfl

theorem decode_op_03 (n : Nat) (h : n / 2^24 = 0x3) : decodeNat n = .ok (.callo (fld n 22 2) (fld n 19 3) (fld n 0 19)) := by
  unfold decodeNat; rw [h]; rfl

theorem decode_op_04 (n : Nat) (h : n / 2^24 = 0x4) : decodeNat n = if n % 2^19 = 0x0 then .ok (.callr (fld n 22 2) (fld n 19 3)) else .error .reservedField := by
  unfold decodeNat; rw [h]; rfl

theorem decode_op_05 (n : Nat) (h : n / 2^24 = 0x5) : decodeNat n = if n % 2^19 = 0x0 then .ok (.ret (fld n 22 2) (fld n 19 3)) else .error .reservedField := by
  unfold decodeNat; rw [h]; rfl

theorem decode_op_06 (n : Nat) (h : n / 2^24 = 0x6) : decodeNat n = if n % 2^19 = 0x0 then .ok (.hend (fld n 22 2) (fld n 19 3)) else .error .reservedField := by
  unfold decodeNat; rw [h]; rfl

theorem decode_op_07 (n : Nat) (h : n / 2^24 = 0x7) : decodeNat n = if n / 2^19 % 2^3 = 0x0 then if n % 2^7 = 0x7f then .ok (.trapi (fld n 22 2) (fld n 7 12)) else .error (.illegalTarget (.trapi (fld n 22 2) (fld n 7 12))) else .error .reservedField := by
  unfold decodeNat; rw [h]; rfl

theorem decode_op_08 (n : Nat) (h : n / 2^24 = 0x8) : decodeNat n = if n / 2^15 % 2^7 = 0x0 then if n % 2^7 = 0x7f then .ok (.brk (fld n 22 2) (fld n 7 8)) else .error (.illegalTarget (.brk (fld n 22 2) (fld n 7 8))) else .error .reservedField := by
  unfold decodeNat; rw [h]; rfl

theorem decode_op_09 (n : Nat) (h : n / 2^24 = 0x9) : decodeNat n = if n / 2^7 % 2^15 = 0x0 then if n % 2^7 = 0x7f then .ok (.nop (fld n 22 2)) else .error (.illegalTarget (.nop (fld n 22 2))) else .error .reservedField := by
  unfold decodeNat; rw [h]; rfl

theorem decode_op_0a (n : Nat) (h : n / 2^24 = 0xa) : decodeNat n = if n / 2^19 % 2^3 = 0x0 then .ok (.rstl (fld n 22 2) (fld n 0 19)) else .error .reservedField := by
  unfold decodeNat; rw [h]; rfl

theorem decode_op_0b (n : Nat) (h : n / 2^24 = 0xb) : decodeNat n = if n / 2^14 % 2^8 = 0x0 then .ok (.mov (fld n 22 2) (fld n 7 7) (fld n 0 7)) else .error .reservedField := by
  unfold decodeNat; rw [h]; rfl

theorem decode_op_0c (n : Nat) (h : n / 2^24 = 0xc) : decodeNat n = .ok (.movi (fld n 7 17) (fld n 0 7)) := by
  unfold decodeNat; rw [h]; rfl

theorem decode_op_0d (n : Nat) (h : n / 2^24 = 0xd) : decodeNat n = .ok (.genc (fld n 22 2) (fld n 7 15) (fld n 0 7)) := by
  unfold decodeNat; rw [h]; rfl

theorem decode_op_0e (n : Nat) (h : n / 2^24 = 0xe) : decodeNat n = if n / 2^14 % 2^2 = 0x0 then .ok (.read (fld n 22 2) (fld n 16 6) (fld n 7 7) (fld n 0 7)) else .error .reservedField := by
  unfold decodeNat; rw [h]; rfl

theorem decode_op_0f (n : Nat) (h : n / 2^24 = 0xf) : decodeNat n = if n % 2^16 = 0x0 then .ok (.write (fld n 22 2) (fld n 16 6)) else .error .reservedField := by
  unfold decodeNat; rw [h]; rfl

theorem decode_op_10 (n : Nat) (h : n / 2^24 = 0x10) : decodeNat n = if n / 2^15 % 2^7 = 0x0 then .ok (.mfs (fld n 22 2) (fld n 7 8) (fld n 0 7)) else .error .reservedField := by
  unfold decodeNat; rw [h]; rfl

theorem decode_op_11 (n : Nat) (h : n / 2^24 = 0x11) : decodeNat n = if n / 2^15 % 2^7 = 0x0 then if n % 2^7 = 0x7f then .ok (.mts (fld n 22 2) (fld n 7 8)) else .error (.illegalTarget (.mts (fld n 22 2) (fld n 7 8))) else .error .reservedField := by
  unfold decodeNat; rw [h]; rfl

theorem decode_op_12 (n : Nat) (h : n / 2^24 = 0x12) : decodeNat n = if n / 2^14 % 2^8 = 0x0 then .ok (.null (fld n 22 2) (fld n 7 7) (fld n 0 7)) else .error .reservedField := by
  unfold decodeNat; rw [h]; rfl

theorem decode_op_13 (n : Nat) (h : n / 2^24 = 0x13) : decodeNat n = if n / 2^14 % 2^10 = 0x0 then .ok (.sel (fld n 7 7) (fld n 0 7)) else .error .reservedField := by
  unfold decodeNat; rw [h]; rfl

theorem decode_op_14 (n : Nat) (h : n / 2^24 = 0x14) : decodeNat n = decodeAlu n := by
  unfold decodeNat; rw [h]; rfl

theorem decode_op_15 (n : Nat) (h : n / 2^24 = 0x15) : decodeNat n = decodeAluW n := by
  unfold decodeNat; rw [h]; rfl

theorem decode_op_16 (n : Nat) (h : n / 2^24 = 0x16) : decodeNat n = .ok (.addi (fld n 22 2) (fld n 7 15) (fld n 0 7)) := by
  unfold decodeNat; rw [h]; rfl

theorem decode_op_17 (n : Nat) (h : n / 2^24 = 0x17) : decodeNat n = .ok (.addiW (fld n 22 2) (fld n 7 15) (fld n 0 7)) := by
  unfold decodeNat; rw [h]; rfl

theorem decode_op_18 (n : Nat) (h : n / 2^24 = 0x18) : decodeNat n = .ok (.andi (fld n 22 2) (fld n 7 15) (fld n 0 7)) := by
  unfold decodeNat; rw [h]; rfl

theorem decode_op_19 (n : Nat) (h : n / 2^24 = 0x19) : decodeNat n = .ok (.ori (fld n 22 2) (fld n 7 15) (fld n 0 7)) := by
  unfold decodeNat; rw [h]; rfl

theorem decode_op_1a (n : Nat) (h : n / 2^24 = 0x1a) : decodeNat n = .ok (.xori (fld n 22 2) (fld n 7 15) (fld n 0 7)) := by
  unfold decodeNat; rw [h]; rfl

theorem decode_op_1b (n : Nat) (h : n / 2^24 = 0x1b) : decodeNat n = if n / 2^14 % 2^8 = 0x0 then .ok (.shli (fld n 22 2) (fld n 13 1) (fld n 7 6) (fld n 0 7)) else .error .reservedField := by
  unfold decodeNat; rw [h]; rfl

theorem decode_op_1c (n : Nat) (h : n / 2^24 = 0x1c) : decodeNat n = if n / 2^14 % 2^8 = 0x0 then .ok (.shri (fld n 22 2) (fld n 13 1) (fld n 7 6) (fld n 0 7)) else .error .reservedField := by
  unfold decodeNat; rw [h]; rfl

theorem decode_op_1d (n : Nat) (h : n / 2^24 = 0x1d) : decodeNat n = if n / 2^14 % 2^8 = 0x0 then .ok (.sari (fld n 22 2) (fld n 13 1) (fld n 7 6) (fld n 0 7)) else .error .reservedField := by
  unfold decodeNat; rw [h]; rfl

theorem decode_op_1e (n : Nat) (h : n / 2^24 = 0x1e) : decodeNat n = if n / 2^14 % 2^8 = 0x0 then .ok (.roli (fld n 22 2) (fld n 13 1) (fld n 7 6) (fld n 0 7)) else .error .reservedField := by
  unfold decodeNat; rw [h]; rfl

theorem decode_op_1f (n : Nat) (h : n / 2^24 = 0x1f) : decodeNat n = if n / 2^14 % 2^8 = 0x0 then .ok (.rori (fld n 22 2) (fld n 13 1) (fld n 7 6) (fld n 0 7)) else .error .reservedField := by
  unfold decodeNat; rw [h]; rfl

theorem decode_op_20 (n : Nat) (h : n / 2^24 = 0x20) : decodeNat n = decodeTest n := by
  unfold decodeNat; rw [h]; rfl

theorem decode_op_21 (n : Nat) (h : n / 2^24 = 0x21) : decodeNat n = .ok (.teqi (fld n 22 2) (fld n 7 15) (fld n 0 7)) := by
  unfold decodeNat; rw [h]; rfl

theorem decode_op_22 (n : Nat) (h : n / 2^24 = 0x22) : decodeNat n = .ok (.tnei (fld n 22 2) (fld n 7 15) (fld n 0 7)) := by
  unfold decodeNat; rw [h]; rfl

theorem decode_op_23 (n : Nat) (h : n / 2^24 = 0x23) : decodeNat n = .ok (.tlti (fld n 22 2) (fld n 7 15) (fld n 0 7)) := by
  unfold decodeNat; rw [h]; rfl

theorem decode_op_24 (n : Nat) (h : n / 2^24 = 0x24) : decodeNat n = .ok (.tlei (fld n 22 2) (fld n 7 15) (fld n 0 7)) := by
  unfold decodeNat; rw [h]; rfl

theorem decode_op_25 (n : Nat) (h : n / 2^24 = 0x25) : decodeNat n = .ok (.tltui (fld n 22 2) (fld n 7 15) (fld n 0 7)) := by
  unfold decodeNat; rw [h]; rfl

theorem decode_op_26 (n : Nat) (h : n / 2^24 = 0x26) : decodeNat n = .ok (.tleui (fld n 22 2) (fld n 7 15) (fld n 0 7)) := by
  unfold decodeNat; rw [h]; rfl

theorem decode_op_27 (n : Nat) (h : n / 2^24 = 0x27) : decodeNat n = if n / 2^22 % 2^2 = 0x0 then .ok (.lop3 (fld n 14 8) (fld n 7 7) (fld n 0 7)) else .error .reservedField := by
  unfold decodeNat; rw [h]; rfl

theorem decode_op_28 (n : Nat) (h : n / 2^24 = 0x28) : decodeNat n = if n / 2^15 % 2^9 = 0x0 then .ok (.fshl (fld n 14 1) (fld n 7 7) (fld n 0 7)) else .error .reservedField := by
  unfold decodeNat; rw [h]; rfl

theorem decode_op_29 (n : Nat) (h : n / 2^24 = 0x29) : decodeNat n = if n / 2^15 % 2^9 = 0x0 then .ok (.fshr (fld n 14 1) (fld n 7 7) (fld n 0 7)) else .error .reservedField := by
  unfold decodeNat; rw [h]; rfl

theorem decode_op_2a (n : Nat) (h : n / 2^24 = 0x2a) : decodeNat n = if n / 2^20 % 2^2 = 0x0 then .ok (.extb (fld n 22 2) (fld n 19 1) (fld n 13 6) (fld n 7 6) (fld n 0 7)) else .error .reservedField := by
  unfold decodeNat; rw [h]; rfl

theorem decode_op_2b (n : Nat) (h : n / 2^24 = 0x2b) : decodeNat n = if n / 2^14 % 2^10 = 0x0 then .ok (.insb (fld n 7 7) (fld n 0 7)) else .error .reservedField := by
  unfold decodeNat; rw [h]; rfl

theorem decode_op_2c (n : Nat) (h : n / 2^24 = 0x2c) : decodeNat n = if n / 2^21 % 2^1 = 0x0 then .ok (.appc (fld n 22 2) (fld n 7 14) (fld n 0 7)) else .error .reservedField := by
  unfold decodeNat; rw [h]; rfl

theorem decode_op_30 (n : Nat) (h : n / 2^24 = 0x30) : decodeNat n = decodeFp n := by
  unfold decodeNat; rw [h]; rfl

theorem decode_op_31 (n : Nat) (h : n / 2^24 = 0x31) : decodeNat n = if n / 2^14 % 2^5 = 0x0 ∧ n / 2^22 % 2^2 = 0x0 then .ok (.ffma (fld n 19 3) (fld n 7 7) (fld n 0 7)) else .error .reservedField := by
  unfold decodeNat; rw [h]; rfl

theorem decode_op_32 (n : Nat) (h : n / 2^24 = 0x32) : decodeNat n = decodeCvt n := by
  unfold decodeNat; rw [h]; rfl

theorem decode_op_33 (n : Nat) (h : n / 2^24 = 0x33) : decodeNat n = .ok (.cvtq8 (fld n 22 2) (fld n 19 3) (fld n 17 2) (fld n 14 3) (fld n 7 7) (fld n 0 7)) := by
  unfold decodeNat; rw [h]; rfl

theorem decode_op_34 (n : Nat) (h : n / 2^24 = 0x34) : decodeNat n = .ok (.cvtq6 (fld n 22 2) (fld n 19 3) (fld n 17 2) (fld n 14 3) (fld n 7 7) (fld n 0 7)) := by
  unfold decodeNat; rw [h]; rfl

theorem decode_op_35 (n : Nat) (h : n / 2^24 = 0x35) : decodeNat n = .ok (.cvtq4 (fld n 22 2) (fld n 19 3) (fld n 17 2) (fld n 14 3) (fld n 7 7) (fld n 0 7)) := by
  unfold decodeNat; rw [h]; rfl

theorem decode_op_36 (n : Nat) (h : n / 2^24 = 0x36) : decodeNat n = if n % 2^14 = 0x3fff then .ok (.srseed (fld n 22 2) (fld n 20 2) (fld n 14 6)) else .error (.illegalTarget (.srseed (fld n 22 2) (fld n 20 2) (fld n 14 6))) := by
  unfold decodeNat; rw [h]; rfl

theorem decode_op_37 (n : Nat) (h : n / 2^24 = 0x37) : decodeNat n = if n / 2^14 % 2^4 = 0x0 then .ok (.bscale (fld n 22 2) (fld n 18 4) (fld n 7 7) (fld n 0 7)) else .error .reservedField := by
  unfold decodeNat; rw [h]; rfl

theorem decode_op_38 (n : Nat) (h : n / 2^24 = 0x38) : decodeNat n = .ok (.qblk (fld n 22 2) (fld n 18 4) (fld n 16 2) (fld n 14 2) (fld n 7 7) (fld n 0 7)) := by
  unfold decodeNat; rw [h]; rfl

theorem decode_op_39 (n : Nat) (h : n / 2^24 = 0x39) : decodeNat n = if n / 2^14 % 2^4 = 0x0 then .ok (.dqblk (fld n 22 2) (fld n 18 4) (fld n 7 7) (fld n 0 7)) else .error .reservedField := by
  unfold decodeNat; rw [h]; rfl

theorem decode_op_3a (n : Nat) (h : n / 2^24 = 0x3a) : decodeNat n = if n / 2^16 % 2^6 = 0x0 then .ok (.lutld (fld n 22 2) (fld n 14 2) (fld n 7 7) (fld n 0 7)) else .error .reservedField := by
  unfold decodeNat; rw [h]; rfl

theorem decode_op_3b (n : Nat) (h : n / 2^24 = 0x3b) : decodeNat n = if n / 2^16 % 2^6 = 0x0 then .ok (.lutenc (fld n 22 2) (fld n 14 2) (fld n 7 7) (fld n 0 7)) else .error .reservedField := by
  unfold decodeNat; rw [h]; rfl

theorem decode_op_40 (n : Nat) (h : n / 2^24 = 0x40) : decodeNat n = if n / 2^17 % 2^4 = 0x0 then .ok (.ldB (fld n 22 2) (fld n 21 1) (fld n 7 10) (fld n 0 7)) else .error .reservedField := by
  unfold decodeNat; rw [h]; rfl

theorem decode_op_41 (n : Nat) (h : n / 2^24 = 0x41) : decodeNat n = if n / 2^17 % 2^4 = 0x0 then .ok (.ldH (fld n 22 2) (fld n 21 1) (fld n 7 10) (fld n 0 7)) else .error .reservedField := by
  unfold decodeNat; rw [h]; rfl

theorem decode_op_42 (n : Nat) (h : n / 2^24 = 0x42) : decodeNat n = if n / 2^17 % 2^4 = 0x0 then .ok (.ldW (fld n 22 2) (fld n 21 1) (fld n 7 10) (fld n 0 7)) else .error .reservedField := by
  unfold decodeNat; rw [h]; rfl

theorem decode_op_43 (n : Nat) (h : n / 2^24 = 0x43) : decodeNat n = if n / 2^17 % 2^4 = 0x0 then .ok (.ldD (fld n 22 2) (fld n 21 1) (fld n 7 10) (fld n 0 7)) else .error .reservedField := by
  unfold decodeNat; rw [h]; rfl

theorem decode_op_44 (n : Nat) (h : n / 2^24 = 0x44) : decodeNat n = if n / 2^17 % 2^4 = 0x0 then .ok (.ldBSx (fld n 22 2) (fld n 21 1) (fld n 7 10) (fld n 0 7)) else .error .reservedField := by
  unfold decodeNat; rw [h]; rfl

theorem decode_op_45 (n : Nat) (h : n / 2^24 = 0x45) : decodeNat n = if n / 2^17 % 2^4 = 0x0 then .ok (.ldHSx (fld n 22 2) (fld n 21 1) (fld n 7 10) (fld n 0 7)) else .error .reservedField := by
  unfold decodeNat; rw [h]; rfl

theorem decode_op_46 (n : Nat) (h : n / 2^24 = 0x46) : decodeNat n = if n / 2^17 % 2^4 = 0x0 then .ok (.ldWSx (fld n 22 2) (fld n 21 1) (fld n 7 10) (fld n 0 7)) else .error .reservedField := by
  unfold decodeNat; rw [h]; rfl

theorem decode_op_47 (n : Nat) (h : n / 2^24 = 0x47) : decodeNat n = .ok (.stB (fld n 22 2) (fld n 21 1) (fld n 17 4) (fld n 7 10) (fld n 0 7)) := by
  unfold decodeNat; rw [h]; rfl

theorem decode_op_48 (n : Nat) (h : n / 2^24 = 0x48) : decodeNat n = .ok (.stH (fld n 22 2) (fld n 21 1) (fld n 17 4) (fld n 7 10) (fld n 0 7)) := by
  unfold decodeNat; rw [h]; rfl

theorem decode_op_49 (n : Nat) (h : n / 2^24 = 0x49) : decodeNat n = .ok (.stW (fld n 22 2) (fld n 21 1) (fld n 17 4) (fld n 7 10) (fld n 0 7)) := by
  unfold decodeNat; rw [h]; rfl

theorem decode_op_4a (n : Nat) (h : n / 2^24 = 0x4a) : decodeNat n = .ok (.stD (fld n 22 2) (fld n 21 1) (fld n 17 4) (fld n 7 10) (fld n 0 7)) := by
  unfold decodeNat; rw [h]; rfl

theorem decode_op_4b (n : Nat) (h : n / 2^24 = 0x4b) : decodeNat n = if n / 2^17 % 2^4 = 0x0 then .ok (.ldo (fld n 22 2) (fld n 21 1) (fld n 7 10) (fld n 0 7)) else .error .reservedField := by
  unfold decodeNat; rw [h]; rfl

theorem decode_op_4c (n : Nat) (h : n / 2^24 = 0x4c) : decodeNat n = .ok (.sto (fld n 22 2) (fld n 21 1) (fld n 17 4) (fld n 7 10) (fld n 0 7)) := by
  unfold decodeNat; rw [h]; rfl

theorem decode_op_4d (n : Nat) (h : n / 2^24 = 0x4d) : decodeNat n = .ok (.clro (fld n 22 2) (fld n 21 1) (fld n 17 4) (fld n 7 10) (fld n 0 7)) := by
  unfold decodeNat; rw [h]; rfl

theorem decode_op_4e (n : Nat) (h : n / 2^24 = 0x4e) : decodeNat n = if n / 2^17 % 2^4 = 0x0 then .ok (.scld (fld n 22 2) (fld n 21 1) (fld n 7 10) (fld n 0 7)) else .error .reservedField := by
  unfold decodeNat; rw [h]; rfl

theorem decode_op_4f (n : Nat) (h : n / 2^24 = 0x4f) : decodeNat n = .ok (.scst (fld n 22 2) (fld n 21 1) (fld n 17 4) (fld n 7 10) (fld n 0 7)) := by
  unfold decodeNat; rw [h]; rfl

theorem decode_op_50 (n : Nat) (h : n / 2^24 = 0x50) : decodeNat n = if n / 2^7 % 2^5 = 0x0 then .ok (.atom (fld n 22 2) (fld n 21 1) (fld n 17 4) (fld n 13 4) (fld n 12 1) (fld n 0 7)) else .error .reservedField := by
  unfold decodeNat; rw [h]; rfl

theorem decode_op_51 (n : Nat) (h : n / 2^24 = 0x51) : decodeNat n = if n / 2^7 % 2^5 = 0x0 then .ok (.atomn (fld n 22 2) (fld n 21 1) (fld n 17 4) (fld n 13 4) (fld n 12 1) (fld n 0 7)) else .error .reservedField := by
  unfold decodeNat; rw [h]; rfl

theorem decode_op_52 (n : Nat) (h : n / 2^24 = 0x52) : decodeNat n = if n / 2^7 % 2^5 = 0x0 ∧ n / 2^13 % 2^4 = 0x0 ∧ n / 2^21 % 2^3 = 0x0 then .ok (.cas (fld n 17 4) (fld n 12 1) (fld n 0 7)) else .error .reservedField := by
  unfold decodeNat; rw [h]; rfl

theorem decode_op_53 (n : Nat) (h : n / 2^24 = 0x53) : decodeNat n = if n / 2^14 % 2^8 = 0x0 then .ok (.join2 (fld n 22 2) (fld n 7 7) (fld n 0 7)) else .error .reservedField := by
  unfold decodeNat; rw [h]; rfl

theorem decode_op_54 (n : Nat) (h : n / 2^24 = 0x54) : decodeNat n = if n / 2^14 % 2^10 = 0x0 then .ok (.join3 (fld n 7 7) (fld n 0 7)) else .error .reservedField := by
  unfold decodeNat; rw [h]; rfl

theorem decode_op_55 (n : Nat) (h : n / 2^24 = 0x55) : decodeNat n = if n / 2^10 % 2^12 = 0x0 then .ok (.fence (fld n 22 2) (fld n 7 3) (fld n 0 7)) else .error .reservedField := by
  unfold decodeNat; rw [h]; rfl

theorem decode_op_56 (n : Nat) (h : n / 2^24 = 0x56) : decodeNat n = if n / 2^14 % 2^3 = 0x0 then .ok (.send (fld n 22 2) (fld n 21 1) (fld n 17 4) (fld n 11 3) (fld n 10 1) (fld n 7 3) (fld n 0 7)) else .error .reservedField := by
  unfold decodeNat; rw [h]; rfl

theorem decode_op_57 (n : Nat) (h : n / 2^24 = 0x57) : decodeNat n = if n / 2^14 % 2^3 = 0x0 then .ok (.sendr (fld n 22 2) (fld n 21 1) (fld n 17 4) (fld n 11 3) (fld n 10 1) (fld n 7 3) (fld n 0 7)) else .error .reservedField := by
  unfold decodeNat; rw [h]; rfl

theorem decode_op_58 (n : Nat) (h : n / 2^24 = 0x58) : decodeNat n = if n / 2^12 % 2^5 = 0x0 then .ok (.sendm (fld n 22 2) (fld n 21 1) (fld n 17 4) (fld n 10 2) (fld n 7 3) (fld n 0 7)) else .error .reservedField := by
  unfold decodeNat; rw [h]; rfl

theorem decode_op_59 (n : Nat) (h : n / 2^24 = 0x59) : decodeNat n = if n / 2^10 % 2^7 = 0x0 then .ok (.eos (fld n 22 2) (fld n 21 1) (fld n 17 4) (fld n 7 3) (fld n 0 7)) else .error .reservedField := by
  unfold decodeNat; rw [h]; rfl

theorem decode_op_5a (n : Nat) (h : n / 2^24 = 0x5a) : decodeNat n = if n / 2^7 % 2^15 = 0x0 then .ok (.taga (fld n 22 2) (fld n 0 7)) else .error .reservedField := by
  unfold decodeNat; rw [h]; rfl

theorem decode_op_5b (n : Nat) (h : n / 2^24 = 0x5b) : decodeNat n = if n / 2^7 % 2^15 = 0x0 then if n % 2^7 = 0x7f then .ok (.tagr (fld n 22 2)) else .error (.illegalTarget (.tagr (fld n 22 2))) else .error .reservedField := by
  unfold decodeNat; rw [h]; rfl

theorem decode_op_5c (n : Nat) (h : n / 2^24 = 0x5c) : decodeNat n = if n / 2^13 % 2^9 = 0x0 then if n % 2^7 = 0x7f then .ok (.tblk (fld n 22 2) (fld n 7 6)) else .error (.illegalTarget (.tblk (fld n 22 2) (fld n 7 6))) else .error .reservedField := by
  unfold decodeNat; rw [h]; rfl

theorem decode_op_5d (n : Nat) (h : n / 2^24 = 0x5d) : decodeNat n = if n / 2^13 % 2^9 = 0x0 then if n % 2^7 = 0x7f then .ok (.tunb (fld n 22 2) (fld n 7 6)) else .error (.illegalTarget (.tunb (fld n 22 2) (fld n 7 6))) else .error .reservedField := by
  unfold decodeNat; rw [h]; rfl

theorem decode_op_5e (n : Nat) (h : n / 2^24 = 0x5e) : decodeNat n = decodeBar n := by
  unfold decodeNat; rw [h]; rfl

theorem decode_op_60 (n : Nat) (h : n / 2^24 = 0x60) : decodeNat n = if n / 2^18 % 2^4 = 0x0 then if n % 2^7 = 0x7f then .ok (.mwin (fld n 22 2) (fld n 7 11)) else .error (.illegalTarget (.mwin (fld n 22 2) (fld n 7 11))) else .error .reservedField := by
  unfold decodeNat; rw [h]; rfl

theorem decode_op_61 (n : Nat) (h : n / 2^24 = 0x61) : decodeNat n = if n / 2^7 % 2^15 = 0x0 then if n % 2^7 = 0x7f then .ok (.mwend (fld n 22 2)) else .error (.illegalTarget (.mwend (fld n 22 2))) else .error .reservedField := by
  unfold decodeNat; rw [h]; rfl

theorem decode_op_62 (n : Nat) (h : n / 2^24 = 0x62) : decodeNat n = if n / 2^7 % 2^15 = 0x0 then if n % 2^7 = 0x7f then .ok (.seal (fld n 22 2)) else .error (.illegalTarget (.seal (fld n 22 2))) else .error .reservedField := by
  unfold decodeNat; rw [h]; rfl

theorem decode_op_63 (n : Nat) (h : n / 2^24 = 0x63) : decodeNat n = if n / 2^7 % 2^15 = 0x0 then .ok (.sealw (fld n 22 2) (fld n 0 7)) else .error .reservedField := by
  unfold decodeNat; rw [h]; rfl

theorem decode_op_64 (n : Nat) (h : n / 2^24 = 0x64) : decodeNat n = .ok (.irst (fld n 22 2) (fld n 21 1) (fld n 17 4) (fld n 7 10) (fld n 0 7)) := by
  unfold decodeNat; rw [h]; rfl

theorem decode_op_65 (n : Nat) (h : n / 2^24 = 0x65) : decodeNat n = if n / 2^16 % 2^6 = 0x0 then .ok (.rld (fld n 22 2) (fld n 14 2) (fld n 7 7) (fld n 0 7)) else .error .reservedField := by
  unfold decodeNat; rw [h]; rfl

theorem decode_op_66 (n : Nat) (h : n / 2^24 = 0x66) : decodeNat n = if n / 2^16 % 2^6 = 0x0 then .ok (.rgo (fld n 22 2) (fld n 14 2) (fld n 7 7) (fld n 0 7)) else .error .reservedField := by
  unfold decodeNat; rw [h]; rfl

theorem decode_op_67 (n : Nat) (h : n / 2^24 = 0x67) : decodeNat n = if n / 2^16 % 2^6 = 0x0 then .ok (.rstop (fld n 22 2) (fld n 14 2) (fld n 7 7) (fld n 0 7)) else .error .reservedField := by
  unfold decodeNat; rw [h]; rfl

theorem decode_op_68 (n : Nat) (h : n / 2^24 = 0x68) : decodeNat n = if n / 2^17 % 2^5 = 0x0 then .ok (.rdrain (fld n 22 2) (fld n 16 1) (fld n 14 2) (fld n 7 7) (fld n 0 7)) else .error .reservedField := by
  unfold decodeNat; rw [h]; rfl

theorem decode_op_69 (n : Nat) (h : n / 2^24 = 0x69) : decodeNat n = if n / 2^17 % 2^5 = 0x0 then .ok (.rstat (fld n 22 2) (fld n 16 1) (fld n 14 2) (fld n 7 7) (fld n 0 7)) else .error .reservedField := by
  unfold decodeNat; rw [h]; rfl

theorem decode_op_6a (n : Nat) (h : n / 2^24 = 0x6a) : decodeNat n = .ok (.mma (fld n 22 2) (fld n 18 4) (fld n 14 4) (fld n 7 7) (fld n 0 7)) := by
  unfold decodeNat; rw [h]; rfl

theorem decode_op_6b (n : Nat) (h : n / 2^24 = 0x6b) : decodeNat n = .ok (.mmas (fld n 22 2) (fld n 18 4) (fld n 14 4) (fld n 7 7) (fld n 0 7)) := by
  unfold decodeNat; rw [h]; rfl

theorem decode_op_6c (n : Nat) (h : n / 2^24 = 0x6c) : decodeNat n = decodeMx n := by
  unfold decodeNat; rw [h]; rfl

theorem decode_op_6d (n : Nat) (h : n / 2^24 = 0x6d) : decodeNat n = if n / 2^16 % 2^6 = 0x0 then .ok (.mlda (fld n 22 2) (fld n 14 2) (fld n 7 7) (fld n 0 7)) else .error .reservedField := by
  unfold decodeNat; rw [h]; rfl

theorem decode_op_6e (n : Nat) (h : n / 2^24 = 0x6e) : decodeNat n = .ok (.mdrain (fld n 22 2) (fld n 18 4) (fld n 16 2) (fld n 14 2) (fld n 7 7) (fld n 0 7)) := by
  unfold decodeNat; rw [h]; rfl

theorem decode_op_70 (n : Nat) (h : n / 2^24 = 0x70) : decodeNat n = if n / 2^19 % 2^3 = 0x0 then .ok (.apdef (fld n 22 2) (fld n 14 5) (fld n 7 7) (fld n 0 7)) else .error .reservedField := by
  unfold decodeNat; rw [h]; rfl

theorem decode_op_71 (n : Nat) (h : n / 2^24 = 0x71) : decodeNat n = decodeStrm n := by
  unfold decodeNat; rw [h]; rfl

theorem decode_op_72 (n : Nat) (h : n / 2^24 = 0x72) : decodeNat n = .ok (.sbar (fld n 22 2) (fld n 14 8) (fld n 7 7) (fld n 0 7)) := by
  unfold decodeNat; rw [h]; rfl

theorem decode_op_73 (n : Nat) (h : n / 2^24 = 0x73) : decodeNat n = if n / 2^21 % 2^1 = 0x0 then .ok (.bcopy (fld n 22 2) (fld n 20 1) (fld n 14 6) (fld n 7 7) (fld n 0 7)) else .error .reservedField := by
  unfold decodeNat; rw [h]; rfl

theorem decode_op_74 (n : Nat) (h : n / 2^24 = 0x74) : decodeNat n = if n / 2^21 % 2^1 = 0x0 then .ok (.bcopyh (fld n 22 2) (fld n 20 1) (fld n 14 6) (fld n 7 7) (fld n 0 7)) else .error .reservedField := by
  unfold decodeNat; rw [h]; rfl

theorem decode_op_75 (n : Nat) (h : n / 2^24 = 0x75) : decodeNat n = if n / 2^18 % 2^4 = 0x0 then .ok (.agcfg (fld n 22 2) (fld n 16 2) (fld n 14 2) (fld n 7 7) (fld n 0 7)) else .error .reservedField := by
  unfold decodeNat; rw [h]; rfl

theorem decode_op_76 (n : Nat) (h : n / 2^24 = 0x76) : decodeNat n = if n / 2^18 % 2^4 = 0x0 then .ok (.aggo (fld n 22 2) (fld n 16 2) (fld n 14 2) (fld n 7 7) (fld n 0 7)) else .error .reservedField := by
  unfold decodeNat; rw [h]; rfl

theorem decode_op_77 (n : Nat) (h : n / 2^24 = 0x77) : decodeNat n = if n / 2^17 % 2^5 = 0x0 then .ok (.coll (fld n 22 2) (fld n 14 3) (fld n 7 7) (fld n 0 7)) else .error .reservedField := by
  unfold decodeNat; rw [h]; rfl

theorem decode_op_78 (n : Nat) (h : n / 2^24 = 0x78) : decodeNat n = decodeSys n := by
  unfold decodeNat; rw [h]; rfl

theorem EncodeThenDecode.bro (p : BitVec 2) (e : BitVec 3) (s : BitVec 19) : EncodeThenDecode.Statement (.bro p e s) := by
  intro wd h
  obtain ⟨hn, ho, f0, f1, f2⟩ := enc_fields_1 0x01000000 p e s (by decide) (by decide)
  refine decode_of rfl h hn ?_
  rw [decode_op_01 _ ho]
  simp only [fld_eq f0, fld_eq f1, fld_eq f2]

theorem EncodeThenDecode.brr (p : BitVec 2) (e : BitVec 3) : EncodeThenDecode.Statement (.brr p e) := by
  intro wd h
  obtain ⟨hn, ho, r0, f0, f1⟩ := enc_fields_2 0x02000000 p e (by decide) (by decide)
  refine decode_of rfl h hn ?_
  rw [decode_op_02 _ ho]
  simp only [r0, fld_eq f0, fld_eq f1]
  rfl

theorem EncodeThenDecode.callo (p : BitVec 2) (e : BitVec 3) (s : BitVec 19) : EncodeThenDecode.Statement (.callo p e s) := by
  intro wd h
  obtain ⟨hn, ho, f0, f1, f2⟩ := enc_fields_1 0x03000000 p e s (by decide) (by decide)
  refine decode_of rfl h hn ?_
  rw [decode_op_03 _ ho]
  simp only [fld_eq f0, fld_eq f1, fld_eq f2]

theorem EncodeThenDecode.callr (p : BitVec 2) (e : BitVec 3) : EncodeThenDecode.Statement (.callr p e) := by
  intro wd h
  obtain ⟨hn, ho, r0, f0, f1⟩ := enc_fields_2 0x04000000 p e (by decide) (by decide)
  refine decode_of rfl h hn ?_
  rw [decode_op_04 _ ho]
  simp only [r0, fld_eq f0, fld_eq f1]
  rfl

theorem EncodeThenDecode.ret (p : BitVec 2) (e : BitVec 3) : EncodeThenDecode.Statement (.ret p e) := by
  intro wd h
  obtain ⟨hn, ho, r0, f0, f1⟩ := enc_fields_2 0x05000000 p e (by decide) (by decide)
  refine decode_of rfl h hn ?_
  rw [decode_op_05 _ ho]
  simp only [r0, fld_eq f0, fld_eq f1]
  rfl

theorem EncodeThenDecode.hend (p : BitVec 2) (e : BitVec 3) : EncodeThenDecode.Statement (.hend p e) := by
  intro wd h
  obtain ⟨hn, ho, r0, f0, f1⟩ := enc_fields_2 0x06000000 p e (by decide) (by decide)
  refine decode_of rfl h hn ?_
  rw [decode_op_06 _ ho]
  simp only [r0, fld_eq f0, fld_eq f1]
  rfl

theorem EncodeThenDecode.trapi (p : BitVec 2) (c : BitVec 12) : EncodeThenDecode.Statement (.trapi p c) := by
  intro wd h
  obtain ⟨hn, ho, r0, r1, f0, f1⟩ := enc_fields_3 0x0700007F p c (by decide) (by decide)
  refine decode_of rfl h hn ?_
  rw [decode_op_07 _ ho]
  simp only [r0, r1, fld_eq f0, fld_eq f1]
  rfl

theorem EncodeThenDecode.brk (p : BitVec 2) (c : BitVec 8) : EncodeThenDecode.Statement (.brk p c) := by
  intro wd h
  obtain ⟨hn, ho, r0, r1, f0, f1⟩ := enc_fields_4 0x0800007F p c (by decide) (by decide)
  refine decode_of rfl h hn ?_
  rw [decode_op_08 _ ho]
  simp only [r0, r1, fld_eq f0, fld_eq f1]
  rfl

theorem EncodeThenDecode.nop (p : BitVec 2) : EncodeThenDecode.Statement (.nop p) := by
  intro wd h
  obtain ⟨hn, ho, r0, r1, f0⟩ := enc_fields_5 0x0900007F p (by decide) (by decide)
  refine decode_of rfl h hn ?_
  rw [decode_op_09 _ ho]
  simp only [r0, r1, fld_eq f0]
  rfl

theorem EncodeThenDecode.rstl (p : BitVec 2) (s : BitVec 19) : EncodeThenDecode.Statement (.rstl p s) := by
  intro wd h
  obtain ⟨hn, ho, r0, f0, f1⟩ := enc_fields_6 0x0A000000 p s (by decide) (by decide)
  refine decode_of rfl h hn ?_
  rw [decode_op_0a _ ho]
  simp only [r0, fld_eq f0, fld_eq f1]
  rfl

theorem EncodeThenDecode.mov (p : BitVec 2) (b : BitVec 7) (a : BitVec 7) : EncodeThenDecode.Statement (.mov p b a) := by
  intro wd h
  obtain ⟨hn, ho, r0, f0, f1, f2⟩ := enc_fields_7 0x0B000000 p b a (by decide) (by decide)
  refine decode_of rfl h hn ?_
  rw [decode_op_0b _ ho]
  simp only [r0, fld_eq f0, fld_eq f1, fld_eq f2]
  rfl

theorem EncodeThenDecode.movi (i : BitVec 17) (a : BitVec 7) : EncodeThenDecode.Statement (.movi i a) := by
  intro wd h
  obtain ⟨hn, ho, f0, f1⟩ := enc_fields_8 0x0C000000 i a (by decide) (by decide)
  refine decode_of rfl h hn ?_
  rw [decode_op_0c _ ho]
  simp only [fld_eq f0, fld_eq f1]

theorem EncodeThenDecode.genc (p : BitVec 2) (i : BitVec 15) (a : BitVec 7) : EncodeThenDecode.Statement (.genc p i a) := by
  intro wd h
  obtain ⟨hn, ho, f0, f1, f2⟩ := enc_fields_9 0x0D000000 p i a (by decide) (by decide)
  refine decode_of rfl h hn ?_
  rw [decode_op_0d _ ho]
  simp only [fld_eq f0, fld_eq f1, fld_eq f2]

theorem EncodeThenDecode.read (p : BitVec 2) (r : BitVec 6) (b : BitVec 7) (a : BitVec 7) : EncodeThenDecode.Statement (.read p r b a) := by
  intro wd h
  obtain ⟨hn, ho, r0, f0, f1, f2, f3⟩ := enc_fields_10 0x0E000000 p r b a (by decide) (by decide)
  refine decode_of rfl h hn ?_
  rw [decode_op_0e _ ho]
  simp only [r0, fld_eq f0, fld_eq f1, fld_eq f2, fld_eq f3]
  rfl

theorem EncodeThenDecode.write (p : BitVec 2) (r : BitVec 6) : EncodeThenDecode.Statement (.write p r) := by
  intro wd h
  obtain ⟨hn, ho, r0, f0, f1⟩ := enc_fields_11 0x0F000000 p r (by decide) (by decide)
  refine decode_of rfl h hn ?_
  rw [decode_op_0f _ ho]
  simp only [r0, fld_eq f0, fld_eq f1]
  rfl

theorem EncodeThenDecode.mfs (p : BitVec 2) (s : BitVec 8) (a : BitVec 7) : EncodeThenDecode.Statement (.mfs p s a) := by
  intro wd h
  obtain ⟨hn, ho, r0, f0, f1, f2⟩ := enc_fields_12 0x10000000 p s a (by decide) (by decide)
  refine decode_of rfl h hn ?_
  rw [decode_op_10 _ ho]
  simp only [r0, fld_eq f0, fld_eq f1, fld_eq f2]
  rfl

theorem EncodeThenDecode.mts (p : BitVec 2) (s : BitVec 8) : EncodeThenDecode.Statement (.mts p s) := by
  intro wd h
  obtain ⟨hn, ho, r0, r1, f0, f1⟩ := enc_fields_4 0x1100007F p s (by decide) (by decide)
  refine decode_of rfl h hn ?_
  rw [decode_op_11 _ ho]
  simp only [r0, r1, fld_eq f0, fld_eq f1]
  rfl

theorem EncodeThenDecode.null (p : BitVec 2) (b : BitVec 7) (a : BitVec 7) : EncodeThenDecode.Statement (.null p b a) := by
  intro wd h
  obtain ⟨hn, ho, r0, f0, f1, f2⟩ := enc_fields_7 0x12000000 p b a (by decide) (by decide)
  refine decode_of rfl h hn ?_
  rw [decode_op_12 _ ho]
  simp only [r0, fld_eq f0, fld_eq f1, fld_eq f2]
  rfl

theorem EncodeThenDecode.sel (b : BitVec 7) (a : BitVec 7) : EncodeThenDecode.Statement (.sel b a) := by
  intro wd h
  obtain ⟨hn, ho, r0, f0, f1⟩ := enc_fields_13 0x13000000 b a (by decide) (by decide)
  refine decode_of rfl h hn ?_
  rw [decode_op_13 _ ho]
  simp only [r0, fld_eq f0, fld_eq f1]
  rfl

theorem EncodeThenDecode.add (p : BitVec 2) (b : BitVec 7) (a : BitVec 7) : EncodeThenDecode.Statement (.add p b a) := by
  intro wd h
  obtain ⟨hn, ho, r0, f0, f1, f2⟩ := enc_fields_7 0x14000000 p b a (by decide) (by decide)
  refine decode_of rfl h hn ?_
  rw [decode_op_14 _ ho, decodeAlu]
  simp only [r0, fld_eq f0, fld_eq f1, fld_eq f2]
  rfl

theorem EncodeThenDecode.sub (p : BitVec 2) (b : BitVec 7) (a : BitVec 7) : EncodeThenDecode.Statement (.sub p b a) := by
  intro wd h
  obtain ⟨hn, ho, r0, f0, f1, f2⟩ := enc_fields_7 0x14004000 p b a (by decide) (by decide)
  refine decode_of rfl h hn ?_
  rw [decode_op_14 _ ho, decodeAlu]
  simp only [r0, fld_eq f0, fld_eq f1, fld_eq f2]
  rfl

theorem EncodeThenDecode.mul (p : BitVec 2) (b : BitVec 7) (a : BitVec 7) : EncodeThenDecode.Statement (.mul p b a) := by
  intro wd h
  obtain ⟨hn, ho, r0, f0, f1, f2⟩ := enc_fields_7 0x14008000 p b a (by decide) (by decide)
  refine decode_of rfl h hn ?_
  rw [decode_op_14 _ ho, decodeAlu]
  simp only [r0, fld_eq f0, fld_eq f1, fld_eq f2]
  rfl

theorem EncodeThenDecode.mulhs (p : BitVec 2) (b : BitVec 7) (a : BitVec 7) : EncodeThenDecode.Statement (.mulhs p b a) := by
  intro wd h
  obtain ⟨hn, ho, r0, f0, f1, f2⟩ := enc_fields_7 0x1400C000 p b a (by decide) (by decide)
  refine decode_of rfl h hn ?_
  rw [decode_op_14 _ ho, decodeAlu]
  simp only [r0, fld_eq f0, fld_eq f1, fld_eq f2]
  rfl

theorem EncodeThenDecode.mulhu (p : BitVec 2) (b : BitVec 7) (a : BitVec 7) : EncodeThenDecode.Statement (.mulhu p b a) := by
  intro wd h
  obtain ⟨hn, ho, r0, f0, f1, f2⟩ := enc_fields_7 0x14010000 p b a (by decide) (by decide)
  refine decode_of rfl h hn ?_
  rw [decode_op_14 _ ho, decodeAlu]
  simp only [r0, fld_eq f0, fld_eq f1, fld_eq f2]
  rfl

theorem EncodeThenDecode.divs (p : BitVec 2) (b : BitVec 7) (a : BitVec 7) : EncodeThenDecode.Statement (.divs p b a) := by
  intro wd h
  obtain ⟨hn, ho, r0, f0, f1, f2⟩ := enc_fields_7 0x14014000 p b a (by decide) (by decide)
  refine decode_of rfl h hn ?_
  rw [decode_op_14 _ ho, decodeAlu]
  simp only [r0, fld_eq f0, fld_eq f1, fld_eq f2]
  rfl

theorem EncodeThenDecode.divu (p : BitVec 2) (b : BitVec 7) (a : BitVec 7) : EncodeThenDecode.Statement (.divu p b a) := by
  intro wd h
  obtain ⟨hn, ho, r0, f0, f1, f2⟩ := enc_fields_7 0x14018000 p b a (by decide) (by decide)
  refine decode_of rfl h hn ?_
  rw [decode_op_14 _ ho, decodeAlu]
  simp only [r0, fld_eq f0, fld_eq f1, fld_eq f2]
  rfl

theorem EncodeThenDecode.rems (p : BitVec 2) (b : BitVec 7) (a : BitVec 7) : EncodeThenDecode.Statement (.rems p b a) := by
  intro wd h
  obtain ⟨hn, ho, r0, f0, f1, f2⟩ := enc_fields_7 0x1401C000 p b a (by decide) (by decide)
  refine decode_of rfl h hn ?_
  rw [decode_op_14 _ ho, decodeAlu]
  simp only [r0, fld_eq f0, fld_eq f1, fld_eq f2]
  rfl

theorem EncodeThenDecode.remu (p : BitVec 2) (b : BitVec 7) (a : BitVec 7) : EncodeThenDecode.Statement (.remu p b a) := by
  intro wd h
  obtain ⟨hn, ho, r0, f0, f1, f2⟩ := enc_fields_7 0x14020000 p b a (by decide) (by decide)
  refine decode_of rfl h hn ?_
  rw [decode_op_14 _ ho, decodeAlu]
  simp only [r0, fld_eq f0, fld_eq f1, fld_eq f2]
  rfl

theorem EncodeThenDecode.min (p : BitVec 2) (b : BitVec 7) (a : BitVec 7) : EncodeThenDecode.Statement (.min p b a) := by
  intro wd h
  obtain ⟨hn, ho, r0, f0, f1, f2⟩ := enc_fields_7 0x14024000 p b a (by decide) (by decide)
  refine decode_of rfl h hn ?_
  rw [decode_op_14 _ ho, decodeAlu]
  simp only [r0, fld_eq f0, fld_eq f1, fld_eq f2]
  rfl

theorem EncodeThenDecode.max (p : BitVec 2) (b : BitVec 7) (a : BitVec 7) : EncodeThenDecode.Statement (.max p b a) := by
  intro wd h
  obtain ⟨hn, ho, r0, f0, f1, f2⟩ := enc_fields_7 0x14028000 p b a (by decide) (by decide)
  refine decode_of rfl h hn ?_
  rw [decode_op_14 _ ho, decodeAlu]
  simp only [r0, fld_eq f0, fld_eq f1, fld_eq f2]
  rfl

theorem EncodeThenDecode.minu (p : BitVec 2) (b : BitVec 7) (a : BitVec 7) : EncodeThenDecode.Statement (.minu p b a) := by
  intro wd h
  obtain ⟨hn, ho, r0, f0, f1, f2⟩ := enc_fields_7 0x1402C000 p b a (by decide) (by decide)
  refine decode_of rfl h hn ?_
  rw [decode_op_14 _ ho, decodeAlu]
  simp only [r0, fld_eq f0, fld_eq f1, fld_eq f2]
  rfl

theorem EncodeThenDecode.maxu (p : BitVec 2) (b : BitVec 7) (a : BitVec 7) : EncodeThenDecode.Statement (.maxu p b a) := by
  intro wd h
  obtain ⟨hn, ho, r0, f0, f1, f2⟩ := enc_fields_7 0x14030000 p b a (by decide) (by decide)
  refine decode_of rfl h hn ?_
  rw [decode_op_14 _ ho, decodeAlu]
  simp only [r0, fld_eq f0, fld_eq f1, fld_eq f2]
  rfl

theorem EncodeThenDecode.and (p : BitVec 2) (b : BitVec 7) (a : BitVec 7) : EncodeThenDecode.Statement (.and p b a) := by
  intro wd h
  obtain ⟨hn, ho, r0, f0, f1, f2⟩ := enc_fields_7 0x14040000 p b a (by decide) (by decide)
  refine decode_of rfl h hn ?_
  rw [decode_op_14 _ ho, decodeAlu]
  simp only [r0, fld_eq f0, fld_eq f1, fld_eq f2]
  rfl

theorem EncodeThenDecode.or (p : BitVec 2) (b : BitVec 7) (a : BitVec 7) : EncodeThenDecode.Statement (.or p b a) := by
  intro wd h
  obtain ⟨hn, ho, r0, f0, f1, f2⟩ := enc_fields_7 0x14044000 p b a (by decide) (by decide)
  refine decode_of rfl h hn ?_
  rw [decode_op_14 _ ho, decodeAlu]
  simp only [r0, fld_eq f0, fld_eq f1, fld_eq f2]
  rfl

theorem EncodeThenDecode.xor (p : BitVec 2) (b : BitVec 7) (a : BitVec 7) : EncodeThenDecode.Statement (.xor p b a) := by
  intro wd h
  obtain ⟨hn, ho, r0, f0, f1, f2⟩ := enc_fields_7 0x14048000 p b a (by decide) (by decide)
  refine decode_of rfl h hn ?_
  rw [decode_op_14 _ ho, decodeAlu]
  simp only [r0, fld_eq f0, fld_eq f1, fld_eq f2]
  rfl

theorem EncodeThenDecode.andn (p : BitVec 2) (b : BitVec 7) (a : BitVec 7) : EncodeThenDecode.Statement (.andn p b a) := by
  intro wd h
  obtain ⟨hn, ho, r0, f0, f1, f2⟩ := enc_fields_7 0x1404C000 p b a (by decide) (by decide)
  refine decode_of rfl h hn ?_
  rw [decode_op_14 _ ho, decodeAlu]
  simp only [r0, fld_eq f0, fld_eq f1, fld_eq f2]
  rfl

theorem EncodeThenDecode.orn (p : BitVec 2) (b : BitVec 7) (a : BitVec 7) : EncodeThenDecode.Statement (.orn p b a) := by
  intro wd h
  obtain ⟨hn, ho, r0, f0, f1, f2⟩ := enc_fields_7 0x14050000 p b a (by decide) (by decide)
  refine decode_of rfl h hn ?_
  rw [decode_op_14 _ ho, decodeAlu]
  simp only [r0, fld_eq f0, fld_eq f1, fld_eq f2]
  rfl

theorem EncodeThenDecode.xnor (p : BitVec 2) (b : BitVec 7) (a : BitVec 7) : EncodeThenDecode.Statement (.xnor p b a) := by
  intro wd h
  obtain ⟨hn, ho, r0, f0, f1, f2⟩ := enc_fields_7 0x14054000 p b a (by decide) (by decide)
  refine decode_of rfl h hn ?_
  rw [decode_op_14 _ ho, decodeAlu]
  simp only [r0, fld_eq f0, fld_eq f1, fld_eq f2]
  rfl

theorem EncodeThenDecode.shl (p : BitVec 2) (b : BitVec 7) (a : BitVec 7) : EncodeThenDecode.Statement (.shl p b a) := by
  intro wd h
  obtain ⟨hn, ho, r0, f0, f1, f2⟩ := enc_fields_7 0x14060000 p b a (by decide) (by decide)
  refine decode_of rfl h hn ?_
  rw [decode_op_14 _ ho, decodeAlu]
  simp only [r0, fld_eq f0, fld_eq f1, fld_eq f2]
  rfl

theorem EncodeThenDecode.shr (p : BitVec 2) (b : BitVec 7) (a : BitVec 7) : EncodeThenDecode.Statement (.shr p b a) := by
  intro wd h
  obtain ⟨hn, ho, r0, f0, f1, f2⟩ := enc_fields_7 0x14064000 p b a (by decide) (by decide)
  refine decode_of rfl h hn ?_
  rw [decode_op_14 _ ho, decodeAlu]
  simp only [r0, fld_eq f0, fld_eq f1, fld_eq f2]
  rfl

theorem EncodeThenDecode.sar (p : BitVec 2) (b : BitVec 7) (a : BitVec 7) : EncodeThenDecode.Statement (.sar p b a) := by
  intro wd h
  obtain ⟨hn, ho, r0, f0, f1, f2⟩ := enc_fields_7 0x14068000 p b a (by decide) (by decide)
  refine decode_of rfl h hn ?_
  rw [decode_op_14 _ ho, decodeAlu]
  simp only [r0, fld_eq f0, fld_eq f1, fld_eq f2]
  rfl

theorem EncodeThenDecode.rol (p : BitVec 2) (b : BitVec 7) (a : BitVec 7) : EncodeThenDecode.Statement (.rol p b a) := by
  intro wd h
  obtain ⟨hn, ho, r0, f0, f1, f2⟩ := enc_fields_7 0x1406C000 p b a (by decide) (by decide)
  refine decode_of rfl h hn ?_
  rw [decode_op_14 _ ho, decodeAlu]
  simp only [r0, fld_eq f0, fld_eq f1, fld_eq f2]
  rfl

theorem EncodeThenDecode.ror (p : BitVec 2) (b : BitVec 7) (a : BitVec 7) : EncodeThenDecode.Statement (.ror p b a) := by
  intro wd h
  obtain ⟨hn, ho, r0, f0, f1, f2⟩ := enc_fields_7 0x14070000 p b a (by decide) (by decide)
  refine decode_of rfl h hn ?_
  rw [decode_op_14 _ ho, decodeAlu]
  simp only [r0, fld_eq f0, fld_eq f1, fld_eq f2]
  rfl

theorem EncodeThenDecode.abs (p : BitVec 2) (b : BitVec 7) (a : BitVec 7) : EncodeThenDecode.Statement (.abs p b a) := by
  intro wd h
  obtain ⟨hn, ho, r0, f0, f1, f2⟩ := enc_fields_7 0x14080000 p b a (by decide) (by decide)
  refine decode_of rfl h hn ?_
  rw [decode_op_14 _ ho, decodeAlu]
  simp only [r0, fld_eq f0, fld_eq f1, fld_eq f2]
  rfl

theorem EncodeThenDecode.clz (p : BitVec 2) (b : BitVec 7) (a : BitVec 7) : EncodeThenDecode.Statement (.clz p b a) := by
  intro wd h
  obtain ⟨hn, ho, r0, f0, f1, f2⟩ := enc_fields_7 0x14084000 p b a (by decide) (by decide)
  refine decode_of rfl h hn ?_
  rw [decode_op_14 _ ho, decodeAlu]
  simp only [r0, fld_eq f0, fld_eq f1, fld_eq f2]
  rfl

theorem EncodeThenDecode.ctz (p : BitVec 2) (b : BitVec 7) (a : BitVec 7) : EncodeThenDecode.Statement (.ctz p b a) := by
  intro wd h
  obtain ⟨hn, ho, r0, f0, f1, f2⟩ := enc_fields_7 0x14088000 p b a (by decide) (by decide)
  refine decode_of rfl h hn ?_
  rw [decode_op_14 _ ho, decodeAlu]
  simp only [r0, fld_eq f0, fld_eq f1, fld_eq f2]
  rfl

theorem EncodeThenDecode.popc (p : BitVec 2) (b : BitVec 7) (a : BitVec 7) : EncodeThenDecode.Statement (.popc p b a) := by
  intro wd h
  obtain ⟨hn, ho, r0, f0, f1, f2⟩ := enc_fields_7 0x1408C000 p b a (by decide) (by decide)
  refine decode_of rfl h hn ?_
  rw [decode_op_14 _ ho, decodeAlu]
  simp only [r0, fld_eq f0, fld_eq f1, fld_eq f2]
  rfl

theorem EncodeThenDecode.brev (p : BitVec 2) (b : BitVec 7) (a : BitVec 7) : EncodeThenDecode.Statement (.brev p b a) := by
  intro wd h
  obtain ⟨hn, ho, r0, f0, f1, f2⟩ := enc_fields_7 0x14090000 p b a (by decide) (by decide)
  refine decode_of rfl h hn ?_
  rw [decode_op_14 _ ho, decodeAlu]
  simp only [r0, fld_eq f0, fld_eq f1, fld_eq f2]
  rfl

theorem EncodeThenDecode.bswap (p : BitVec 2) (b : BitVec 7) (a : BitVec 7) : EncodeThenDecode.Statement (.bswap p b a) := by
  intro wd h
  obtain ⟨hn, ho, r0, f0, f1, f2⟩ := enc_fields_7 0x14094000 p b a (by decide) (by decide)
  refine decode_of rfl h hn ?_
  rw [decode_op_14 _ ho, decodeAlu]
  simp only [r0, fld_eq f0, fld_eq f1, fld_eq f2]
  rfl

theorem EncodeThenDecode.sextB (p : BitVec 2) (b : BitVec 7) (a : BitVec 7) : EncodeThenDecode.Statement (.sextB p b a) := by
  intro wd h
  obtain ⟨hn, ho, r0, f0, f1, f2⟩ := enc_fields_7 0x14098000 p b a (by decide) (by decide)
  refine decode_of rfl h hn ?_
  rw [decode_op_14 _ ho, decodeAlu]
  simp only [r0, fld_eq f0, fld_eq f1, fld_eq f2]
  rfl

theorem EncodeThenDecode.sextH (p : BitVec 2) (b : BitVec 7) (a : BitVec 7) : EncodeThenDecode.Statement (.sextH p b a) := by
  intro wd h
  obtain ⟨hn, ho, r0, f0, f1, f2⟩ := enc_fields_7 0x1409C000 p b a (by decide) (by decide)
  refine decode_of rfl h hn ?_
  rw [decode_op_14 _ ho, decodeAlu]
  simp only [r0, fld_eq f0, fld_eq f1, fld_eq f2]
  rfl

theorem EncodeThenDecode.sextW (p : BitVec 2) (b : BitVec 7) (a : BitVec 7) : EncodeThenDecode.Statement (.sextW p b a) := by
  intro wd h
  obtain ⟨hn, ho, r0, f0, f1, f2⟩ := enc_fields_7 0x140A0000 p b a (by decide) (by decide)
  refine decode_of rfl h hn ?_
  rw [decode_op_14 _ ho, decodeAlu]
  simp only [r0, fld_eq f0, fld_eq f1, fld_eq f2]
  rfl

theorem EncodeThenDecode.zextB (p : BitVec 2) (b : BitVec 7) (a : BitVec 7) : EncodeThenDecode.Statement (.zextB p b a) := by
  intro wd h
  obtain ⟨hn, ho, r0, f0, f1, f2⟩ := enc_fields_7 0x140A4000 p b a (by decide) (by decide)
  refine decode_of rfl h hn ?_
  rw [decode_op_14 _ ho, decodeAlu]
  simp only [r0, fld_eq f0, fld_eq f1, fld_eq f2]
  rfl

theorem EncodeThenDecode.zextH (p : BitVec 2) (b : BitVec 7) (a : BitVec 7) : EncodeThenDecode.Statement (.zextH p b a) := by
  intro wd h
  obtain ⟨hn, ho, r0, f0, f1, f2⟩ := enc_fields_7 0x140A8000 p b a (by decide) (by decide)
  refine decode_of rfl h hn ?_
  rw [decode_op_14 _ ho, decodeAlu]
  simp only [r0, fld_eq f0, fld_eq f1, fld_eq f2]
  rfl

theorem EncodeThenDecode.zextW (p : BitVec 2) (b : BitVec 7) (a : BitVec 7) : EncodeThenDecode.Statement (.zextW p b a) := by
  intro wd h
  obtain ⟨hn, ho, r0, f0, f1, f2⟩ := enc_fields_7 0x140AC000 p b a (by decide) (by decide)
  refine decode_of rfl h hn ?_
  rw [decode_op_14 _ ho, decodeAlu]
  simp only [r0, fld_eq f0, fld_eq f1, fld_eq f2]
  rfl

theorem EncodeThenDecode.addW (p : BitVec 2) (b : BitVec 7) (a : BitVec 7) : EncodeThenDecode.Statement (.addW p b a) := by
  intro wd h
  obtain ⟨hn, ho, r0, f0, f1, f2⟩ := enc_fields_7 0x15000000 p b a (by decide) (by decide)
  refine decode_of rfl h hn ?_
  rw [decode_op_15 _ ho, decodeAluW]
  simp only [r0, fld_eq f0, fld_eq f1, fld_eq f2]
  rfl

theorem EncodeThenDecode.subW (p : BitVec 2) (b : BitVec 7) (a : BitVec 7) : EncodeThenDecode.Statement (.subW p b a) := by
  intro wd h
  obtain ⟨hn, ho, r0, f0, f1, f2⟩ := enc_fields_7 0x15004000 p b a (by decide) (by decide)
  refine decode_of rfl h hn ?_
  rw [decode_op_15 _ ho, decodeAluW]
  simp only [r0, fld_eq f0, fld_eq f1, fld_eq f2]
  rfl

theorem EncodeThenDecode.mulW (p : BitVec 2) (b : BitVec 7) (a : BitVec 7) : EncodeThenDecode.Statement (.mulW p b a) := by
  intro wd h
  obtain ⟨hn, ho, r0, f0, f1, f2⟩ := enc_fields_7 0x15008000 p b a (by decide) (by decide)
  refine decode_of rfl h hn ?_
  rw [decode_op_15 _ ho, decodeAluW]
  simp only [r0, fld_eq f0, fld_eq f1, fld_eq f2]
  rfl

theorem EncodeThenDecode.mulhsW (p : BitVec 2) (b : BitVec 7) (a : BitVec 7) : EncodeThenDecode.Statement (.mulhsW p b a) := by
  intro wd h
  obtain ⟨hn, ho, r0, f0, f1, f2⟩ := enc_fields_7 0x1500C000 p b a (by decide) (by decide)
  refine decode_of rfl h hn ?_
  rw [decode_op_15 _ ho, decodeAluW]
  simp only [r0, fld_eq f0, fld_eq f1, fld_eq f2]
  rfl

theorem EncodeThenDecode.mulhuW (p : BitVec 2) (b : BitVec 7) (a : BitVec 7) : EncodeThenDecode.Statement (.mulhuW p b a) := by
  intro wd h
  obtain ⟨hn, ho, r0, f0, f1, f2⟩ := enc_fields_7 0x15010000 p b a (by decide) (by decide)
  refine decode_of rfl h hn ?_
  rw [decode_op_15 _ ho, decodeAluW]
  simp only [r0, fld_eq f0, fld_eq f1, fld_eq f2]
  rfl

theorem EncodeThenDecode.divsW (p : BitVec 2) (b : BitVec 7) (a : BitVec 7) : EncodeThenDecode.Statement (.divsW p b a) := by
  intro wd h
  obtain ⟨hn, ho, r0, f0, f1, f2⟩ := enc_fields_7 0x15014000 p b a (by decide) (by decide)
  refine decode_of rfl h hn ?_
  rw [decode_op_15 _ ho, decodeAluW]
  simp only [r0, fld_eq f0, fld_eq f1, fld_eq f2]
  rfl

theorem EncodeThenDecode.divuW (p : BitVec 2) (b : BitVec 7) (a : BitVec 7) : EncodeThenDecode.Statement (.divuW p b a) := by
  intro wd h
  obtain ⟨hn, ho, r0, f0, f1, f2⟩ := enc_fields_7 0x15018000 p b a (by decide) (by decide)
  refine decode_of rfl h hn ?_
  rw [decode_op_15 _ ho, decodeAluW]
  simp only [r0, fld_eq f0, fld_eq f1, fld_eq f2]
  rfl

theorem EncodeThenDecode.remsW (p : BitVec 2) (b : BitVec 7) (a : BitVec 7) : EncodeThenDecode.Statement (.remsW p b a) := by
  intro wd h
  obtain ⟨hn, ho, r0, f0, f1, f2⟩ := enc_fields_7 0x1501C000 p b a (by decide) (by decide)
  refine decode_of rfl h hn ?_
  rw [decode_op_15 _ ho, decodeAluW]
  simp only [r0, fld_eq f0, fld_eq f1, fld_eq f2]
  rfl

theorem EncodeThenDecode.remuW (p : BitVec 2) (b : BitVec 7) (a : BitVec 7) : EncodeThenDecode.Statement (.remuW p b a) := by
  intro wd h
  obtain ⟨hn, ho, r0, f0, f1, f2⟩ := enc_fields_7 0x15020000 p b a (by decide) (by decide)
  refine decode_of rfl h hn ?_
  rw [decode_op_15 _ ho, decodeAluW]
  simp only [r0, fld_eq f0, fld_eq f1, fld_eq f2]
  rfl

theorem EncodeThenDecode.minW (p : BitVec 2) (b : BitVec 7) (a : BitVec 7) : EncodeThenDecode.Statement (.minW p b a) := by
  intro wd h
  obtain ⟨hn, ho, r0, f0, f1, f2⟩ := enc_fields_7 0x15024000 p b a (by decide) (by decide)
  refine decode_of rfl h hn ?_
  rw [decode_op_15 _ ho, decodeAluW]
  simp only [r0, fld_eq f0, fld_eq f1, fld_eq f2]
  rfl

theorem EncodeThenDecode.maxW (p : BitVec 2) (b : BitVec 7) (a : BitVec 7) : EncodeThenDecode.Statement (.maxW p b a) := by
  intro wd h
  obtain ⟨hn, ho, r0, f0, f1, f2⟩ := enc_fields_7 0x15028000 p b a (by decide) (by decide)
  refine decode_of rfl h hn ?_
  rw [decode_op_15 _ ho, decodeAluW]
  simp only [r0, fld_eq f0, fld_eq f1, fld_eq f2]
  rfl

theorem EncodeThenDecode.minuW (p : BitVec 2) (b : BitVec 7) (a : BitVec 7) : EncodeThenDecode.Statement (.minuW p b a) := by
  intro wd h
  obtain ⟨hn, ho, r0, f0, f1, f2⟩ := enc_fields_7 0x1502C000 p b a (by decide) (by decide)
  refine decode_of rfl h hn ?_
  rw [decode_op_15 _ ho, decodeAluW]
  simp only [r0, fld_eq f0, fld_eq f1, fld_eq f2]
  rfl

theorem EncodeThenDecode.maxuW (p : BitVec 2) (b : BitVec 7) (a : BitVec 7) : EncodeThenDecode.Statement (.maxuW p b a) := by
  intro wd h
  obtain ⟨hn, ho, r0, f0, f1, f2⟩ := enc_fields_7 0x15030000 p b a (by decide) (by decide)
  refine decode_of rfl h hn ?_
  rw [decode_op_15 _ ho, decodeAluW]
  simp only [r0, fld_eq f0, fld_eq f1, fld_eq f2]
  rfl

theorem EncodeThenDecode.andW (p : BitVec 2) (b : BitVec 7) (a : BitVec 7) : EncodeThenDecode.Statement (.andW p b a) := by
  intro wd h
  obtain ⟨hn, ho, r0, f0, f1, f2⟩ := enc_fields_7 0x15040000 p b a (by decide) (by decide)
  refine decode_of rfl h hn ?_
  rw [decode_op_15 _ ho, decodeAluW]
  simp only [r0, fld_eq f0, fld_eq f1, fld_eq f2]
  rfl

theorem EncodeThenDecode.orW (p : BitVec 2) (b : BitVec 7) (a : BitVec 7) : EncodeThenDecode.Statement (.orW p b a) := by
  intro wd h
  obtain ⟨hn, ho, r0, f0, f1, f2⟩ := enc_fields_7 0x15044000 p b a (by decide) (by decide)
  refine decode_of rfl h hn ?_
  rw [decode_op_15 _ ho, decodeAluW]
  simp only [r0, fld_eq f0, fld_eq f1, fld_eq f2]
  rfl

theorem EncodeThenDecode.xorW (p : BitVec 2) (b : BitVec 7) (a : BitVec 7) : EncodeThenDecode.Statement (.xorW p b a) := by
  intro wd h
  obtain ⟨hn, ho, r0, f0, f1, f2⟩ := enc_fields_7 0x15048000 p b a (by decide) (by decide)
  refine decode_of rfl h hn ?_
  rw [decode_op_15 _ ho, decodeAluW]
  simp only [r0, fld_eq f0, fld_eq f1, fld_eq f2]
  rfl

theorem EncodeThenDecode.andnW (p : BitVec 2) (b : BitVec 7) (a : BitVec 7) : EncodeThenDecode.Statement (.andnW p b a) := by
  intro wd h
  obtain ⟨hn, ho, r0, f0, f1, f2⟩ := enc_fields_7 0x1504C000 p b a (by decide) (by decide)
  refine decode_of rfl h hn ?_
  rw [decode_op_15 _ ho, decodeAluW]
  simp only [r0, fld_eq f0, fld_eq f1, fld_eq f2]
  rfl

theorem EncodeThenDecode.ornW (p : BitVec 2) (b : BitVec 7) (a : BitVec 7) : EncodeThenDecode.Statement (.ornW p b a) := by
  intro wd h
  obtain ⟨hn, ho, r0, f0, f1, f2⟩ := enc_fields_7 0x15050000 p b a (by decide) (by decide)
  refine decode_of rfl h hn ?_
  rw [decode_op_15 _ ho, decodeAluW]
  simp only [r0, fld_eq f0, fld_eq f1, fld_eq f2]
  rfl

theorem EncodeThenDecode.xnorW (p : BitVec 2) (b : BitVec 7) (a : BitVec 7) : EncodeThenDecode.Statement (.xnorW p b a) := by
  intro wd h
  obtain ⟨hn, ho, r0, f0, f1, f2⟩ := enc_fields_7 0x15054000 p b a (by decide) (by decide)
  refine decode_of rfl h hn ?_
  rw [decode_op_15 _ ho, decodeAluW]
  simp only [r0, fld_eq f0, fld_eq f1, fld_eq f2]
  rfl

theorem EncodeThenDecode.shlW (p : BitVec 2) (b : BitVec 7) (a : BitVec 7) : EncodeThenDecode.Statement (.shlW p b a) := by
  intro wd h
  obtain ⟨hn, ho, r0, f0, f1, f2⟩ := enc_fields_7 0x15060000 p b a (by decide) (by decide)
  refine decode_of rfl h hn ?_
  rw [decode_op_15 _ ho, decodeAluW]
  simp only [r0, fld_eq f0, fld_eq f1, fld_eq f2]
  rfl

theorem EncodeThenDecode.shrW (p : BitVec 2) (b : BitVec 7) (a : BitVec 7) : EncodeThenDecode.Statement (.shrW p b a) := by
  intro wd h
  obtain ⟨hn, ho, r0, f0, f1, f2⟩ := enc_fields_7 0x15064000 p b a (by decide) (by decide)
  refine decode_of rfl h hn ?_
  rw [decode_op_15 _ ho, decodeAluW]
  simp only [r0, fld_eq f0, fld_eq f1, fld_eq f2]
  rfl

theorem EncodeThenDecode.sarW (p : BitVec 2) (b : BitVec 7) (a : BitVec 7) : EncodeThenDecode.Statement (.sarW p b a) := by
  intro wd h
  obtain ⟨hn, ho, r0, f0, f1, f2⟩ := enc_fields_7 0x15068000 p b a (by decide) (by decide)
  refine decode_of rfl h hn ?_
  rw [decode_op_15 _ ho, decodeAluW]
  simp only [r0, fld_eq f0, fld_eq f1, fld_eq f2]
  rfl

theorem EncodeThenDecode.rolW (p : BitVec 2) (b : BitVec 7) (a : BitVec 7) : EncodeThenDecode.Statement (.rolW p b a) := by
  intro wd h
  obtain ⟨hn, ho, r0, f0, f1, f2⟩ := enc_fields_7 0x1506C000 p b a (by decide) (by decide)
  refine decode_of rfl h hn ?_
  rw [decode_op_15 _ ho, decodeAluW]
  simp only [r0, fld_eq f0, fld_eq f1, fld_eq f2]
  rfl

theorem EncodeThenDecode.rorW (p : BitVec 2) (b : BitVec 7) (a : BitVec 7) : EncodeThenDecode.Statement (.rorW p b a) := by
  intro wd h
  obtain ⟨hn, ho, r0, f0, f1, f2⟩ := enc_fields_7 0x15070000 p b a (by decide) (by decide)
  refine decode_of rfl h hn ?_
  rw [decode_op_15 _ ho, decodeAluW]
  simp only [r0, fld_eq f0, fld_eq f1, fld_eq f2]
  rfl

theorem EncodeThenDecode.absW (p : BitVec 2) (b : BitVec 7) (a : BitVec 7) : EncodeThenDecode.Statement (.absW p b a) := by
  intro wd h
  obtain ⟨hn, ho, r0, f0, f1, f2⟩ := enc_fields_7 0x15080000 p b a (by decide) (by decide)
  refine decode_of rfl h hn ?_
  rw [decode_op_15 _ ho, decodeAluW]
  simp only [r0, fld_eq f0, fld_eq f1, fld_eq f2]
  rfl

theorem EncodeThenDecode.clzW (p : BitVec 2) (b : BitVec 7) (a : BitVec 7) : EncodeThenDecode.Statement (.clzW p b a) := by
  intro wd h
  obtain ⟨hn, ho, r0, f0, f1, f2⟩ := enc_fields_7 0x15084000 p b a (by decide) (by decide)
  refine decode_of rfl h hn ?_
  rw [decode_op_15 _ ho, decodeAluW]
  simp only [r0, fld_eq f0, fld_eq f1, fld_eq f2]
  rfl

theorem EncodeThenDecode.ctzW (p : BitVec 2) (b : BitVec 7) (a : BitVec 7) : EncodeThenDecode.Statement (.ctzW p b a) := by
  intro wd h
  obtain ⟨hn, ho, r0, f0, f1, f2⟩ := enc_fields_7 0x15088000 p b a (by decide) (by decide)
  refine decode_of rfl h hn ?_
  rw [decode_op_15 _ ho, decodeAluW]
  simp only [r0, fld_eq f0, fld_eq f1, fld_eq f2]
  rfl

theorem EncodeThenDecode.popcW (p : BitVec 2) (b : BitVec 7) (a : BitVec 7) : EncodeThenDecode.Statement (.popcW p b a) := by
  intro wd h
  obtain ⟨hn, ho, r0, f0, f1, f2⟩ := enc_fields_7 0x1508C000 p b a (by decide) (by decide)
  refine decode_of rfl h hn ?_
  rw [decode_op_15 _ ho, decodeAluW]
  simp only [r0, fld_eq f0, fld_eq f1, fld_eq f2]
  rfl

theorem EncodeThenDecode.brevW (p : BitVec 2) (b : BitVec 7) (a : BitVec 7) : EncodeThenDecode.Statement (.brevW p b a) := by
  intro wd h
  obtain ⟨hn, ho, r0, f0, f1, f2⟩ := enc_fields_7 0x15090000 p b a (by decide) (by decide)
  refine decode_of rfl h hn ?_
  rw [decode_op_15 _ ho, decodeAluW]
  simp only [r0, fld_eq f0, fld_eq f1, fld_eq f2]
  rfl

theorem EncodeThenDecode.bswapW (p : BitVec 2) (b : BitVec 7) (a : BitVec 7) : EncodeThenDecode.Statement (.bswapW p b a) := by
  intro wd h
  obtain ⟨hn, ho, r0, f0, f1, f2⟩ := enc_fields_7 0x15094000 p b a (by decide) (by decide)
  refine decode_of rfl h hn ?_
  rw [decode_op_15 _ ho, decodeAluW]
  simp only [r0, fld_eq f0, fld_eq f1, fld_eq f2]
  rfl

theorem EncodeThenDecode.addi (p : BitVec 2) (i : BitVec 15) (a : BitVec 7) : EncodeThenDecode.Statement (.addi p i a) := by
  intro wd h
  obtain ⟨hn, ho, f0, f1, f2⟩ := enc_fields_9 0x16000000 p i a (by decide) (by decide)
  refine decode_of rfl h hn ?_
  rw [decode_op_16 _ ho]
  simp only [fld_eq f0, fld_eq f1, fld_eq f2]

theorem EncodeThenDecode.addiW (p : BitVec 2) (i : BitVec 15) (a : BitVec 7) : EncodeThenDecode.Statement (.addiW p i a) := by
  intro wd h
  obtain ⟨hn, ho, f0, f1, f2⟩ := enc_fields_9 0x17000000 p i a (by decide) (by decide)
  refine decode_of rfl h hn ?_
  rw [decode_op_17 _ ho]
  simp only [fld_eq f0, fld_eq f1, fld_eq f2]

theorem EncodeThenDecode.andi (p : BitVec 2) (i : BitVec 15) (a : BitVec 7) : EncodeThenDecode.Statement (.andi p i a) := by
  intro wd h
  obtain ⟨hn, ho, f0, f1, f2⟩ := enc_fields_9 0x18000000 p i a (by decide) (by decide)
  refine decode_of rfl h hn ?_
  rw [decode_op_18 _ ho]
  simp only [fld_eq f0, fld_eq f1, fld_eq f2]

theorem EncodeThenDecode.ori (p : BitVec 2) (i : BitVec 15) (a : BitVec 7) : EncodeThenDecode.Statement (.ori p i a) := by
  intro wd h
  obtain ⟨hn, ho, f0, f1, f2⟩ := enc_fields_9 0x19000000 p i a (by decide) (by decide)
  refine decode_of rfl h hn ?_
  rw [decode_op_19 _ ho]
  simp only [fld_eq f0, fld_eq f1, fld_eq f2]

theorem EncodeThenDecode.xori (p : BitVec 2) (i : BitVec 15) (a : BitVec 7) : EncodeThenDecode.Statement (.xori p i a) := by
  intro wd h
  obtain ⟨hn, ho, f0, f1, f2⟩ := enc_fields_9 0x1A000000 p i a (by decide) (by decide)
  refine decode_of rfl h hn ?_
  rw [decode_op_1a _ ho]
  simp only [fld_eq f0, fld_eq f1, fld_eq f2]

theorem EncodeThenDecode.shli (p : BitVec 2) (w : BitVec 1) (n : BitVec 6) (a : BitVec 7) : EncodeThenDecode.Statement (.shli p w n a) := by
  intro wd h
  obtain ⟨hn, ho, r0, f0, f1, f2, f3⟩ := enc_fields_14 0x1B000000 p w n a (by decide) (by decide)
  refine decode_of rfl h hn ?_
  rw [decode_op_1b _ ho]
  simp only [r0, fld_eq f0, fld_eq f1, fld_eq f2, fld_eq f3]
  rfl

theorem EncodeThenDecode.shri (p : BitVec 2) (w : BitVec 1) (n : BitVec 6) (a : BitVec 7) : EncodeThenDecode.Statement (.shri p w n a) := by
  intro wd h
  obtain ⟨hn, ho, r0, f0, f1, f2, f3⟩ := enc_fields_14 0x1C000000 p w n a (by decide) (by decide)
  refine decode_of rfl h hn ?_
  rw [decode_op_1c _ ho]
  simp only [r0, fld_eq f0, fld_eq f1, fld_eq f2, fld_eq f3]
  rfl

theorem EncodeThenDecode.sari (p : BitVec 2) (w : BitVec 1) (n : BitVec 6) (a : BitVec 7) : EncodeThenDecode.Statement (.sari p w n a) := by
  intro wd h
  obtain ⟨hn, ho, r0, f0, f1, f2, f3⟩ := enc_fields_14 0x1D000000 p w n a (by decide) (by decide)
  refine decode_of rfl h hn ?_
  rw [decode_op_1d _ ho]
  simp only [r0, fld_eq f0, fld_eq f1, fld_eq f2, fld_eq f3]
  rfl

theorem EncodeThenDecode.roli (p : BitVec 2) (w : BitVec 1) (n : BitVec 6) (a : BitVec 7) : EncodeThenDecode.Statement (.roli p w n a) := by
  intro wd h
  obtain ⟨hn, ho, r0, f0, f1, f2, f3⟩ := enc_fields_14 0x1E000000 p w n a (by decide) (by decide)
  refine decode_of rfl h hn ?_
  rw [decode_op_1e _ ho]
  simp only [r0, fld_eq f0, fld_eq f1, fld_eq f2, fld_eq f3]
  rfl

theorem EncodeThenDecode.rori (p : BitVec 2) (w : BitVec 1) (n : BitVec 6) (a : BitVec 7) : EncodeThenDecode.Statement (.rori p w n a) := by
  intro wd h
  obtain ⟨hn, ho, r0, f0, f1, f2, f3⟩ := enc_fields_14 0x1F000000 p w n a (by decide) (by decide)
  refine decode_of rfl h hn ?_
  rw [decode_op_1f _ ho]
  simp only [r0, fld_eq f0, fld_eq f1, fld_eq f2, fld_eq f3]
  rfl

theorem EncodeThenDecode.teq (p : BitVec 2) (w : BitVec 1) (b : BitVec 7) (a : BitVec 7) : EncodeThenDecode.Statement (.teq p w b a) := by
  intro wd h
  obtain ⟨hn, ho, r0, f0, f1, f2, f3⟩ := enc_fields_15 0x20000000 p w b a (by decide) (by decide)
  refine decode_of rfl h hn ?_
  rw [decode_op_20 _ ho, decodeTest]
  simp only [r0, fld_eq f0, fld_eq f1, fld_eq f2, fld_eq f3]
  rfl

theorem EncodeThenDecode.tne (p : BitVec 2) (w : BitVec 1) (b : BitVec 7) (a : BitVec 7) : EncodeThenDecode.Statement (.tne p w b a) := by
  intro wd h
  obtain ⟨hn, ho, r0, f0, f1, f2, f3⟩ := enc_fields_15 0x20004000 p w b a (by decide) (by decide)
  refine decode_of rfl h hn ?_
  rw [decode_op_20 _ ho, decodeTest]
  simp only [r0, fld_eq f0, fld_eq f1, fld_eq f2, fld_eq f3]
  rfl

theorem EncodeThenDecode.tlt (p : BitVec 2) (w : BitVec 1) (b : BitVec 7) (a : BitVec 7) : EncodeThenDecode.Statement (.tlt p w b a) := by
  intro wd h
  obtain ⟨hn, ho, r0, f0, f1, f2, f3⟩ := enc_fields_15 0x20008000 p w b a (by decide) (by decide)
  refine decode_of rfl h hn ?_
  rw [decode_op_20 _ ho, decodeTest]
  simp only [r0, fld_eq f0, fld_eq f1, fld_eq f2, fld_eq f3]
  rfl

theorem EncodeThenDecode.tle (p : BitVec 2) (w : BitVec 1) (b : BitVec 7) (a : BitVec 7) : EncodeThenDecode.Statement (.tle p w b a) := by
  intro wd h
  obtain ⟨hn, ho, r0, f0, f1, f2, f3⟩ := enc_fields_15 0x2000C000 p w b a (by decide) (by decide)
  refine decode_of rfl h hn ?_
  rw [decode_op_20 _ ho, decodeTest]
  simp only [r0, fld_eq f0, fld_eq f1, fld_eq f2, fld_eq f3]
  rfl

theorem EncodeThenDecode.tltu (p : BitVec 2) (w : BitVec 1) (b : BitVec 7) (a : BitVec 7) : EncodeThenDecode.Statement (.tltu p w b a) := by
  intro wd h
  obtain ⟨hn, ho, r0, f0, f1, f2, f3⟩ := enc_fields_15 0x20010000 p w b a (by decide) (by decide)
  refine decode_of rfl h hn ?_
  rw [decode_op_20 _ ho, decodeTest]
  simp only [r0, fld_eq f0, fld_eq f1, fld_eq f2, fld_eq f3]
  rfl

theorem EncodeThenDecode.tleu (p : BitVec 2) (w : BitVec 1) (b : BitVec 7) (a : BitVec 7) : EncodeThenDecode.Statement (.tleu p w b a) := by
  intro wd h
  obtain ⟨hn, ho, r0, f0, f1, f2, f3⟩ := enc_fields_15 0x20014000 p w b a (by decide) (by decide)
  refine decode_of rfl h hn ?_
  rw [decode_op_20 _ ho, decodeTest]
  simp only [r0, fld_eq f0, fld_eq f1, fld_eq f2, fld_eq f3]
  rfl

theorem EncodeThenDecode.teqi (p : BitVec 2) (i : BitVec 15) (a : BitVec 7) : EncodeThenDecode.Statement (.teqi p i a) := by
  intro wd h
  obtain ⟨hn, ho, f0, f1, f2⟩ := enc_fields_9 0x21000000 p i a (by decide) (by decide)
  refine decode_of rfl h hn ?_
  rw [decode_op_21 _ ho]
  simp only [fld_eq f0, fld_eq f1, fld_eq f2]

theorem EncodeThenDecode.tnei (p : BitVec 2) (i : BitVec 15) (a : BitVec 7) : EncodeThenDecode.Statement (.tnei p i a) := by
  intro wd h
  obtain ⟨hn, ho, f0, f1, f2⟩ := enc_fields_9 0x22000000 p i a (by decide) (by decide)
  refine decode_of rfl h hn ?_
  rw [decode_op_22 _ ho]
  simp only [fld_eq f0, fld_eq f1, fld_eq f2]

theorem EncodeThenDecode.tlti (p : BitVec 2) (i : BitVec 15) (a : BitVec 7) : EncodeThenDecode.Statement (.tlti p i a) := by
  intro wd h
  obtain ⟨hn, ho, f0, f1, f2⟩ := enc_fields_9 0x23000000 p i a (by decide) (by decide)
  refine decode_of rfl h hn ?_
  rw [decode_op_23 _ ho]
  simp only [fld_eq f0, fld_eq f1, fld_eq f2]

theorem EncodeThenDecode.tlei (p : BitVec 2) (i : BitVec 15) (a : BitVec 7) : EncodeThenDecode.Statement (.tlei p i a) := by
  intro wd h
  obtain ⟨hn, ho, f0, f1, f2⟩ := enc_fields_9 0x24000000 p i a (by decide) (by decide)
  refine decode_of rfl h hn ?_
  rw [decode_op_24 _ ho]
  simp only [fld_eq f0, fld_eq f1, fld_eq f2]

theorem EncodeThenDecode.tltui (p : BitVec 2) (i : BitVec 15) (a : BitVec 7) : EncodeThenDecode.Statement (.tltui p i a) := by
  intro wd h
  obtain ⟨hn, ho, f0, f1, f2⟩ := enc_fields_9 0x25000000 p i a (by decide) (by decide)
  refine decode_of rfl h hn ?_
  rw [decode_op_25 _ ho]
  simp only [fld_eq f0, fld_eq f1, fld_eq f2]

theorem EncodeThenDecode.tleui (p : BitVec 2) (i : BitVec 15) (a : BitVec 7) : EncodeThenDecode.Statement (.tleui p i a) := by
  intro wd h
  obtain ⟨hn, ho, f0, f1, f2⟩ := enc_fields_9 0x26000000 p i a (by decide) (by decide)
  refine decode_of rfl h hn ?_
  rw [decode_op_26 _ ho]
  simp only [fld_eq f0, fld_eq f1, fld_eq f2]

theorem EncodeThenDecode.lop3 (t : BitVec 8) (b : BitVec 7) (a : BitVec 7) : EncodeThenDecode.Statement (.lop3 t b a) := by
  intro wd h
  obtain ⟨hn, ho, r0, f0, f1, f2⟩ := enc_fields_16 0x27000000 t b a (by decide) (by decide)
  refine decode_of rfl h hn ?_
  rw [decode_op_27 _ ho]
  simp only [r0, fld_eq f0, fld_eq f1, fld_eq f2]
  rfl

theorem EncodeThenDecode.fshl (w : BitVec 1) (b : BitVec 7) (a : BitVec 7) : EncodeThenDecode.Statement (.fshl w b a) := by
  intro wd h
  obtain ⟨hn, ho, r0, f0, f1, f2⟩ := enc_fields_17 0x28000000 w b a (by decide) (by decide)
  refine decode_of rfl h hn ?_
  rw [decode_op_28 _ ho]
  simp only [r0, fld_eq f0, fld_eq f1, fld_eq f2]
  rfl

theorem EncodeThenDecode.fshr (w : BitVec 1) (b : BitVec 7) (a : BitVec 7) : EncodeThenDecode.Statement (.fshr w b a) := by
  intro wd h
  obtain ⟨hn, ho, r0, f0, f1, f2⟩ := enc_fields_17 0x29000000 w b a (by decide) (by decide)
  refine decode_of rfl h hn ?_
  rw [decode_op_29 _ ho]
  simp only [r0, fld_eq f0, fld_eq f1, fld_eq f2]
  rfl

theorem EncodeThenDecode.extb (p : BitVec 2) (x : BitVec 1) (w : BitVec 6) (o : BitVec 6) (a : BitVec 7) : EncodeThenDecode.Statement (.extb p x w o a) := by
  intro wd h
  obtain ⟨hn, ho, r0, f0, f1, f2, f3, f4⟩ := enc_fields_18 0x2A000000 p x w o a (by decide) (by decide)
  refine decode_of rfl h hn ?_
  rw [decode_op_2a _ ho]
  simp only [r0, fld_eq f0, fld_eq f1, fld_eq f2, fld_eq f3, fld_eq f4]
  rfl

theorem EncodeThenDecode.insb (b : BitVec 7) (a : BitVec 7) : EncodeThenDecode.Statement (.insb b a) := by
  intro wd h
  obtain ⟨hn, ho, r0, f0, f1⟩ := enc_fields_13 0x2B000000 b a (by decide) (by decide)
  refine decode_of rfl h hn ?_
  rw [decode_op_2b _ ho]
  simp only [r0, fld_eq f0, fld_eq f1]
  rfl

theorem EncodeThenDecode.appc (p : BitVec 2) (i : BitVec 14) (a : BitVec 7) : EncodeThenDecode.Statement (.appc p i a) := by
  intro wd h
  obtain ⟨hn, ho, r0, f0, f1, f2⟩ := enc_fields_19 0x2C000000 p i a (by decide) (by decide)
  refine decode_of rfl h hn ?_
  rw [decode_op_2c _ ho]
  simp only [r0, fld_eq f0, fld_eq f1, fld_eq f2]
  rfl

theorem EncodeThenDecode.fadd (p : BitVec 2) (m : BitVec 3) (b : BitVec 7) (a : BitVec 7) : EncodeThenDecode.Statement (.fadd p m b a) := by
  intro wd h
  obtain ⟨hn, ho, r0, f0, f1, f2, f3⟩ := enc_fields_20 0x30000000 p m b a (by decide) (by decide)
  refine decode_of rfl h hn ?_
  rw [decode_op_30 _ ho, decodeFp]
  simp only [r0, fld_eq f0, fld_eq f1, fld_eq f2, fld_eq f3]
  rfl

theorem EncodeThenDecode.fsub (p : BitVec 2) (m : BitVec 3) (b : BitVec 7) (a : BitVec 7) : EncodeThenDecode.Statement (.fsub p m b a) := by
  intro wd h
  obtain ⟨hn, ho, r0, f0, f1, f2, f3⟩ := enc_fields_20 0x30004000 p m b a (by decide) (by decide)
  refine decode_of rfl h hn ?_
  rw [decode_op_30 _ ho, decodeFp]
  simp only [r0, fld_eq f0, fld_eq f1, fld_eq f2, fld_eq f3]
  rfl

theorem EncodeThenDecode.fmul (p : BitVec 2) (m : BitVec 3) (b : BitVec 7) (a : BitVec 7) : EncodeThenDecode.Statement (.fmul p m b a) := by
  intro wd h
  obtain ⟨hn, ho, r0, f0, f1, f2, f3⟩ := enc_fields_20 0x30008000 p m b a (by decide) (by decide)
  refine decode_of rfl h hn ?_
  rw [decode_op_30 _ ho, decodeFp]
  simp only [r0, fld_eq f0, fld_eq f1, fld_eq f2, fld_eq f3]
  rfl

theorem EncodeThenDecode.fdiv (p : BitVec 2) (m : BitVec 3) (b : BitVec 7) (a : BitVec 7) : EncodeThenDecode.Statement (.fdiv p m b a) := by
  intro wd h
  obtain ⟨hn, ho, r0, f0, f1, f2, f3⟩ := enc_fields_20 0x3000C000 p m b a (by decide) (by decide)
  refine decode_of rfl h hn ?_
  rw [decode_op_30 _ ho, decodeFp]
  simp only [r0, fld_eq f0, fld_eq f1, fld_eq f2, fld_eq f3]
  rfl

theorem EncodeThenDecode.fsqrt (p : BitVec 2) (m : BitVec 3) (b : BitVec 7) (a : BitVec 7) : EncodeThenDecode.Statement (.fsqrt p m b a) := by
  intro wd h
  obtain ⟨hn, ho, r0, f0, f1, f2, f3⟩ := enc_fields_20 0x30010000 p m b a (by decide) (by decide)
  refine decode_of rfl h hn ?_
  rw [decode_op_30 _ ho, decodeFp]
  simp only [r0, fld_eq f0, fld_eq f1, fld_eq f2, fld_eq f3]
  rfl

theorem EncodeThenDecode.fmin (p : BitVec 2) (b : BitVec 7) (a : BitVec 7) : EncodeThenDecode.Statement (.fmin p b a) := by
  intro wd h
  obtain ⟨hn, ho, r0, r1, f0, f1, f2⟩ := enc_fields_21 0x30014000 p b a (by decide) (by decide)
  refine decode_of rfl h hn ?_
  rw [decode_op_30 _ ho, decodeFp]
  simp only [r0, r1, fld_eq f0, fld_eq f1, fld_eq f2]
  rfl

theorem EncodeThenDecode.fmax (p : BitVec 2) (b : BitVec 7) (a : BitVec 7) : EncodeThenDecode.Statement (.fmax p b a) := by
  intro wd h
  obtain ⟨hn, ho, r0, r1, f0, f1, f2⟩ := enc_fields_21 0x30018000 p b a (by decide) (by decide)
  refine decode_of rfl h hn ?_
  rw [decode_op_30 _ ho, decodeFp]
  simp only [r0, r1, fld_eq f0, fld_eq f1, fld_eq f2]
  rfl

theorem EncodeThenDecode.fabs (p : BitVec 2) (b : BitVec 7) (a : BitVec 7) : EncodeThenDecode.Statement (.fabs p b a) := by
  intro wd h
  obtain ⟨hn, ho, r0, r1, f0, f1, f2⟩ := enc_fields_21 0x3001C000 p b a (by decide) (by decide)
  refine decode_of rfl h hn ?_
  rw [decode_op_30 _ ho, decodeFp]
  simp only [r0, r1, fld_eq f0, fld_eq f1, fld_eq f2]
  rfl

theorem EncodeThenDecode.fneg (p : BitVec 2) (b : BitVec 7) (a : BitVec 7) : EncodeThenDecode.Statement (.fneg p b a) := by
  intro wd h
  obtain ⟨hn, ho, r0, r1, f0, f1, f2⟩ := enc_fields_21 0x30020000 p b a (by decide) (by decide)
  refine decode_of rfl h hn ?_
  rw [decode_op_30 _ ho, decodeFp]
  simp only [r0, r1, fld_eq f0, fld_eq f1, fld_eq f2]
  rfl

theorem EncodeThenDecode.fteq (p : BitVec 2) (b : BitVec 7) (a : BitVec 7) : EncodeThenDecode.Statement (.fteq p b a) := by
  intro wd h
  obtain ⟨hn, ho, r0, r1, f0, f1, f2⟩ := enc_fields_21 0x30024000 p b a (by decide) (by decide)
  refine decode_of rfl h hn ?_
  rw [decode_op_30 _ ho, decodeFp]
  simp only [r0, r1, fld_eq f0, fld_eq f1, fld_eq f2]
  rfl

theorem EncodeThenDecode.ftlt (p : BitVec 2) (b : BitVec 7) (a : BitVec 7) : EncodeThenDecode.Statement (.ftlt p b a) := by
  intro wd h
  obtain ⟨hn, ho, r0, r1, f0, f1, f2⟩ := enc_fields_21 0x30028000 p b a (by decide) (by decide)
  refine decode_of rfl h hn ?_
  rw [decode_op_30 _ ho, decodeFp]
  simp only [r0, r1, fld_eq f0, fld_eq f1, fld_eq f2]
  rfl

theorem EncodeThenDecode.ftle (p : BitVec 2) (b : BitVec 7) (a : BitVec 7) : EncodeThenDecode.Statement (.ftle p b a) := by
  intro wd h
  obtain ⟨hn, ho, r0, r1, f0, f1, f2⟩ := enc_fields_21 0x3002C000 p b a (by decide) (by decide)
  refine decode_of rfl h hn ?_
  rw [decode_op_30 _ ho, decodeFp]
  simp only [r0, r1, fld_eq f0, fld_eq f1, fld_eq f2]
  rfl

theorem EncodeThenDecode.ftun (p : BitVec 2) (b : BitVec 7) (a : BitVec 7) : EncodeThenDecode.Statement (.ftun p b a) := by
  intro wd h
  obtain ⟨hn, ho, r0, r1, f0, f1, f2⟩ := enc_fields_21 0x30030000 p b a (by decide) (by decide)
  refine decode_of rfl h hn ?_
  rw [decode_op_30 _ ho, decodeFp]
  simp only [r0, r1, fld_eq f0, fld_eq f1, fld_eq f2]
  rfl

theorem EncodeThenDecode.fclass (p : BitVec 2) (b : BitVec 7) (a : BitVec 7) : EncodeThenDecode.Statement (.fclass p b a) := by
  intro wd h
  obtain ⟨hn, ho, r0, r1, f0, f1, f2⟩ := enc_fields_21 0x30034000 p b a (by decide) (by decide)
  refine decode_of rfl h hn ?_
  rw [decode_op_30 _ ho, decodeFp]
  simp only [r0, r1, fld_eq f0, fld_eq f1, fld_eq f2]
  rfl

theorem EncodeThenDecode.frnd (p : BitVec 2) (m : BitVec 3) (b : BitVec 7) (a : BitVec 7) : EncodeThenDecode.Statement (.frnd p m b a) := by
  intro wd h
  obtain ⟨hn, ho, r0, f0, f1, f2, f3⟩ := enc_fields_20 0x30038000 p m b a (by decide) (by decide)
  refine decode_of rfl h hn ?_
  rw [decode_op_30 _ ho, decodeFp]
  simp only [r0, fld_eq f0, fld_eq f1, fld_eq f2, fld_eq f3]
  rfl

theorem EncodeThenDecode.fexp2 (p : BitVec 2) (m : BitVec 3) (b : BitVec 7) (a : BitVec 7) : EncodeThenDecode.Statement (.fexp2 p m b a) := by
  intro wd h
  obtain ⟨hn, ho, r0, f0, f1, f2, f3⟩ := enc_fields_20 0x3003C000 p m b a (by decide) (by decide)
  refine decode_of rfl h hn ?_
  rw [decode_op_30 _ ho, decodeFp]
  simp only [r0, fld_eq f0, fld_eq f1, fld_eq f2, fld_eq f3]
  rfl

theorem EncodeThenDecode.flog2 (p : BitVec 2) (m : BitVec 3) (b : BitVec 7) (a : BitVec 7) : EncodeThenDecode.Statement (.flog2 p m b a) := by
  intro wd h
  obtain ⟨hn, ho, r0, f0, f1, f2, f3⟩ := enc_fields_20 0x30040000 p m b a (by decide) (by decide)
  refine decode_of rfl h hn ?_
  rw [decode_op_30 _ ho, decodeFp]
  simp only [r0, fld_eq f0, fld_eq f1, fld_eq f2, fld_eq f3]
  rfl

theorem EncodeThenDecode.ffma (m : BitVec 3) (b : BitVec 7) (a : BitVec 7) : EncodeThenDecode.Statement (.ffma m b a) := by
  intro wd h
  obtain ⟨hn, ho, r0, r1, f0, f1, f2⟩ := enc_fields_22 0x31000000 m b a (by decide) (by decide)
  refine decode_of rfl h hn ?_
  rw [decode_op_31 _ ho]
  simp only [r0, r1, fld_eq f0, fld_eq f1, fld_eq f2]
  rfl

theorem EncodeThenDecode.cvtfiW (p : BitVec 2) (m : BitVec 3) (b : BitVec 7) (a : BitVec 7) : EncodeThenDecode.Statement (.cvtfiW p m b a) := by
  intro wd h
  obtain ⟨hn, ho, r0, f0, f1, f2, f3⟩ := enc_fields_20 0x32000000 p m b a (by decide) (by decide)
  refine decode_of rfl h hn ?_
  rw [decode_op_32 _ ho, decodeCvt]
  simp only [r0, fld_eq f0, fld_eq f1, fld_eq f2, fld_eq f3]
  rfl

theorem EncodeThenDecode.cvtfiWU (p : BitVec 2) (m : BitVec 3) (b : BitVec 7) (a : BitVec 7) : EncodeThenDecode.Statement (.cvtfiWU p m b a) := by
  intro wd h
  obtain ⟨hn, ho, r0, f0, f1, f2, f3⟩ := enc_fields_20 0x32004000 p m b a (by decide) (by decide)
  refine decode_of rfl h hn ?_
  rw [decode_op_32 _ ho, decodeCvt]
  simp only [r0, fld_eq f0, fld_eq f1, fld_eq f2, fld_eq f3]
  rfl

theorem EncodeThenDecode.cvtfiD (p : BitVec 2) (m : BitVec 3) (b : BitVec 7) (a : BitVec 7) : EncodeThenDecode.Statement (.cvtfiD p m b a) := by
  intro wd h
  obtain ⟨hn, ho, r0, f0, f1, f2, f3⟩ := enc_fields_20 0x32008000 p m b a (by decide) (by decide)
  refine decode_of rfl h hn ?_
  rw [decode_op_32 _ ho, decodeCvt]
  simp only [r0, fld_eq f0, fld_eq f1, fld_eq f2, fld_eq f3]
  rfl

theorem EncodeThenDecode.cvtfiDU (p : BitVec 2) (m : BitVec 3) (b : BitVec 7) (a : BitVec 7) : EncodeThenDecode.Statement (.cvtfiDU p m b a) := by
  intro wd h
  obtain ⟨hn, ho, r0, f0, f1, f2, f3⟩ := enc_fields_20 0x3200C000 p m b a (by decide) (by decide)
  refine decode_of rfl h hn ?_
  rw [decode_op_32 _ ho, decodeCvt]
  simp only [r0, fld_eq f0, fld_eq f1, fld_eq f2, fld_eq f3]
  rfl

theorem EncodeThenDecode.cvtifW (p : BitVec 2) (m : BitVec 3) (b : BitVec 7) (a : BitVec 7) : EncodeThenDecode.Statement (.cvtifW p m b a) := by
  intro wd h
  obtain ⟨hn, ho, r0, f0, f1, f2, f3⟩ := enc_fields_20 0x32010000 p m b a (by decide) (by decide)
  refine decode_of rfl h hn ?_
  rw [decode_op_32 _ ho, decodeCvt]
  simp only [r0, fld_eq f0, fld_eq f1, fld_eq f2, fld_eq f3]
  rfl

theorem EncodeThenDecode.cvtifWU (p : BitVec 2) (m : BitVec 3) (b : BitVec 7) (a : BitVec 7) : EncodeThenDecode.Statement (.cvtifWU p m b a) := by
  intro wd h
  obtain ⟨hn, ho, r0, f0, f1, f2, f3⟩ := enc_fields_20 0x32014000 p m b a (by decide) (by decide)
  refine decode_of rfl h hn ?_
  rw [decode_op_32 _ ho, decodeCvt]
  simp only [r0, fld_eq f0, fld_eq f1, fld_eq f2, fld_eq f3]
  rfl

theorem EncodeThenDecode.cvtifD (p : BitVec 2) (m : BitVec 3) (b : BitVec 7) (a : BitVec 7) : EncodeThenDecode.Statement (.cvtifD p m b a) := by
  intro wd h
  obtain ⟨hn, ho, r0, f0, f1, f2, f3⟩ := enc_fields_20 0x32018000 p m b a (by decide) (by decide)
  refine decode_of rfl h hn ?_
  rw [decode_op_32 _ ho, decodeCvt]
  simp only [r0, fld_eq f0, fld_eq f1, fld_eq f2, fld_eq f3]
  rfl

theorem EncodeThenDecode.cvtifDU (p : BitVec 2) (m : BitVec 3) (b : BitVec 7) (a : BitVec 7) : EncodeThenDecode.Statement (.cvtifDU p m b a) := by
  intro wd h
  obtain ⟨hn, ho, r0, f0, f1, f2, f3⟩ := enc_fields_20 0x3201C000 p m b a (by decide) (by decide)
  refine decode_of rfl h hn ?_
  rw [decode_op_32 _ ho, decodeCvt]
  simp only [r0, fld_eq f0, fld_eq f1, fld_eq f2, fld_eq f3]
  rfl

theorem EncodeThenDecode.cvtffH (p : BitVec 2) (m : BitVec 3) (b : BitVec 7) (a : BitVec 7) : EncodeThenDecode.Statement (.cvtffH p m b a) := by
  intro wd h
  obtain ⟨hn, ho, r0, f0, f1, f2, f3⟩ := enc_fields_20 0x32020000 p m b a (by decide) (by decide)
  refine decode_of rfl h hn ?_
  rw [decode_op_32 _ ho, decodeCvt]
  simp only [r0, fld_eq f0, fld_eq f1, fld_eq f2, fld_eq f3]
  rfl

theorem EncodeThenDecode.cvtffBf (p : BitVec 2) (m : BitVec 3) (b : BitVec 7) (a : BitVec 7) : EncodeThenDecode.Statement (.cvtffBf p m b a) := by
  intro wd h
  obtain ⟨hn, ho, r0, f0, f1, f2, f3⟩ := enc_fields_20 0x32024000 p m b a (by decide) (by decide)
  refine decode_of rfl h hn ?_
  rw [decode_op_32 _ ho, decodeCvt]
  simp only [r0, fld_eq f0, fld_eq f1, fld_eq f2, fld_eq f3]
  rfl

theorem EncodeThenDecode.cvtffFH (p : BitVec 2) (b : BitVec 7) (a : BitVec 7) : EncodeThenDecode.Statement (.cvtffFH p b a) := by
  intro wd h
  obtain ⟨hn, ho, r0, r1, f0, f1, f2⟩ := enc_fields_21 0x32028000 p b a (by decide) (by decide)
  refine decode_of rfl h hn ?_
  rw [decode_op_32 _ ho, decodeCvt]
  simp only [r0, r1, fld_eq f0, fld_eq f1, fld_eq f2]
  rfl

theorem EncodeThenDecode.cvtffFBf (p : BitVec 2) (b : BitVec 7) (a : BitVec 7) : EncodeThenDecode.Statement (.cvtffFBf p b a) := by
  intro wd h
  obtain ⟨hn, ho, r0, r1, f0, f1, f2⟩ := enc_fields_21 0x3202C000 p b a (by decide) (by decide)
  refine decode_of rfl h hn ?_
  rw [decode_op_32 _ ho, decodeCvt]
  simp only [r0, r1, fld_eq f0, fld_eq f1, fld_eq f2]
  rfl

theorem EncodeThenDecode.cvtd (p : BitVec 2) (f : BitVec 4) (b : BitVec 7) (a : BitVec 7) : EncodeThenDecode.Statement (.cvtd p f b a) := by
  intro wd h
  obtain ⟨hn, ho, r0, r1, f0, f1, f2, f3⟩ := enc_fields_23 0x32040000 p f b a (by decide) (by decide)
  refine decode_of rfl h hn ?_
  rw [decode_op_32 _ ho, decodeCvt]
  have hge : 16 ≤ (enc_23_22_17_14_13_7_6_0 0x32040000 p f b a) / 2^14 % 2^5 := by omega
  repeat rw [if_neg (by omega)]
  simp only [r0, r1, fld_eq f0, fld_eq f1, fld_eq f2, fld_eq f3]
  rfl

theorem EncodeThenDecode.cvtq8 (p : BitVec 2) (m : BitVec 3) (d : BitVec 2) (t : BitVec 3) (b : BitVec 7) (a : BitVec 7) : EncodeThenDecode.Statement (.cvtq8 p m d t b a) := by
  intro wd h
  obtain ⟨hn, ho, f0, f1, f2, f3, f4, f5⟩ := enc_fields_24 0x33000000 p m d t b a (by decide) (by decide)
  refine decode_of rfl h hn ?_
  rw [decode_op_33 _ ho]
  simp only [fld_eq f0, fld_eq f1, fld_eq f2, fld_eq f3, fld_eq f4, fld_eq f5]

theorem EncodeThenDecode.cvtq6 (p : BitVec 2) (m : BitVec 3) (d : BitVec 2) (t : BitVec 3) (b : BitVec 7) (a : BitVec 7) : EncodeThenDecode.Statement (.cvtq6 p m d t b a) := by
  intro wd h
  obtain ⟨hn, ho, f0, f1, f2, f3, f4, f5⟩ := enc_fields_24 0x34000000 p m d t b a (by decide) (by decide)
  refine decode_of rfl h hn ?_
  rw [decode_op_34 _ ho]
  simp only [fld_eq f0, fld_eq f1, fld_eq f2, fld_eq f3, fld_eq f4, fld_eq f5]

theorem EncodeThenDecode.cvtq4 (p : BitVec 2) (m : BitVec 3) (d : BitVec 2) (t : BitVec 3) (b : BitVec 7) (a : BitVec 7) : EncodeThenDecode.Statement (.cvtq4 p m d t b a) := by
  intro wd h
  obtain ⟨hn, ho, f0, f1, f2, f3, f4, f5⟩ := enc_fields_24 0x35000000 p m d t b a (by decide) (by decide)
  refine decode_of rfl h hn ?_
  rw [decode_op_35 _ ho]
  simp only [fld_eq f0, fld_eq f1, fld_eq f2, fld_eq f3, fld_eq f4, fld_eq f5]

theorem EncodeThenDecode.srseed (p : BitVec 2) (d : BitVec 2) (l : BitVec 6) : EncodeThenDecode.Statement (.srseed p d l) := by
  intro wd h
  obtain ⟨hn, ho, r0, f0, f1, f2⟩ := enc_fields_25 0x36003FFF p d l (by decide) (by decide)
  refine decode_of rfl h hn ?_
  rw [decode_op_36 _ ho]
  simp only [r0, fld_eq f0, fld_eq f1, fld_eq f2]
  rfl

theorem EncodeThenDecode.bscale (p : BitVec 2) (f : BitVec 4) (b : BitVec 7) (a : BitVec 7) : EncodeThenDecode.Statement (.bscale p f b a) := by
  intro wd h
  obtain ⟨hn, ho, r0, f0, f1, f2, f3⟩ := enc_fields_26 0x37000000 p f b a (by decide) (by decide)
  refine decode_of rfl h hn ?_
  rw [decode_op_37 _ ho]
  simp only [r0, fld_eq f0, fld_eq f1, fld_eq f2, fld_eq f3]
  rfl

theorem EncodeThenDecode.qblk (p : BitVec 2) (f : BitVec 4) (d : BitVec 2) (m : BitVec 2) (b : BitVec 7) (a : BitVec 7) : EncodeThenDecode.Statement (.qblk p f d m b a) := by
  intro wd h
  obtain ⟨hn, ho, f0, f1, f2, f3, f4, f5⟩ := enc_fields_27 0x38000000 p f d m b a (by decide) (by decide)
  refine decode_of rfl h hn ?_
  rw [decode_op_38 _ ho]
  simp only [fld_eq f0, fld_eq f1, fld_eq f2, fld_eq f3, fld_eq f4, fld_eq f5]

theorem EncodeThenDecode.dqblk (p : BitVec 2) (f : BitVec 4) (b : BitVec 7) (a : BitVec 7) : EncodeThenDecode.Statement (.dqblk p f b a) := by
  intro wd h
  obtain ⟨hn, ho, r0, f0, f1, f2, f3⟩ := enc_fields_26 0x39000000 p f b a (by decide) (by decide)
  refine decode_of rfl h hn ?_
  rw [decode_op_39 _ ho]
  simp only [r0, fld_eq f0, fld_eq f1, fld_eq f2, fld_eq f3]
  rfl

theorem EncodeThenDecode.lutld (p : BitVec 2) (t : BitVec 2) (b : BitVec 7) (a : BitVec 7) : EncodeThenDecode.Statement (.lutld p t b a) := by
  intro wd h
  obtain ⟨hn, ho, r0, f0, f1, f2, f3⟩ := enc_fields_28 0x3A000000 p t b a (by decide) (by decide)
  refine decode_of rfl h hn ?_
  rw [decode_op_3a _ ho]
  simp only [r0, fld_eq f0, fld_eq f1, fld_eq f2, fld_eq f3]
  rfl

theorem EncodeThenDecode.lutenc (p : BitVec 2) (t : BitVec 2) (b : BitVec 7) (a : BitVec 7) : EncodeThenDecode.Statement (.lutenc p t b a) := by
  intro wd h
  obtain ⟨hn, ho, r0, f0, f1, f2, f3⟩ := enc_fields_28 0x3B000000 p t b a (by decide) (by decide)
  refine decode_of rfl h hn ?_
  rw [decode_op_3b _ ho]
  simp only [r0, fld_eq f0, fld_eq f1, fld_eq f2, fld_eq f3]
  rfl

theorem EncodeThenDecode.ldB (p : BitVec 2) (w : BitVec 1) (o : BitVec 10) (a : BitVec 7) : EncodeThenDecode.Statement (.ldB p w o a) := by
  intro wd h
  obtain ⟨hn, ho, r0, f0, f1, f2, f3⟩ := enc_fields_29 0x40000000 p w o a (by decide) (by decide)
  refine decode_of rfl h hn ?_
  rw [decode_op_40 _ ho]
  simp only [r0, fld_eq f0, fld_eq f1, fld_eq f2, fld_eq f3]
  rfl

theorem EncodeThenDecode.ldH (p : BitVec 2) (w : BitVec 1) (o : BitVec 10) (a : BitVec 7) : EncodeThenDecode.Statement (.ldH p w o a) := by
  intro wd h
  obtain ⟨hn, ho, r0, f0, f1, f2, f3⟩ := enc_fields_29 0x41000000 p w o a (by decide) (by decide)
  refine decode_of rfl h hn ?_
  rw [decode_op_41 _ ho]
  simp only [r0, fld_eq f0, fld_eq f1, fld_eq f2, fld_eq f3]
  rfl

theorem EncodeThenDecode.ldW (p : BitVec 2) (w : BitVec 1) (o : BitVec 10) (a : BitVec 7) : EncodeThenDecode.Statement (.ldW p w o a) := by
  intro wd h
  obtain ⟨hn, ho, r0, f0, f1, f2, f3⟩ := enc_fields_29 0x42000000 p w o a (by decide) (by decide)
  refine decode_of rfl h hn ?_
  rw [decode_op_42 _ ho]
  simp only [r0, fld_eq f0, fld_eq f1, fld_eq f2, fld_eq f3]
  rfl

theorem EncodeThenDecode.ldD (p : BitVec 2) (w : BitVec 1) (o : BitVec 10) (a : BitVec 7) : EncodeThenDecode.Statement (.ldD p w o a) := by
  intro wd h
  obtain ⟨hn, ho, r0, f0, f1, f2, f3⟩ := enc_fields_29 0x43000000 p w o a (by decide) (by decide)
  refine decode_of rfl h hn ?_
  rw [decode_op_43 _ ho]
  simp only [r0, fld_eq f0, fld_eq f1, fld_eq f2, fld_eq f3]
  rfl

theorem EncodeThenDecode.ldBSx (p : BitVec 2) (w : BitVec 1) (o : BitVec 10) (a : BitVec 7) : EncodeThenDecode.Statement (.ldBSx p w o a) := by
  intro wd h
  obtain ⟨hn, ho, r0, f0, f1, f2, f3⟩ := enc_fields_29 0x44000000 p w o a (by decide) (by decide)
  refine decode_of rfl h hn ?_
  rw [decode_op_44 _ ho]
  simp only [r0, fld_eq f0, fld_eq f1, fld_eq f2, fld_eq f3]
  rfl

theorem EncodeThenDecode.ldHSx (p : BitVec 2) (w : BitVec 1) (o : BitVec 10) (a : BitVec 7) : EncodeThenDecode.Statement (.ldHSx p w o a) := by
  intro wd h
  obtain ⟨hn, ho, r0, f0, f1, f2, f3⟩ := enc_fields_29 0x45000000 p w o a (by decide) (by decide)
  refine decode_of rfl h hn ?_
  rw [decode_op_45 _ ho]
  simp only [r0, fld_eq f0, fld_eq f1, fld_eq f2, fld_eq f3]
  rfl

theorem EncodeThenDecode.ldWSx (p : BitVec 2) (w : BitVec 1) (o : BitVec 10) (a : BitVec 7) : EncodeThenDecode.Statement (.ldWSx p w o a) := by
  intro wd h
  obtain ⟨hn, ho, r0, f0, f1, f2, f3⟩ := enc_fields_29 0x46000000 p w o a (by decide) (by decide)
  refine decode_of rfl h hn ?_
  rw [decode_op_46 _ ho]
  simp only [r0, fld_eq f0, fld_eq f1, fld_eq f2, fld_eq f3]
  rfl

theorem EncodeThenDecode.stB (p : BitVec 2) (w : BitVec 1) (l : BitVec 4) (o : BitVec 10) (a : BitVec 7) : EncodeThenDecode.Statement (.stB p w l o a) := by
  intro wd h
  obtain ⟨hn, ho, f0, f1, f2, f3, f4⟩ := enc_fields_30 0x47000000 p w l o a (by decide) (by decide)
  refine decode_of rfl h hn ?_
  rw [decode_op_47 _ ho]
  simp only [fld_eq f0, fld_eq f1, fld_eq f2, fld_eq f3, fld_eq f4]

theorem EncodeThenDecode.stH (p : BitVec 2) (w : BitVec 1) (l : BitVec 4) (o : BitVec 10) (a : BitVec 7) : EncodeThenDecode.Statement (.stH p w l o a) := by
  intro wd h
  obtain ⟨hn, ho, f0, f1, f2, f3, f4⟩ := enc_fields_30 0x48000000 p w l o a (by decide) (by decide)
  refine decode_of rfl h hn ?_
  rw [decode_op_48 _ ho]
  simp only [fld_eq f0, fld_eq f1, fld_eq f2, fld_eq f3, fld_eq f4]

theorem EncodeThenDecode.stW (p : BitVec 2) (w : BitVec 1) (l : BitVec 4) (o : BitVec 10) (a : BitVec 7) : EncodeThenDecode.Statement (.stW p w l o a) := by
  intro wd h
  obtain ⟨hn, ho, f0, f1, f2, f3, f4⟩ := enc_fields_30 0x49000000 p w l o a (by decide) (by decide)
  refine decode_of rfl h hn ?_
  rw [decode_op_49 _ ho]
  simp only [fld_eq f0, fld_eq f1, fld_eq f2, fld_eq f3, fld_eq f4]

theorem EncodeThenDecode.stD (p : BitVec 2) (w : BitVec 1) (l : BitVec 4) (o : BitVec 10) (a : BitVec 7) : EncodeThenDecode.Statement (.stD p w l o a) := by
  intro wd h
  obtain ⟨hn, ho, f0, f1, f2, f3, f4⟩ := enc_fields_30 0x4A000000 p w l o a (by decide) (by decide)
  refine decode_of rfl h hn ?_
  rw [decode_op_4a _ ho]
  simp only [fld_eq f0, fld_eq f1, fld_eq f2, fld_eq f3, fld_eq f4]

theorem EncodeThenDecode.ldo (p : BitVec 2) (w : BitVec 1) (o : BitVec 10) (a : BitVec 7) : EncodeThenDecode.Statement (.ldo p w o a) := by
  intro wd h
  obtain ⟨hn, ho, r0, f0, f1, f2, f3⟩ := enc_fields_29 0x4B000000 p w o a (by decide) (by decide)
  refine decode_of rfl h hn ?_
  rw [decode_op_4b _ ho]
  simp only [r0, fld_eq f0, fld_eq f1, fld_eq f2, fld_eq f3]
  rfl

theorem EncodeThenDecode.sto (p : BitVec 2) (w : BitVec 1) (l : BitVec 4) (o : BitVec 10) (a : BitVec 7) : EncodeThenDecode.Statement (.sto p w l o a) := by
  intro wd h
  obtain ⟨hn, ho, f0, f1, f2, f3, f4⟩ := enc_fields_30 0x4C000000 p w l o a (by decide) (by decide)
  refine decode_of rfl h hn ?_
  rw [decode_op_4c _ ho]
  simp only [fld_eq f0, fld_eq f1, fld_eq f2, fld_eq f3, fld_eq f4]

theorem EncodeThenDecode.clro (p : BitVec 2) (w : BitVec 1) (l : BitVec 4) (n : BitVec 10) (a : BitVec 7) : EncodeThenDecode.Statement (.clro p w l n a) := by
  intro wd h
  obtain ⟨hn, ho, f0, f1, f2, f3, f4⟩ := enc_fields_30 0x4D000000 p w l n a (by decide) (by decide)
  refine decode_of rfl h hn ?_
  rw [decode_op_4d _ ho]
  simp only [fld_eq f0, fld_eq f1, fld_eq f2, fld_eq f3, fld_eq f4]

theorem EncodeThenDecode.scld (p : BitVec 2) (w : BitVec 1) (o : BitVec 10) (a : BitVec 7) : EncodeThenDecode.Statement (.scld p w o a) := by
  intro wd h
  obtain ⟨hn, ho, r0, f0, f1, f2, f3⟩ := enc_fields_29 0x4E000000 p w o a (by decide) (by decide)
  refine decode_of rfl h hn ?_
  rw [decode_op_4e _ ho]
  simp only [r0, fld_eq f0, fld_eq f1, fld_eq f2, fld_eq f3]
  rfl

theorem EncodeThenDecode.scst (p : BitVec 2) (w : BitVec 1) (l : BitVec 4) (o : BitVec 10) (a : BitVec 7) : EncodeThenDecode.Statement (.scst p w l o a) := by
  intro wd h
  obtain ⟨hn, ho, f0, f1, f2, f3, f4⟩ := enc_fields_30 0x4F000000 p w l o a (by decide) (by decide)
  refine decode_of rfl h hn ?_
  rw [decode_op_4f _ ho]
  simp only [fld_eq f0, fld_eq f1, fld_eq f2, fld_eq f3, fld_eq f4]

theorem EncodeThenDecode.atom (p : BitVec 2) (w : BitVec 1) (l : BitVec 4) (o : BitVec 4) (d : BitVec 1) (a : BitVec 7) : EncodeThenDecode.Statement (.atom p w l o d a) := by
  intro wd h
  obtain ⟨hn, ho, r0, f0, f1, f2, f3, f4, f5⟩ := enc_fields_31 0x50000000 p w l o d a (by decide) (by decide)
  refine decode_of rfl h hn ?_
  rw [decode_op_50 _ ho]
  simp only [r0, fld_eq f0, fld_eq f1, fld_eq f2, fld_eq f3, fld_eq f4, fld_eq f5]
  rfl

theorem EncodeThenDecode.atomn (p : BitVec 2) (w : BitVec 1) (l : BitVec 4) (o : BitVec 4) (d : BitVec 1) (a : BitVec 7) : EncodeThenDecode.Statement (.atomn p w l o d a) := by
  intro wd h
  obtain ⟨hn, ho, r0, f0, f1, f2, f3, f4, f5⟩ := enc_fields_31 0x51000000 p w l o d a (by decide) (by decide)
  refine decode_of rfl h hn ?_
  rw [decode_op_51 _ ho]
  simp only [r0, fld_eq f0, fld_eq f1, fld_eq f2, fld_eq f3, fld_eq f4, fld_eq f5]
  rfl

theorem EncodeThenDecode.cas (l : BitVec 4) (d : BitVec 1) (a : BitVec 7) : EncodeThenDecode.Statement (.cas l d a) := by
  intro wd h
  obtain ⟨hn, ho, r0, r1, r2, f0, f1, f2⟩ := enc_fields_32 0x52000000 l d a (by decide) (by decide)
  refine decode_of rfl h hn ?_
  rw [decode_op_52 _ ho]
  simp only [r0, r1, r2, fld_eq f0, fld_eq f1, fld_eq f2]
  rfl

theorem EncodeThenDecode.join2 (p : BitVec 2) (b : BitVec 7) (a : BitVec 7) : EncodeThenDecode.Statement (.join2 p b a) := by
  intro wd h
  obtain ⟨hn, ho, r0, f0, f1, f2⟩ := enc_fields_7 0x53000000 p b a (by decide) (by decide)
  refine decode_of rfl h hn ?_
  rw [decode_op_53 _ ho]
  simp only [r0, fld_eq f0, fld_eq f1, fld_eq f2]
  rfl

theorem EncodeThenDecode.join3 (b : BitVec 7) (a : BitVec 7) : EncodeThenDecode.Statement (.join3 b a) := by
  intro wd h
  obtain ⟨hn, ho, r0, f0, f1⟩ := enc_fields_13 0x54000000 b a (by decide) (by decide)
  refine decode_of rfl h hn ?_
  rw [decode_op_54 _ ho]
  simp only [r0, fld_eq f0, fld_eq f1]
  rfl

theorem EncodeThenDecode.fence (p : BitVec 2) (s : BitVec 3) (a : BitVec 7) : EncodeThenDecode.Statement (.fence p s a) := by
  intro wd h
  obtain ⟨hn, ho, r0, f0, f1, f2⟩ := enc_fields_33 0x55000000 p s a (by decide) (by decide)
  refine decode_of rfl h hn ?_
  rw [decode_op_55 _ ho]
  simp only [r0, fld_eq f0, fld_eq f1, fld_eq f2]
  rfl

theorem EncodeThenDecode.send (p : BitVec 2) (w : BitVec 1) (l : BitVec 4) (s : BitVec 3) (t : BitVec 1) (k : BitVec 3) (a : BitVec 7) : EncodeThenDecode.Statement (.send p w l s t k a) := by
  intro wd h
  obtain ⟨hn, ho, r0, f0, f1, f2, f3, f4, f5, f6⟩ := enc_fields_34 0x56000000 p w l s t k a (by decide) (by decide)
  refine decode_of rfl h hn ?_
  rw [decode_op_56 _ ho]
  simp only [r0, fld_eq f0, fld_eq f1, fld_eq f2, fld_eq f3, fld_eq f4, fld_eq f5, fld_eq f6]
  rfl

theorem EncodeThenDecode.sendr (p : BitVec 2) (w : BitVec 1) (l : BitVec 4) (s : BitVec 3) (t : BitVec 1) (k : BitVec 3) (a : BitVec 7) : EncodeThenDecode.Statement (.sendr p w l s t k a) := by
  intro wd h
  obtain ⟨hn, ho, r0, f0, f1, f2, f3, f4, f5, f6⟩ := enc_fields_34 0x57000000 p w l s t k a (by decide) (by decide)
  refine decode_of rfl h hn ?_
  rw [decode_op_57 _ ho]
  simp only [r0, fld_eq f0, fld_eq f1, fld_eq f2, fld_eq f3, fld_eq f4, fld_eq f5, fld_eq f6]
  rfl

theorem EncodeThenDecode.sendm (p : BitVec 2) (w : BitVec 1) (l : BitVec 4) (n : BitVec 2) (k : BitVec 3) (a : BitVec 7) : EncodeThenDecode.Statement (.sendm p w l n k a) := by
  intro wd h
  obtain ⟨hn, ho, r0, f0, f1, f2, f3, f4, f5⟩ := enc_fields_35 0x58000000 p w l n k a (by decide) (by decide)
  refine decode_of rfl h hn ?_
  rw [decode_op_58 _ ho]
  simp only [r0, fld_eq f0, fld_eq f1, fld_eq f2, fld_eq f3, fld_eq f4, fld_eq f5]
  rfl

theorem EncodeThenDecode.eos (p : BitVec 2) (w : BitVec 1) (l : BitVec 4) (k : BitVec 3) (a : BitVec 7) : EncodeThenDecode.Statement (.eos p w l k a) := by
  intro wd h
  obtain ⟨hn, ho, r0, f0, f1, f2, f3, f4⟩ := enc_fields_36 0x59000000 p w l k a (by decide) (by decide)
  refine decode_of rfl h hn ?_
  rw [decode_op_59 _ ho]
  simp only [r0, fld_eq f0, fld_eq f1, fld_eq f2, fld_eq f3, fld_eq f4]
  rfl

theorem EncodeThenDecode.taga (p : BitVec 2) (a : BitVec 7) : EncodeThenDecode.Statement (.taga p a) := by
  intro wd h
  obtain ⟨hn, ho, r0, f0, f1⟩ := enc_fields_37 0x5A000000 p a (by decide) (by decide)
  refine decode_of rfl h hn ?_
  rw [decode_op_5a _ ho]
  simp only [r0, fld_eq f0, fld_eq f1]
  rfl

theorem EncodeThenDecode.tagr (p : BitVec 2) : EncodeThenDecode.Statement (.tagr p) := by
  intro wd h
  obtain ⟨hn, ho, r0, r1, f0⟩ := enc_fields_5 0x5B00007F p (by decide) (by decide)
  refine decode_of rfl h hn ?_
  rw [decode_op_5b _ ho]
  simp only [r0, r1, fld_eq f0]
  rfl

theorem EncodeThenDecode.tblk (p : BitVec 2) (c : BitVec 6) : EncodeThenDecode.Statement (.tblk p c) := by
  intro wd h
  obtain ⟨hn, ho, r0, r1, f0, f1⟩ := enc_fields_38 0x5C00007F p c (by decide) (by decide)
  refine decode_of rfl h hn ?_
  rw [decode_op_5c _ ho]
  simp only [r0, r1, fld_eq f0, fld_eq f1]
  rfl

theorem EncodeThenDecode.tunb (p : BitVec 2) (c : BitVec 6) : EncodeThenDecode.Statement (.tunb p c) := by
  intro wd h
  obtain ⟨hn, ho, r0, r1, f0, f1⟩ := enc_fields_38 0x5D00007F p c (by decide) (by decide)
  refine decode_of rfl h hn ?_
  rw [decode_op_5d _ ho]
  simp only [r0, r1, fld_eq f0, fld_eq f1]
  rfl

theorem EncodeThenDecode.bari (p : BitVec 2) (n : BitVec 6) (b : BitVec 7) (a : BitVec 7) : EncodeThenDecode.Statement (.bari p n b a) := by
  intro wd h
  obtain ⟨hn, ho, r0, f0, f1, f2, f3⟩ := enc_fields_39 0x5E000000 p n b a (by decide) (by decide)
  refine decode_of rfl h hn ?_
  rw [decode_op_5e _ ho, decodeBar]
  simp only [r0, fld_eq f0, fld_eq f1, fld_eq f2, fld_eq f3]
  rfl

theorem EncodeThenDecode.bara (p : BitVec 2) (n : BitVec 6) (b : BitVec 7) (a : BitVec 7) : EncodeThenDecode.Statement (.bara p n b a) := by
  intro wd h
  obtain ⟨hn, ho, r0, f0, f1, f2, f3⟩ := enc_fields_39 0x5E100000 p n b a (by decide) (by decide)
  refine decode_of rfl h hn ?_
  rw [decode_op_5e _ ho, decodeBar]
  simp only [r0, fld_eq f0, fld_eq f1, fld_eq f2, fld_eq f3]
  rfl

theorem EncodeThenDecode.barx (p : BitVec 2) (n : BitVec 6) (b : BitVec 7) (a : BitVec 7) : EncodeThenDecode.Statement (.barx p n b a) := by
  intro wd h
  obtain ⟨hn, ho, r0, f0, f1, f2, f3⟩ := enc_fields_39 0x5E200000 p n b a (by decide) (by decide)
  refine decode_of rfl h hn ?_
  rw [decode_op_5e _ ho, decodeBar]
  simp only [r0, fld_eq f0, fld_eq f1, fld_eq f2, fld_eq f3]
  rfl

theorem EncodeThenDecode.mwin (p : BitVec 2) (l : BitVec 11) : EncodeThenDecode.Statement (.mwin p l) := by
  intro wd h
  obtain ⟨hn, ho, r0, r1, f0, f1⟩ := enc_fields_40 0x6000007F p l (by decide) (by decide)
  refine decode_of rfl h hn ?_
  rw [decode_op_60 _ ho]
  simp only [r0, r1, fld_eq f0, fld_eq f1]
  rfl

theorem EncodeThenDecode.mwend (p : BitVec 2) : EncodeThenDecode.Statement (.mwend p) := by
  intro wd h
  obtain ⟨hn, ho, r0, r1, f0⟩ := enc_fields_5 0x6100007F p (by decide) (by decide)
  refine decode_of rfl h hn ?_
  rw [decode_op_61 _ ho]
  simp only [r0, r1, fld_eq f0]
  rfl

theorem EncodeThenDecode.seal (p : BitVec 2) : EncodeThenDecode.Statement (.seal p) := by
  intro wd h
  obtain ⟨hn, ho, r0, r1, f0⟩ := enc_fields_5 0x6200007F p (by decide) (by decide)
  refine decode_of rfl h hn ?_
  rw [decode_op_62 _ ho]
  simp only [r0, r1, fld_eq f0]
  rfl

theorem EncodeThenDecode.sealw (p : BitVec 2) (a : BitVec 7) : EncodeThenDecode.Statement (.sealw p a) := by
  intro wd h
  obtain ⟨hn, ho, r0, f0, f1⟩ := enc_fields_37 0x63000000 p a (by decide) (by decide)
  refine decode_of rfl h hn ?_
  rw [decode_op_63 _ ho]
  simp only [r0, fld_eq f0, fld_eq f1]
  rfl

theorem EncodeThenDecode.irst (p : BitVec 2) (w : BitVec 1) (l : BitVec 4) (o : BitVec 10) (a : BitVec 7) : EncodeThenDecode.Statement (.irst p w l o a) := by
  intro wd h
  obtain ⟨hn, ho, f0, f1, f2, f3, f4⟩ := enc_fields_30 0x64000000 p w l o a (by decide) (by decide)
  refine decode_of rfl h hn ?_
  rw [decode_op_64 _ ho]
  simp only [fld_eq f0, fld_eq f1, fld_eq f2, fld_eq f3, fld_eq f4]

theorem EncodeThenDecode.rld (p : BitVec 2) (q : BitVec 2) (b : BitVec 7) (a : BitVec 7) : EncodeThenDecode.Statement (.rld p q b a) := by
  intro wd h
  obtain ⟨hn, ho, r0, f0, f1, f2, f3⟩ := enc_fields_28 0x65000000 p q b a (by decide) (by decide)
  refine decode_of rfl h hn ?_
  rw [decode_op_65 _ ho]
  simp only [r0, fld_eq f0, fld_eq f1, fld_eq f2, fld_eq f3]
  rfl

theorem EncodeThenDecode.rgo (p : BitVec 2) (q : BitVec 2) (b : BitVec 7) (a : BitVec 7) : EncodeThenDecode.Statement (.rgo p q b a) := by
  intro wd h
  obtain ⟨hn, ho, r0, f0, f1, f2, f3⟩ := enc_fields_28 0x66000000 p q b a (by decide) (by decide)
  refine decode_of rfl h hn ?_
  rw [decode_op_66 _ ho]
  simp only [r0, fld_eq f0, fld_eq f1, fld_eq f2, fld_eq f3]
  rfl

theorem EncodeThenDecode.rstop (p : BitVec 2) (q : BitVec 2) (b : BitVec 7) (a : BitVec 7) : EncodeThenDecode.Statement (.rstop p q b a) := by
  intro wd h
  obtain ⟨hn, ho, r0, f0, f1, f2, f3⟩ := enc_fields_28 0x67000000 p q b a (by decide) (by decide)
  refine decode_of rfl h hn ?_
  rw [decode_op_67 _ ho]
  simp only [r0, fld_eq f0, fld_eq f1, fld_eq f2, fld_eq f3]
  rfl

theorem EncodeThenDecode.rdrain (p : BitVec 2) (x : BitVec 1) (q : BitVec 2) (b : BitVec 7) (a : BitVec 7) : EncodeThenDecode.Statement (.rdrain p x q b a) := by
  intro wd h
  obtain ⟨hn, ho, r0, f0, f1, f2, f3, f4⟩ := enc_fields_41 0x68000000 p x q b a (by decide) (by decide)
  refine decode_of rfl h hn ?_
  rw [decode_op_68 _ ho]
  simp only [r0, fld_eq f0, fld_eq f1, fld_eq f2, fld_eq f3, fld_eq f4]
  rfl

theorem EncodeThenDecode.rstat (p : BitVec 2) (c : BitVec 1) (q : BitVec 2) (b : BitVec 7) (a : BitVec 7) : EncodeThenDecode.Statement (.rstat p c q b a) := by
  intro wd h
  obtain ⟨hn, ho, r0, f0, f1, f2, f3, f4⟩ := enc_fields_41 0x69000000 p c q b a (by decide) (by decide)
  refine decode_of rfl h hn ?_
  rw [decode_op_69 _ ho]
  simp only [r0, fld_eq f0, fld_eq f1, fld_eq f2, fld_eq f3, fld_eq f4]
  rfl

theorem EncodeThenDecode.mma (p : BitVec 2) (f : BitVec 4) (g : BitVec 4) (b : BitVec 7) (a : BitVec 7) : EncodeThenDecode.Statement (.mma p f g b a) := by
  intro wd h
  obtain ⟨hn, ho, f0, f1, f2, f3, f4⟩ := enc_fields_42 0x6A000000 p f g b a (by decide) (by decide)
  refine decode_of rfl h hn ?_
  rw [decode_op_6a _ ho]
  simp only [fld_eq f0, fld_eq f1, fld_eq f2, fld_eq f3, fld_eq f4]

theorem EncodeThenDecode.mmas (p : BitVec 2) (f : BitVec 4) (g : BitVec 4) (b : BitVec 7) (a : BitVec 7) : EncodeThenDecode.Statement (.mmas p f g b a) := by
  intro wd h
  obtain ⟨hn, ho, f0, f1, f2, f3, f4⟩ := enc_fields_42 0x6B000000 p f g b a (by decide) (by decide)
  refine decode_of rfl h hn ?_
  rw [decode_op_6b _ ho]
  simp only [fld_eq f0, fld_eq f1, fld_eq f2, fld_eq f3, fld_eq f4]

theorem EncodeThenDecode.mclr (p : BitVec 2) (k : BitVec 2) (b : BitVec 7) (a : BitVec 7) : EncodeThenDecode.Statement (.mclr p k b a) := by
  intro wd h
  obtain ⟨hn, ho, r0, r1, f0, f1, f2, f3⟩ := enc_fields_43 0x6C000000 p k b a (by decide) (by decide)
  refine decode_of rfl h hn ?_
  rw [decode_op_6c _ ho, decodeMx]
  simp only [r0, r1, fld_eq f0, fld_eq f1, fld_eq f2, fld_eq f3]
  rfl

theorem EncodeThenDecode.mattr (p : BitVec 2) (x : BitVec 1) (k : BitVec 2) (b : BitVec 7) (a : BitVec 7) : EncodeThenDecode.Statement (.mattr p x k b a) := by
  intro wd h
  obtain ⟨hn, ho, r0, r1, f0, f1, f2, f3, f4⟩ := enc_fields_44 0x6C040000 p x k b a (by decide) (by decide)
  refine decode_of rfl h hn ?_
  rw [decode_op_6c _ ho, decodeMx]
  simp only [r0, r1, fld_eq f0, fld_eq f1, fld_eq f2, fld_eq f3, fld_eq f4]
  rfl

theorem EncodeThenDecode.mfade (p : BitVec 2) (k : BitVec 2) (b : BitVec 7) (a : BitVec 7) : EncodeThenDecode.Statement (.mfade p k b a) := by
  intro wd h
  obtain ⟨hn, ho, r0, r1, f0, f1, f2, f3⟩ := enc_fields_43 0x6C080000 p k b a (by decide) (by decide)
  refine decode_of rfl h hn ?_
  rw [decode_op_6c _ ho, decodeMx]
  simp only [r0, r1, fld_eq f0, fld_eq f1, fld_eq f2, fld_eq f3]
  rfl

theorem EncodeThenDecode.mstat (p : BitVec 2) (b : BitVec 7) (a : BitVec 7) : EncodeThenDecode.Statement (.mstat p b a) := by
  intro wd h
  obtain ⟨hn, ho, r0, r1, f0, f1, f2⟩ := enc_fields_45 0x6C0C0000 p b a (by decide) (by decide)
  refine decode_of rfl h hn ?_
  rw [decode_op_6c _ ho, decodeMx]
  simp only [r0, r1, fld_eq f0, fld_eq f1, fld_eq f2]
  rfl

theorem EncodeThenDecode.lutsel (p : BitVec 2) (k : BitVec 2) (b : BitVec 7) (a : BitVec 7) : EncodeThenDecode.Statement (.lutsel p k b a) := by
  intro wd h
  obtain ⟨hn, ho, r0, r1, f0, f1, f2, f3⟩ := enc_fields_43 0x6C100000 p k b a (by decide) (by decide)
  refine decode_of rfl h hn ?_
  rw [decode_op_6c _ ho, decodeMx]
  simp only [r0, r1, fld_eq f0, fld_eq f1, fld_eq f2, fld_eq f3]
  rfl

theorem EncodeThenDecode.mlda (p : BitVec 2) (k : BitVec 2) (b : BitVec 7) (a : BitVec 7) : EncodeThenDecode.Statement (.mlda p k b a) := by
  intro wd h
  obtain ⟨hn, ho, r0, f0, f1, f2, f3⟩ := enc_fields_28 0x6D000000 p k b a (by decide) (by decide)
  refine decode_of rfl h hn ?_
  rw [decode_op_6d _ ho]
  simp only [r0, fld_eq f0, fld_eq f1, fld_eq f2, fld_eq f3]
  rfl

theorem EncodeThenDecode.mdrain (p : BitVec 2) (f : BitVec 4) (k : BitVec 2) (m : BitVec 2) (b : BitVec 7) (a : BitVec 7) : EncodeThenDecode.Statement (.mdrain p f k m b a) := by
  intro wd h
  obtain ⟨hn, ho, f0, f1, f2, f3, f4, f5⟩ := enc_fields_27 0x6E000000 p f k m b a (by decide) (by decide)
  refine decode_of rfl h hn ?_
  rw [decode_op_6e _ ho]
  simp only [fld_eq f0, fld_eq f1, fld_eq f2, fld_eq f3, fld_eq f4, fld_eq f5]

theorem EncodeThenDecode.apdef (p : BitVec 2) (i : BitVec 5) (b : BitVec 7) (a : BitVec 7) : EncodeThenDecode.Statement (.apdef p i b a) := by
  intro wd h
  obtain ⟨hn, ho, r0, f0, f1, f2, f3⟩ := enc_fields_46 0x70000000 p i b a (by decide) (by decide)
  refine decode_of rfl h hn ?_
  rw [decode_op_70 _ ho]
  simp only [r0, fld_eq f0, fld_eq f1, fld_eq f2, fld_eq f3]
  rfl

theorem EncodeThenDecode.strmIn (p : BitVec 2) (n : BitVec 3) (b : BitVec 7) (a : BitVec 7) : EncodeThenDecode.Statement (.strmIn p n b a) := by
  intro wd h
  obtain ⟨hn, ho, r0, r1, f0, f1, f2, f3⟩ := enc_fields_47 0x71000000 p n b a (by decide) (by decide)
  refine decode_of rfl h hn ?_
  rw [decode_op_71 _ ho, decodeStrm]
  simp only [r0, r1, fld_eq f0, fld_eq f1, fld_eq f2, fld_eq f3]
  rfl

theorem EncodeThenDecode.strmOut (p : BitVec 2) (n : BitVec 3) (b : BitVec 7) (a : BitVec 7) : EncodeThenDecode.Statement (.strmOut p n b a) := by
  intro wd h
  obtain ⟨hn, ho, r0, r1, f0, f1, f2, f3⟩ := enc_fields_47 0x71020000 p n b a (by decide) (by decide)
  refine decode_of rfl h hn ?_
  rw [decode_op_71 _ ho, decodeStrm]
  simp only [r0, r1, fld_eq f0, fld_eq f1, fld_eq f2, fld_eq f3]
  rfl

theorem EncodeThenDecode.sbar (p : BitVec 2) (m : BitVec 8) (b : BitVec 7) (a : BitVec 7) : EncodeThenDecode.Statement (.sbar p m b a) := by
  intro wd h
  obtain ⟨hn, ho, f0, f1, f2, f3⟩ := enc_fields_48 0x72000000 p m b a (by decide) (by decide)
  refine decode_of rfl h hn ?_
  rw [decode_op_72 _ ho]
  simp only [fld_eq f0, fld_eq f1, fld_eq f2, fld_eq f3]

theorem EncodeThenDecode.bcopy (p : BitVec 2) (s : BitVec 1) (n : BitVec 6) (b : BitVec 7) (a : BitVec 7) : EncodeThenDecode.Statement (.bcopy p s n b a) := by
  intro wd h
  obtain ⟨hn, ho, r0, f0, f1, f2, f3, f4⟩ := enc_fields_49 0x73000000 p s n b a (by decide) (by decide)
  refine decode_of rfl h hn ?_
  rw [decode_op_73 _ ho]
  simp only [r0, fld_eq f0, fld_eq f1, fld_eq f2, fld_eq f3, fld_eq f4]
  rfl

theorem EncodeThenDecode.bcopyh (p : BitVec 2) (s : BitVec 1) (n : BitVec 6) (b : BitVec 7) (a : BitVec 7) : EncodeThenDecode.Statement (.bcopyh p s n b a) := by
  intro wd h
  obtain ⟨hn, ho, r0, f0, f1, f2, f3, f4⟩ := enc_fields_49 0x74000000 p s n b a (by decide) (by decide)
  refine decode_of rfl h hn ?_
  rw [decode_op_74 _ ho]
  simp only [r0, fld_eq f0, fld_eq f1, fld_eq f2, fld_eq f3, fld_eq f4]
  rfl

theorem EncodeThenDecode.agcfg (p : BitVec 2) (s : BitVec 2) (w : BitVec 2) (b : BitVec 7) (a : BitVec 7) : EncodeThenDecode.Statement (.agcfg p s w b a) := by
  intro wd h
  obtain ⟨hn, ho, r0, f0, f1, f2, f3, f4⟩ := enc_fields_50 0x75000000 p s w b a (by decide) (by decide)
  refine decode_of rfl h hn ?_
  rw [decode_op_75 _ ho]
  simp only [r0, fld_eq f0, fld_eq f1, fld_eq f2, fld_eq f3, fld_eq f4]
  rfl

theorem EncodeThenDecode.aggo (p : BitVec 2) (g : BitVec 2) (w : BitVec 2) (b : BitVec 7) (a : BitVec 7) : EncodeThenDecode.Statement (.aggo p g w b a) := by
  intro wd h
  obtain ⟨hn, ho, r0, f0, f1, f2, f3, f4⟩ := enc_fields_50 0x76000000 p g w b a (by decide) (by decide)
  refine decode_of rfl h hn ?_
  rw [decode_op_76 _ ho]
  simp only [r0, fld_eq f0, fld_eq f1, fld_eq f2, fld_eq f3, fld_eq f4]
  rfl

theorem EncodeThenDecode.coll (p : BitVec 2) (k : BitVec 3) (b : BitVec 7) (a : BitVec 7) : EncodeThenDecode.Statement (.coll p k b a) := by
  intro wd h
  obtain ⟨hn, ho, r0, f0, f1, f2, f3⟩ := enc_fields_51 0x77000000 p k b a (by decide) (by decide)
  refine decode_of rfl h hn ?_
  rw [decode_op_77 _ ho]
  simp only [r0, fld_eq f0, fld_eq f1, fld_eq f2, fld_eq f3]
  rfl

theorem EncodeThenDecode.trap (p : BitVec 2) : EncodeThenDecode.Statement (.trap p) := by
  intro wd h
  obtain ⟨hn, ho, r0, r1, f0⟩ := enc_fields_52 0x78003FFF p (by decide) (by decide)
  refine decode_of rfl h hn ?_
  rw [decode_op_78 _ ho, decodeSys]
  simp only [r0, r1, fld_eq f0]
  rfl

theorem EncodeThenDecode.eres (p : BitVec 2) (b : BitVec 7) (a : BitVec 7) : EncodeThenDecode.Statement (.eres p b a) := by
  intro wd h
  obtain ⟨hn, ho, r0, f0, f1, f2⟩ := enc_fields_7 0x78004000 p b a (by decide) (by decide)
  refine decode_of rfl h hn ?_
  rw [decode_op_78 _ ho, decodeSys]
  simp only [r0, fld_eq f0, fld_eq f1, fld_eq f2]
  rfl

theorem EncodeThenDecode.ekill (p : BitVec 2) (b : BitVec 7) (a : BitVec 7) : EncodeThenDecode.Statement (.ekill p b a) := by
  intro wd h
  obtain ⟨hn, ho, r0, f0, f1, f2⟩ := enc_fields_7 0x78008000 p b a (by decide) (by decide)
  refine decode_of rfl h hn ?_
  rw [decode_op_78 _ ho, decodeSys]
  simp only [r0, fld_eq f0, fld_eq f1, fld_eq f2]
  rfl

theorem EncodeThenDecode.mfsp (p : BitVec 2) (b : BitVec 7) (a : BitVec 7) : EncodeThenDecode.Statement (.mfsp p b a) := by
  intro wd h
  obtain ⟨hn, ho, r0, f0, f1, f2⟩ := enc_fields_7 0x7800C000 p b a (by decide) (by decide)
  refine decode_of rfl h hn ?_
  rw [decode_op_78 _ ho, decodeSys]
  simp only [r0, fld_eq f0, fld_eq f1, fld_eq f2]
  rfl

theorem EncodeThenDecode.mtsp (p : BitVec 2) : EncodeThenDecode.Statement (.mtsp p) := by
  intro wd h
  obtain ⟨hn, ho, r0, r1, f0⟩ := enc_fields_52 0x78013FFF p (by decide) (by decide)
  refine decode_of rfl h hn ?_
  rw [decode_op_78 _ ho, decodeSys]
  simp only [r0, r1, fld_eq f0]
  rfl

theorem EncodeThenDecode.halt (p : BitVec 2) : EncodeThenDecode.Statement (.halt p) := by
  intro wd h
  obtain ⟨hn, ho, r0, r1, f0⟩ := enc_fields_52 0x78017FFF p (by decide) (by decide)
  refine decode_of rfl h hn ?_
  rw [decode_op_78 _ ho, decodeSys]
  simp only [r0, r1, fld_eq f0]
  rfl

theorem EncodeThenDecode.dbg (p : BitVec 2) : EncodeThenDecode.Statement (.dbg p) := by
  intro wd h
  obtain ⟨hn, ho, r0, r1, f0⟩ := enc_fields_52 0x7801BFFF p (by decide) (by decide)
  refine decode_of rfl h hn ?_
  rw [decode_op_78 _ ho, decodeSys]
  simp only [r0, r1, fld_eq f0]
  rfl

theorem EncodeThenDecode.wdog (p : BitVec 2) : EncodeThenDecode.Statement (.wdog p) := by
  intro wd h
  obtain ⟨hn, ho, r0, r1, f0⟩ := enc_fields_52 0x7801FFFF p (by decide) (by decide)
  refine decode_of rfl h hn ?_
  rw [decode_op_78 _ ho, decodeSys]
  simp only [r0, r1, fld_eq f0]
  rfl

theorem EncodeThenDecode.ecnt (p : BitVec 2) (b : BitVec 7) (a : BitVec 7) : EncodeThenDecode.Statement (.ecnt p b a) := by
  intro wd h
  obtain ⟨hn, ho, r0, f0, f1, f2⟩ := enc_fields_7 0x78020000 p b a (by decide) (by decide)
  refine decode_of rfl h hn ?_
  rw [decode_op_78 _ ho, decodeSys]
  simp only [r0, fld_eq f0, fld_eq f1, fld_eq f2]
  rfl

theorem EncodeThenDecode.telm (p : BitVec 2) : EncodeThenDecode.Statement (.telm p) := by
  intro wd h
  obtain ⟨hn, ho, r0, r1, f0⟩ := enc_fields_52 0x78027FFF p (by decide) (by decide)
  refine decode_of rfl h hn ?_
  rw [decode_op_78 _ ho, decodeSys]
  simp only [r0, r1, fld_eq f0]
  rfl

theorem EncodeThenDecode.cswp (p : BitVec 2) : EncodeThenDecode.Statement (.cswp p) := by
  intro wd h
  obtain ⟨hn, ho, r0, r1, f0⟩ := enc_fields_52 0x7802BFFF p (by decide) (by decide)
  refine decode_of rfl h hn ?_
  rw [decode_op_78 _ ho, decodeSys]
  simp only [r0, r1, fld_eq f0]
  rfl

theorem EncodeThenDecode.xflush (p : BitVec 2) (b : BitVec 7) (a : BitVec 7) : EncodeThenDecode.Statement (.xflush p b a) := by
  intro wd h
  obtain ⟨hn, ho, r0, f0, f1, f2⟩ := enc_fields_7 0x7802C000 p b a (by decide) (by decide)
  refine decode_of rfl h hn ?_
  rw [decode_op_78 _ ho, decodeSys]
  simp only [r0, fld_eq f0, fld_eq f1, fld_eq f2]
  rfl

theorem EncodeThenDecode.blockFetchDone : EncodeThenDecode.Statement .blockFetchDone := fun _ h => by cases h

theorem EncodeThenDecode.fetchFrame : EncodeThenDecode.Statement .fetchFrame := fun _ h => by cases h

theorem EncodeThenDecode.resultDelivery : EncodeThenDecode.Statement .resultDelivery := fun _ h => by cases h

theorem EncodeThenDecode.blockCommit : EncodeThenDecode.Statement .blockCommit := fun _ h => by cases h

theorem EncodeThenDecode.commitWaitRelease : EncodeThenDecode.Statement .commitWaitRelease := fun _ h => by cases h

theorem EncodeThenDecode.blockDead : EncodeThenDecode.Statement .blockDead := fun _ h => by cases h

theorem EncodeThenDecode.mwinOverrun : EncodeThenDecode.Statement .mwinOverrun := fun _ h => by cases h

theorem EncodeThenDecode.watchdog : EncodeThenDecode.Statement .watchdog := fun _ h => by cases h

theorem EncodeThenDecode.dispatchDecision : EncodeThenDecode.Statement .dispatchDecision := fun _ h => by cases h

theorem EncodeThenDecode.tokenArrival : EncodeThenDecode.Statement .tokenArrival := fun _ h => by cases h

theorem EncodeThenDecode.tagReturnToken : EncodeThenDecode.Statement .tagReturnToken := fun _ h => by cases h

theorem EncodeThenDecode.legacyAck : EncodeThenDecode.Statement .legacyAck := fun _ h => by cases h

theorem EncodeThenDecode.creditReturn : EncodeThenDecode.Statement .creditReturn := fun _ h => by cases h

theorem EncodeThenDecode.trapCreditRequest : EncodeThenDecode.Statement .trapCreditRequest := fun _ h => by cases h

theorem EncodeThenDecode.trapTokenSend : EncodeThenDecode.Statement .trapTokenSend := fun _ h => by cases h

theorem EncodeThenDecode.trapAnswerArrival : EncodeThenDecode.Statement .trapAnswerArrival := fun _ h => by cases h

theorem EncodeThenDecode.loadReply : EncodeThenDecode.Statement .loadReply := fun _ h => by cases h

theorem EncodeThenDecode.atomicApply : EncodeThenDecode.Statement .atomicApply := fun _ h => by cases h

theorem EncodeThenDecode.atomicReply : EncodeThenDecode.Statement .atomicReply := fun _ h => by cases h

theorem EncodeThenDecode.mTileRequest : EncodeThenDecode.Statement .mTileRequest := fun _ h => by cases h

theorem EncodeThenDecode.heldAccessRelease : EncodeThenDecode.Statement .heldAccessRelease := fun _ h => by cases h

theorem EncodeThenDecode.stoApply : EncodeThenDecode.Statement .stoApply := fun _ h => by cases h

theorem EncodeThenDecode.clroApply : EncodeThenDecode.Statement .clroApply := fun _ h => by cases h

theorem EncodeThenDecode.agcfgApply : EncodeThenDecode.Statement .agcfgApply := fun _ h => by cases h

theorem EncodeThenDecode.postCommitReport : EncodeThenDecode.Statement .postCommitReport := fun _ h => by cases h

theorem EncodeThenDecode.scRingToken : EncodeThenDecode.Statement .scRingToken := fun _ h => by cases h

theorem EncodeThenDecode.scstAcknowledge : EncodeThenDecode.Statement .scstAcknowledge := fun _ h => by cases h

theorem EncodeThenDecode.barrierLineComplete : EncodeThenDecode.Statement .barrierLineComplete := fun _ h => by cases h

theorem EncodeThenDecode.haltArrival : EncodeThenDecode.Statement .haltArrival := fun _ h => by cases h

theorem EncodeThenDecode.rowArrayCycle : EncodeThenDecode.Statement .rowArrayCycle := fun _ h => by cases h

theorem EncodeThenDecode.rowRound : EncodeThenDecode.Statement .rowRound := fun _ h => by cases h

theorem EncodeThenDecode.rowSlotCompletion : EncodeThenDecode.Statement .rowSlotCompletion := fun _ h => by cases h

theorem EncodeThenDecode.rowStall : EncodeThenDecode.Statement .rowStall := fun _ h => by cases h

theorem EncodeThenDecode.matrixOpBegin : EncodeThenDecode.Statement .matrixOpBegin := fun _ h => by cases h

theorem EncodeThenDecode.matrixOpEnd : EncodeThenDecode.Statement .matrixOpEnd := fun _ h => by cases h

theorem EncodeThenDecode.mmasStagingStart : EncodeThenDecode.Statement .mmasStagingStart := fun _ h => by cases h

theorem EncodeThenDecode.ballastPass : EncodeThenDecode.Statement .ballastPass := fun _ h => by cases h

theorem EncodeThenDecode.strmBindingEnd : EncodeThenDecode.Statement .strmBindingEnd := fun _ h => by cases h

theorem EncodeThenDecode.streamErrorReply : EncodeThenDecode.Statement .streamErrorReply := fun _ h => by cases h

theorem EncodeThenDecode.barrierObjectUpdate : EncodeThenDecode.Statement .barrierObjectUpdate := fun _ h => by cases h

theorem EncodeThenDecode.aggoDone : EncodeThenDecode.Statement .aggoDone := fun _ h => by cases h

theorem EncodeThenDecode.xflushDone : EncodeThenDecode.Statement .xflushDone := fun _ h => by cases h

theorem EncodeThenDecode.collTokenArrival : EncodeThenDecode.Statement .collTokenArrival := fun _ h => by cases h

theorem EncodeThenDecode.shoreRequest : EncodeThenDecode.Statement .shoreRequest := fun _ h => by cases h

theorem EncodeThenDecode.virtualRequestArrival : EncodeThenDecode.Statement .virtualRequestArrival := fun _ h => by cases h

theorem EncodeThenDecode.translationWalkEnd : EncodeThenDecode.Statement .translationWalkEnd := fun _ h => by cases h

theorem EncodeThenDecode.timeBeacon : EncodeThenDecode.Statement .timeBeacon := fun _ h => by cases h

theorem EncodeThenDecode.beaconLoss : EncodeThenDecode.Statement .beaconLoss := fun _ h => by cases h

theorem EncodeThenDecode.phaseFinish : EncodeThenDecode.Statement .phaseFinish := fun _ h => by cases h

theorem EncodeThenDecode.phaseStarvedSave : EncodeThenDecode.Statement .phaseStarvedSave := fun _ h => by cases h

theorem EncodeThenDecode.phasePick : EncodeThenDecode.Statement .phasePick := fun _ h => by cases h

theorem EncodeThenDecode.phaseConfigure : EncodeThenDecode.Statement .phaseConfigure := fun _ h => by cases h

theorem EncodeThenDecode.minqExpiry : EncodeThenDecode.Statement .minqExpiry := fun _ h => by cases h

theorem EncodeThenDecode.preemptStart : EncodeThenDecode.Statement .preemptStart := fun _ h => by cases h

theorem EncodeThenDecode.graceEnd : EncodeThenDecode.Statement .graceEnd := fun _ h => by cases h

theorem EncodeThenDecode.contextSave : EncodeThenDecode.Statement .contextSave := fun _ h => by cases h

theorem EncodeThenDecode.resumption : EncodeThenDecode.Statement .resumption := fun _ h => by cases h

theorem EncodeThenDecode.budgetPeriod : EncodeThenDecode.Statement .budgetPeriod := fun _ h => by cases h

theorem EncodeThenDecode.rebalancerMove : EncodeThenDecode.Statement .rebalancerMove := fun _ h => by cases h

theorem EncodeThenDecode.moveAbandon : EncodeThenDecode.Statement .moveAbandon := fun _ h => by cases h

theorem EncodeThenDecode.telemetryPeriod : EncodeThenDecode.Statement .telemetryPeriod := fun _ h => by cases h

theorem EncodeThenDecode.launchSlotMap : EncodeThenDecode.Statement .launchSlotMap := fun _ h => by cases h

theorem EncodeThenDecode.launchSlotTimeout : EncodeThenDecode.Statement .launchSlotTimeout := fun _ h => by cases h

theorem EncodeThenDecode.periodicWaveTimer : EncodeThenDecode.Statement .periodicWaveTimer := fun _ h => by cases h

theorem EncodeThenDecode.waveStart : EncodeThenDecode.Statement .waveStart := fun _ h => by cases h

theorem EncodeThenDecode.actorAlign : EncodeThenDecode.Statement .actorAlign := fun _ h => by cases h

theorem EncodeThenDecode.tileCut : EncodeThenDecode.Statement .tileCut := fun _ h => by cases h

theorem EncodeThenDecode.agentCut : EncodeThenDecode.Statement .agentCut := fun _ h => by cases h

theorem EncodeThenDecode.waveComplete : EncodeThenDecode.Statement .waveComplete := fun _ h => by cases h

theorem EncodeThenDecode.sealPoint : EncodeThenDecode.Statement .sealPoint := fun _ h => by cases h

theorem EncodeThenDecode.sealed : EncodeThenDecode.Statement .sealed := fun _ h => by cases h

theorem EncodeThenDecode.retagSweepEnd : EncodeThenDecode.Statement .retagSweepEnd := fun _ h => by cases h

theorem EncodeThenDecode.uncorrectable : EncodeThenDecode.Statement .uncorrectable := fun _ h => by cases h

theorem EncodeThenDecode.rollback : EncodeThenDecode.Statement .rollback := fun _ h => by cases h

theorem EncodeThenDecode.flitHop : EncodeThenDecode.Statement .flitHop := fun _ h => by cases h

theorem EncodeThenDecode.flitReceive : EncodeThenDecode.Statement .flitReceive := fun _ h => by cases h

theorem EncodeThenDecode.ackReceive : EncodeThenDecode.Statement .ackReceive := fun _ h => by cases h

theorem EncodeThenDecode.ackTimer : EncodeThenDecode.Statement .ackTimer := fun _ h => by cases h

theorem EncodeThenDecode.resendTimeout : EncodeThenDecode.Statement .resendTimeout := fun _ h => by cases h

theorem EncodeThenDecode.linkDead : EncodeThenDecode.Statement .linkDead := fun _ h => by cases h

theorem EncodeThenDecode.siteDeath : EncodeThenDecode.Statement .siteDeath := fun _ h => by cases h

theorem EncodeThenDecode.flip : EncodeThenDecode.Statement .flip := fun _ h => by cases h

theorem EncodeThenDecode.flipGraceEnd : EncodeThenDecode.Statement .flipGraceEnd := fun _ h => by cases h

theorem EncodeThenDecode.connectionCreate : EncodeThenDecode.Statement .connectionCreate := fun _ h => by cases h

theorem EncodeThenDecode.fjoithFrameReceive : EncodeThenDecode.Statement .fjoithFrameReceive := fun _ h => by cases h

theorem EncodeThenDecode.fjoithResendTimeout : EncodeThenDecode.Statement .fjoithResendTimeout := fun _ h => by cases h

theorem EncodeThenDecode.fjoithLaneLoss : EncodeThenDecode.Statement .fjoithLaneLoss := fun _ h => by cases h

theorem EncodeThenDecode.fjoithRetrainDone : EncodeThenDecode.Statement .fjoithRetrainDone := fun _ h => by cases h

theorem EncodeThenDecode.fjoithRetryTimer : EncodeThenDecode.Statement .fjoithRetryTimer := fun _ h => by cases h

theorem EncodeThenDecode.fjoithControlFlit : EncodeThenDecode.Statement .fjoithControlFlit := fun _ h => by cases h

theorem EncodeThenDecode.mctpRequest : EncodeThenDecode.Statement .mctpRequest := fun _ h => by cases h

theorem EncodeThenDecode.partdefCreate : EncodeThenDecode.Statement .partdefCreate := fun _ h => by cases h

theorem EncodeThenDecode.partdefDelete : EncodeThenDecode.Statement .partdefDelete := fun _ h => by cases h

theorem EncodeThenDecode.qtailWrite : EncodeThenDecode.Statement .qtailWrite := fun _ h => by cases h

theorem EncodeThenDecode.qheadWrite : EncodeThenDecode.Statement .qheadWrite := fun _ h => by cases h

theorem EncodeThenDecode.spanWrite : EncodeThenDecode.Statement .spanWrite := fun _ h => by cases h

theorem EncodeThenDecode.ptrootWrite : EncodeThenDecode.Statement .ptrootWrite := fun _ h => by cases h

theorem EncodeThenDecode.invalPage : EncodeThenDecode.Statement .invalPage := fun _ h => by cases h

theorem EncodeThenDecode.invalAll : EncodeThenDecode.Statement .invalAll := fun _ h => by cases h

theorem EncodeThenDecode.fretryRetry : EncodeThenDecode.Statement .fretryRetry := fun _ h => by cases h

theorem EncodeThenDecode.fretryAbort : EncodeThenDecode.Statement .fretryAbort := fun _ h => by cases h

theorem EncodeThenDecode.esnonceWrite : EncodeThenDecode.Statement .esnonceWrite := fun _ h => by cases h

theorem EncodeThenDecode.attnonceWrite : EncodeThenDecode.Statement .attnonceWrite := fun _ h => by cases h

theorem EncodeThenDecode.keycmdLoad : EncodeThenDecode.Statement .keycmdLoad := fun _ h => by cases h

theorem EncodeThenDecode.keycmdGen : EncodeThenDecode.Statement .keycmdGen := fun _ h => by cases h

theorem EncodeThenDecode.keycmdZero : EncodeThenDecode.Statement .keycmdZero := fun _ h => by cases h

theorem EncodeThenDecode.fwcmdLoad : EncodeThenDecode.Statement .fwcmdLoad := fun _ h => by cases h

theorem EncodeThenDecode.fwLoadDone : EncodeThenDecode.Statement .fwLoadDone := fun _ h => by cases h

theorem EncodeThenDecode.fwcmdCommit : EncodeThenDecode.Statement .fwcmdCommit := fun _ h => by cases h

theorem EncodeThenDecode.sundoWrite : EncodeThenDecode.Statement .sundoWrite := fun _ h => by cases h

theorem EncodeThenDecode.registerWrite : EncodeThenDecode.Statement .registerWrite := fun _ h => by cases h

theorem EncodeThenDecode.flr : EncodeThenDecode.Statement .flr := fun _ h => by cases h

theorem EncodeThenDecode.bringUp : EncodeThenDecode.Statement .bringUp := fun _ h => by cases h

theorem EncodeThenDecode.thermalTrip : EncodeThenDecode.Statement .thermalTrip := fun _ h => by cases h

theorem EncodeThenDecode.counterFlash : EncodeThenDecode.Statement .counterFlash := fun _ h => by cases h

theorem EncodeThenDecode.auxPowerLoss : EncodeThenDecode.Statement .auxPowerLoss := fun _ h => by cases h

theorem EncodeThenDecode.engineBeat : EncodeThenDecode.Statement .engineBeat := fun _ h => by cases h

theorem EncodeThenDecode.remoteTileRequest : EncodeThenDecode.Statement .remoteTileRequest := fun _ h => by cases h

theorem EncodeThenDecode.hostPortLinkDown : EncodeThenDecode.Statement .hostPortLinkDown := fun _ h => by cases h

theorem EncodeThenDecode.hostPortLinkUp : EncodeThenDecode.Statement .hostPortLinkUp := fun _ h => by cases h

theorem EncodeThenDecode.vfEnableWrite : EncodeThenDecode.Statement .vfEnableWrite := fun _ h => by cases h

theorem EncodeThenDecode.hostReadCompletion : EncodeThenDecode.Statement .hostReadCompletion := fun _ h => by cases h

theorem EncodeThenDecode.ecntRecordReady : EncodeThenDecode.Statement .ecntRecordReady := fun _ h => by cases h

theorem EncodeThenDecode.invalidationDone : EncodeThenDecode.Statement .invalidationDone := fun _ h => by cases h

theorem EncodeThenDecode.partitionDeleteDone : EncodeThenDecode.Statement .partitionDeleteDone := fun _ h => by cases h

end Sys2Proof.Laws
end

