-- ==== Sys2Proof/Laws/State.lean ====
section
/-!
SUPPORT. What each basic update of the state leaves as it was: one lemma for each field and update, so that no later proof unfolds a record
update.
-/

namespace Sys2Proof.Laws

open Sys2Proof Sys2Proof.Machine

@[simp] theorem setCore_cur (s : State) (c : CTile) : (s.setCore c).cur = s.cur := rfl
@[simp] theorem setCore_tiles (s : State) (c : CTile) : (s.setCore c).tiles = s.tiles := rfl
@[simp] theorem setCore_agent (s : State) (c : CTile) : (s.setCore c).agent = s.agent := rfl
@[simp] theorem setCore_agenda (s : State) (c : CTile) : (s.setCore c).agenda = s.agenda := rfl
@[simp] theorem setCore_inp (s : State) (c : CTile) : (s.setCore c).inp = s.inp := rfl
@[simp] theorem setCore_mts (s : State) (c : CTile) : (s.setCore c).mts = s.mts := rfl
@[simp] theorem setCore_mem (s : State) (c : CTile) : (s.setCore c).mem = s.mem := rfl
@[simp] theorem setCore_bad (s : State) (c : CTile) : (s.setCore c).bad = s.bad := rfl
@[simp] theorem setCore_lineKey (s : State) (c : CTile) : (s.setCore c).lineKey = s.lineKey := rfl
@[simp] theorem setCore_parts (s : State) (c : CTile) : (s.setCore c).parts = s.parts := rfl
@[simp] theorem setCore_regions (s : State) (c : CTile) : (s.setCore c).regions = s.regions := rfl
@[simp] theorem setCore_images (s : State) (c : CTile) : (s.setCore c).images = s.images := rfl
@[simp] theorem setCore_queues (s : State) (c : CTile) : (s.setCore c).queues = s.queues := rfl
@[simp] theorem setCore_lslots (s : State) (c : CTile) : (s.setCore c).lslots = s.lslots := rfl
@[simp] theorem setCore_ports (s : State) (c : CTile) : (s.setCore c).ports = s.ports := rfl
@[simp] theorem setCore_recvs (s : State) (c : CTile) : (s.setCore c).recvs = s.recvs := rfl
@[simp] theorem setCore_fjs (s : State) (c : CTile) : (s.setCore c).fjs = s.fjs := rfl
@[simp] theorem setCore_fabric (s : State) (c : CTile) : (s.setCore c).fabric = s.fabric := rfl
@[simp] theorem setCore_head (s : State) (c : CTile) : (s.setCore c).head = s.head := rfl
@[simp] theorem setCore_fuses (s : State) (c : CTile) : (s.setCore c).fuses = s.fuses := rfl
@[simp] theorem setCore_net (s : State) (c : CTile) : (s.setCore c).net = s.net := rfl
@[simp] theorem setCore_inbox (s : State) (c : CTile) : (s.setCore c).inbox = s.inbox := rfl
@[simp] theorem setCore_waiting (s : State) (c : CTile) : (s.setCore c).waiting = s.waiting := rfl
@[simp] theorem setCore_replays (s : State) (c : CTile) : (s.setCore c).replays = s.replays := rfl
@[simp] theorem setCore_time (s : State) (c : CTile) : (s.setCore c).time = s.time := rfl
@[simp] theorem setCore_free (s : State) (c : CTile) : (s.setCore c).free = s.free := rfl
@[simp] theorem setCore_nextId (s : State) (c : CTile) : (s.setCore c).nextId = s.nextId := rfl
@[simp] theorem setLevel_cur (s : State) (hi : Bool) (l : Level) : (s.setLevel hi l).cur = s.cur := rfl
@[simp] theorem setLevel_tiles (s : State) (hi : Bool) (l : Level) : (s.setLevel hi l).tiles = s.tiles := rfl
@[simp] theorem setLevel_agent (s : State) (hi : Bool) (l : Level) : (s.setLevel hi l).agent = s.agent := rfl
@[simp] theorem setLevel_agenda (s : State) (hi : Bool) (l : Level) : (s.setLevel hi l).agenda = s.agenda := rfl
@[simp] theorem setLevel_inp (s : State) (hi : Bool) (l : Level) : (s.setLevel hi l).inp = s.inp := rfl
@[simp] theorem setLevel_mts (s : State) (hi : Bool) (l : Level) : (s.setLevel hi l).mts = s.mts := rfl
@[simp] theorem setLevel_mem (s : State) (hi : Bool) (l : Level) : (s.setLevel hi l).mem = s.mem := rfl
@[simp] theorem setLevel_bad (s : State) (hi : Bool) (l : Level) : (s.setLevel hi l).bad = s.bad := rfl
@[simp] theorem setLevel_lineKey (s : State) (hi : Bool) (l : Level) : (s.setLevel hi l).lineKey = s.lineKey := rfl
@[simp] theorem setLevel_parts (s : State) (hi : Bool) (l : Level) : (s.setLevel hi l).parts = s.parts := rfl
@[simp] theorem setLevel_regions (s : State) (hi : Bool) (l : Level) : (s.setLevel hi l).regions = s.regions := rfl
@[simp] theorem setLevel_images (s : State) (hi : Bool) (l : Level) : (s.setLevel hi l).images = s.images := rfl
@[simp] theorem setLevel_queues (s : State) (hi : Bool) (l : Level) : (s.setLevel hi l).queues = s.queues := rfl
@[simp] theorem setLevel_lslots (s : State) (hi : Bool) (l : Level) : (s.setLevel hi l).lslots = s.lslots := rfl
@[simp] theorem setLevel_ports (s : State) (hi : Bool) (l : Level) : (s.setLevel hi l).ports = s.ports := rfl
@[simp] theorem setLevel_recvs (s : State) (hi : Bool) (l : Level) : (s.setLevel hi l).recvs = s.recvs := rfl
@[simp] theorem setLevel_fjs (s : State) (hi : Bool) (l : Level) : (s.setLevel hi l).fjs = s.fjs := rfl
@[simp] theorem setLevel_fabric (s : State) (hi : Bool) (l : Level) : (s.setLevel hi l).fabric = s.fabric := rfl
@[simp] theorem setLevel_head (s : State) (hi : Bool) (l : Level) : (s.setLevel hi l).head = s.head := rfl
@[simp] theorem setLevel_fuses (s : State) (hi : Bool) (l : Level) : (s.setLevel hi l).fuses = s.fuses := rfl
@[simp] theorem setLevel_net (s : State) (hi : Bool) (l : Level) : (s.setLevel hi l).net = s.net := rfl
@[simp] theorem setLevel_inbox (s : State) (hi : Bool) (l : Level) : (s.setLevel hi l).inbox = s.inbox := rfl
@[simp] theorem setLevel_waiting (s : State) (hi : Bool) (l : Level) : (s.setLevel hi l).waiting = s.waiting := rfl
@[simp] theorem setLevel_replays (s : State) (hi : Bool) (l : Level) : (s.setLevel hi l).replays = s.replays := rfl
@[simp] theorem setLevel_time (s : State) (hi : Bool) (l : Level) : (s.setLevel hi l).time = s.time := rfl
@[simp] theorem setLevel_free (s : State) (hi : Bool) (l : Level) : (s.setLevel hi l).free = s.free := rfl
@[simp] theorem setLevel_nextId (s : State) (hi : Bool) (l : Level) : (s.setLevel hi l).nextId = s.nextId := rfl
@[simp] theorem tick_cur (s : State) : (s.tick).cur = s.cur := rfl
@[simp] theorem tick_core (s : State) : (s.tick).core = s.core := rfl
@[simp] theorem tick_tiles (s : State) : (s.tick).tiles = s.tiles := rfl
@[simp] theorem tick_agent (s : State) : (s.tick).agent = s.agent := rfl
@[simp] theorem tick_agenda (s : State) : (s.tick).agenda = s.agenda := rfl
@[simp] theorem tick_inp (s : State) : (s.tick).inp = s.inp := rfl
@[simp] theorem tick_mts (s : State) : (s.tick).mts = s.mts := rfl
@[simp] theorem tick_mem (s : State) : (s.tick).mem = s.mem := rfl
@[simp] theorem tick_bad (s : State) : (s.tick).bad = s.bad := rfl
@[simp] theorem tick_lineKey (s : State) : (s.tick).lineKey = s.lineKey := rfl
@[simp] theorem tick_parts (s : State) : (s.tick).parts = s.parts := rfl
@[simp] theorem tick_regions (s : State) : (s.tick).regions = s.regions := rfl
@[simp] theorem tick_images (s : State) : (s.tick).images = s.images := rfl
@[simp] theorem tick_queues (s : State) : (s.tick).queues = s.queues := rfl
@[simp] theorem tick_lslots (s : State) : (s.tick).lslots = s.lslots := rfl
@[simp] theorem tick_ports (s : State) : (s.tick).ports = s.ports := rfl
@[simp] theorem tick_recvs (s : State) : (s.tick).recvs = s.recvs := rfl
@[simp] theorem tick_fjs (s : State) : (s.tick).fjs = s.fjs := rfl
@[simp] theorem tick_fabric (s : State) : (s.tick).fabric = s.fabric := rfl
@[simp] theorem tick_head (s : State) : (s.tick).head = s.head := rfl
@[simp] theorem tick_fuses (s : State) : (s.tick).fuses = s.fuses := rfl
@[simp] theorem tick_net (s : State) : (s.tick).net = s.net := rfl
@[simp] theorem tick_inbox (s : State) : (s.tick).inbox = s.inbox := rfl
@[simp] theorem tick_waiting (s : State) : (s.tick).waiting = s.waiting := rfl
@[simp] theorem tick_replays (s : State) : (s.tick).replays = s.replays := rfl
@[simp] theorem tick_time (s : State) : (s.tick).time = s.time := rfl
@[simp] theorem tick_nextId (s : State) : (s.tick).nextId = s.nextId := rfl
@[simp] theorem fresh_cur (s : State) : (s.fresh).cur = s.cur := rfl
@[simp] theorem fresh_core (s : State) : (s.fresh).core = s.core := rfl
@[simp] theorem fresh_tiles (s : State) : (s.fresh).tiles = s.tiles := rfl
@[simp] theorem fresh_agent (s : State) : (s.fresh).agent = s.agent := rfl
@[simp] theorem fresh_agenda (s : State) : (s.fresh).agenda = s.agenda := rfl
@[simp] theorem fresh_inp (s : State) : (s.fresh).inp = s.inp := rfl
@[simp] theorem fresh_mts (s : State) : (s.fresh).mts = s.mts := rfl
@[simp] theorem fresh_mem (s : State) : (s.fresh).mem = s.mem := rfl
@[simp] theorem fresh_bad (s : State) : (s.fresh).bad = s.bad := rfl
@[simp] theorem fresh_lineKey (s : State) : (s.fresh).lineKey = s.lineKey := rfl
@[simp] theorem fresh_parts (s : State) : (s.fresh).parts = s.parts := rfl
@[simp] theorem fresh_regions (s : State) : (s.fresh).regions = s.regions := rfl
@[simp] theorem fresh_images (s : State) : (s.fresh).images = s.images := rfl
@[simp] theorem fresh_queues (s : State) : (s.fresh).queues = s.queues := rfl
@[simp] theorem fresh_lslots (s : State) : (s.fresh).lslots = s.lslots := rfl
@[simp] theorem fresh_ports (s : State) : (s.fresh).ports = s.ports := rfl
@[simp] theorem fresh_recvs (s : State) : (s.fresh).recvs = s.recvs := rfl
@[simp] theorem fresh_fjs (s : State) : (s.fresh).fjs = s.fjs := rfl
@[simp] theorem fresh_fabric (s : State) : (s.fresh).fabric = s.fabric := rfl
@[simp] theorem fresh_head (s : State) : (s.fresh).head = s.head := rfl
@[simp] theorem fresh_fuses (s : State) : (s.fresh).fuses = s.fuses := rfl
@[simp] theorem fresh_net (s : State) : (s.fresh).net = s.net := rfl
@[simp] theorem fresh_inbox (s : State) : (s.fresh).inbox = s.inbox := rfl
@[simp] theorem fresh_waiting (s : State) : (s.fresh).waiting = s.waiting := rfl
@[simp] theorem fresh_replays (s : State) : (s.fresh).replays = s.replays := rfl
@[simp] theorem fresh_time (s : State) : (s.fresh).time = s.time := rfl
@[simp] theorem fresh_free (s : State) : (s.fresh).free = s.free := rfl
@[simp] theorem puts_cur (s : State) (k : Nat) (bs : List Byte) : (s.puts k bs).cur = s.cur := rfl
@[simp] theorem puts_core (s : State) (k : Nat) (bs : List Byte) : (s.puts k bs).core = s.core := rfl
@[simp] theorem puts_tiles (s : State) (k : Nat) (bs : List Byte) : (s.puts k bs).tiles = s.tiles := rfl
@[simp] theorem puts_agent (s : State) (k : Nat) (bs : List Byte) : (s.puts k bs).agent = s.agent := rfl
@[simp] theorem puts_agenda (s : State) (k : Nat) (bs : List Byte) : (s.puts k bs).agenda = s.agenda := rfl
@[simp] theorem puts_inp (s : State) (k : Nat) (bs : List Byte) : (s.puts k bs).inp = s.inp := rfl
@[simp] theorem puts_mts (s : State) (k : Nat) (bs : List Byte) : (s.puts k bs).mts = s.mts := rfl
@[simp] theorem puts_lineKey (s : State) (k : Nat) (bs : List Byte) : (s.puts k bs).lineKey = s.lineKey := rfl
@[simp] theorem puts_parts (s : State) (k : Nat) (bs : List Byte) : (s.puts k bs).parts = s.parts := rfl
@[simp] theorem puts_regions (s : State) (k : Nat) (bs : List Byte) : (s.puts k bs).regions = s.regions := rfl
@[simp] theorem puts_images (s : State) (k : Nat) (bs : List Byte) : (s.puts k bs).images = s.images := rfl
@[simp] theorem puts_queues (s : State) (k : Nat) (bs : List Byte) : (s.puts k bs).queues = s.queues := rfl
@[simp] theorem puts_lslots (s : State) (k : Nat) (bs : List Byte) : (s.puts k bs).lslots = s.lslots := rfl
@[simp] theorem puts_ports (s : State) (k : Nat) (bs : List Byte) : (s.puts k bs).ports = s.ports := rfl
@[simp] theorem puts_recvs (s : State) (k : Nat) (bs : List Byte) : (s.puts k bs).recvs = s.recvs := rfl
@[simp] theorem puts_fjs (s : State) (k : Nat) (bs : List Byte) : (s.puts k bs).fjs = s.fjs := rfl
@[simp] theorem puts_fabric (s : State) (k : Nat) (bs : List Byte) : (s.puts k bs).fabric = s.fabric := rfl
@[simp] theorem puts_head (s : State) (k : Nat) (bs : List Byte) : (s.puts k bs).head = s.head := rfl
@[simp] theorem puts_fuses (s : State) (k : Nat) (bs : List Byte) : (s.puts k bs).fuses = s.fuses := rfl
@[simp] theorem puts_net (s : State) (k : Nat) (bs : List Byte) : (s.puts k bs).net = s.net := rfl
@[simp] theorem puts_inbox (s : State) (k : Nat) (bs : List Byte) : (s.puts k bs).inbox = s.inbox := rfl
@[simp] theorem puts_waiting (s : State) (k : Nat) (bs : List Byte) : (s.puts k bs).waiting = s.waiting := rfl
@[simp] theorem puts_replays (s : State) (k : Nat) (bs : List Byte) : (s.puts k bs).replays = s.replays := rfl
@[simp] theorem puts_time (s : State) (k : Nat) (bs : List Byte) : (s.puts k bs).time = s.time := rfl
@[simp] theorem puts_free (s : State) (k : Nat) (bs : List Byte) : (s.puts k bs).free = s.free := rfl
@[simp] theorem puts_nextId (s : State) (k : Nat) (bs : List Byte) : (s.puts k bs).nextId = s.nextId := rfl
@[simp] theorem setMt_cur (s : State) (t : Nat) (m : MTile) : (s.setMt t m).cur = s.cur := rfl
@[simp] theorem setMt_core (s : State) (t : Nat) (m : MTile) : (s.setMt t m).core = s.core := rfl
@[simp] theorem setMt_tiles (s : State) (t : Nat) (m : MTile) : (s.setMt t m).tiles = s.tiles := rfl
@[simp] theorem setMt_agent (s : State) (t : Nat) (m : MTile) : (s.setMt t m).agent = s.agent := rfl
@[simp] theorem setMt_agenda (s : State) (t : Nat) (m : MTile) : (s.setMt t m).agenda = s.agenda := rfl
@[simp] theorem setMt_inp (s : State) (t : Nat) (m : MTile) : (s.setMt t m).inp = s.inp := rfl
@[simp] theorem setMt_mem (s : State) (t : Nat) (m : MTile) : (s.setMt t m).mem = s.mem := rfl
@[simp] theorem setMt_bad (s : State) (t : Nat) (m : MTile) : (s.setMt t m).bad = s.bad := rfl
@[simp] theorem setMt_lineKey (s : State) (t : Nat) (m : MTile) : (s.setMt t m).lineKey = s.lineKey := rfl
@[simp] theorem setMt_parts (s : State) (t : Nat) (m : MTile) : (s.setMt t m).parts = s.parts := rfl
@[simp] theorem setMt_regions (s : State) (t : Nat) (m : MTile) : (s.setMt t m).regions = s.regions := rfl
@[simp] theorem setMt_images (s : State) (t : Nat) (m : MTile) : (s.setMt t m).images = s.images := rfl
@[simp] theorem setMt_queues (s : State) (t : Nat) (m : MTile) : (s.setMt t m).queues = s.queues := rfl
@[simp] theorem setMt_lslots (s : State) (t : Nat) (m : MTile) : (s.setMt t m).lslots = s.lslots := rfl
@[simp] theorem setMt_ports (s : State) (t : Nat) (m : MTile) : (s.setMt t m).ports = s.ports := rfl
@[simp] theorem setMt_recvs (s : State) (t : Nat) (m : MTile) : (s.setMt t m).recvs = s.recvs := rfl
@[simp] theorem setMt_fjs (s : State) (t : Nat) (m : MTile) : (s.setMt t m).fjs = s.fjs := rfl
@[simp] theorem setMt_fabric (s : State) (t : Nat) (m : MTile) : (s.setMt t m).fabric = s.fabric := rfl
@[simp] theorem setMt_head (s : State) (t : Nat) (m : MTile) : (s.setMt t m).head = s.head := rfl
@[simp] theorem setMt_fuses (s : State) (t : Nat) (m : MTile) : (s.setMt t m).fuses = s.fuses := rfl
@[simp] theorem setMt_net (s : State) (t : Nat) (m : MTile) : (s.setMt t m).net = s.net := rfl
@[simp] theorem setMt_inbox (s : State) (t : Nat) (m : MTile) : (s.setMt t m).inbox = s.inbox := rfl
@[simp] theorem setMt_waiting (s : State) (t : Nat) (m : MTile) : (s.setMt t m).waiting = s.waiting := rfl
@[simp] theorem setMt_replays (s : State) (t : Nat) (m : MTile) : (s.setMt t m).replays = s.replays := rfl
@[simp] theorem setMt_time (s : State) (t : Nat) (m : MTile) : (s.setMt t m).time = s.time := rfl
@[simp] theorem setMt_free (s : State) (t : Nat) (m : MTile) : (s.setMt t m).free = s.free := rfl
@[simp] theorem setMt_nextId (s : State) (t : Nat) (m : MTile) : (s.setMt t m).nextId = s.nextId := rfl
@[simp] theorem setRecv_cur (s : State) (n : Nat) (r : Recv) : (s.setRecv n r).cur = s.cur := rfl
@[simp] theorem setRecv_core (s : State) (n : Nat) (r : Recv) : (s.setRecv n r).core = s.core := rfl
@[simp] theorem setRecv_tiles (s : State) (n : Nat) (r : Recv) : (s.setRecv n r).tiles = s.tiles := rfl
@[simp] theorem setRecv_agent (s : State) (n : Nat) (r : Recv) : (s.setRecv n r).agent = s.agent := rfl
@[simp] theorem setRecv_agenda (s : State) (n : Nat) (r : Recv) : (s.setRecv n r).agenda = s.agenda := rfl
@[simp] theorem setRecv_inp (s : State) (n : Nat) (r : Recv) : (s.setRecv n r).inp = s.inp := rfl
@[simp] theorem setRecv_mts (s : State) (n : Nat) (r : Recv) : (s.setRecv n r).mts = s.mts := rfl
@[simp] theorem setRecv_mem (s : State) (n : Nat) (r : Recv) : (s.setRecv n r).mem = s.mem := rfl
@[simp] theorem setRecv_bad (s : State) (n : Nat) (r : Recv) : (s.setRecv n r).bad = s.bad := rfl
@[simp] theorem setRecv_lineKey (s : State) (n : Nat) (r : Recv) : (s.setRecv n r).lineKey = s.lineKey := rfl
@[simp] theorem setRecv_parts (s : State) (n : Nat) (r : Recv) : (s.setRecv n r).parts = s.parts := rfl
@[simp] theorem setRecv_regions (s : State) (n : Nat) (r : Recv) : (s.setRecv n r).regions = s.regions := rfl
@[simp] theorem setRecv_images (s : State) (n : Nat) (r : Recv) : (s.setRecv n r).images = s.images := rfl
@[simp] theorem setRecv_queues (s : State) (n : Nat) (r : Recv) : (s.setRecv n r).queues = s.queues := rfl
@[simp] theorem setRecv_lslots (s : State) (n : Nat) (r : Recv) : (s.setRecv n r).lslots = s.lslots := rfl
@[simp] theorem setRecv_ports (s : State) (n : Nat) (r : Recv) : (s.setRecv n r).ports = s.ports := rfl
@[simp] theorem setRecv_fjs (s : State) (n : Nat) (r : Recv) : (s.setRecv n r).fjs = s.fjs := rfl
@[simp] theorem setRecv_fabric (s : State) (n : Nat) (r : Recv) : (s.setRecv n r).fabric = s.fabric := rfl
@[simp] theorem setRecv_head (s : State) (n : Nat) (r : Recv) : (s.setRecv n r).head = s.head := rfl
@[simp] theorem setRecv_fuses (s : State) (n : Nat) (r : Recv) : (s.setRecv n r).fuses = s.fuses := rfl
@[simp] theorem setRecv_net (s : State) (n : Nat) (r : Recv) : (s.setRecv n r).net = s.net := rfl
@[simp] theorem setRecv_inbox (s : State) (n : Nat) (r : Recv) : (s.setRecv n r).inbox = s.inbox := rfl
@[simp] theorem setRecv_waiting (s : State) (n : Nat) (r : Recv) : (s.setRecv n r).waiting = s.waiting := rfl
@[simp] theorem setRecv_replays (s : State) (n : Nat) (r : Recv) : (s.setRecv n r).replays = s.replays := rfl
@[simp] theorem setRecv_time (s : State) (n : Nat) (r : Recv) : (s.setRecv n r).time = s.time := rfl
@[simp] theorem setRecv_free (s : State) (n : Nat) (r : Recv) : (s.setRecv n r).free = s.free := rfl
@[simp] theorem setRecv_nextId (s : State) (n : Nat) (r : Recv) : (s.setRecv n r).nextId = s.nextId := rfl
@[simp] theorem modPart_cur (s : State) (p : Nat) (f : Partition → Partition) : (s.modPart p f).cur = s.cur := rfl
@[simp] theorem modPart_core (s : State) (p : Nat) (f : Partition → Partition) : (s.modPart p f).core = s.core := rfl
@[simp] theorem modPart_tiles (s : State) (p : Nat) (f : Partition → Partition) : (s.modPart p f).tiles = s.tiles := rfl
@[simp] theorem modPart_agent (s : State) (p : Nat) (f : Partition → Partition) : (s.modPart p f).agent = s.agent := rfl
@[simp] theorem modPart_agenda (s : State) (p : Nat) (f : Partition → Partition) : (s.modPart p f).agenda = s.agenda := rfl
@[simp] theorem modPart_inp (s : State) (p : Nat) (f : Partition → Partition) : (s.modPart p f).inp = s.inp := rfl
@[simp] theorem modPart_mts (s : State) (p : Nat) (f : Partition → Partition) : (s.modPart p f).mts = s.mts := rfl
@[simp] theorem modPart_mem (s : State) (p : Nat) (f : Partition → Partition) : (s.modPart p f).mem = s.mem := rfl
@[simp] theorem modPart_bad (s : State) (p : Nat) (f : Partition → Partition) : (s.modPart p f).bad = s.bad := rfl
@[simp] theorem modPart_lineKey (s : State) (p : Nat) (f : Partition → Partition) : (s.modPart p f).lineKey = s.lineKey := rfl
@[simp] theorem modPart_regions (s : State) (p : Nat) (f : Partition → Partition) : (s.modPart p f).regions = s.regions := rfl
@[simp] theorem modPart_images (s : State) (p : Nat) (f : Partition → Partition) : (s.modPart p f).images = s.images := rfl
@[simp] theorem modPart_queues (s : State) (p : Nat) (f : Partition → Partition) : (s.modPart p f).queues = s.queues := rfl
@[simp] theorem modPart_lslots (s : State) (p : Nat) (f : Partition → Partition) : (s.modPart p f).lslots = s.lslots := rfl
@[simp] theorem modPart_ports (s : State) (p : Nat) (f : Partition → Partition) : (s.modPart p f).ports = s.ports := rfl
@[simp] theorem modPart_recvs (s : State) (p : Nat) (f : Partition → Partition) : (s.modPart p f).recvs = s.recvs := rfl
@[simp] theorem modPart_fjs (s : State) (p : Nat) (f : Partition → Partition) : (s.modPart p f).fjs = s.fjs := rfl
@[simp] theorem modPart_fabric (s : State) (p : Nat) (f : Partition → Partition) : (s.modPart p f).fabric = s.fabric := rfl
@[simp] theorem modPart_head (s : State) (p : Nat) (f : Partition → Partition) : (s.modPart p f).head = s.head := rfl
@[simp] theorem modPart_fuses (s : State) (p : Nat) (f : Partition → Partition) : (s.modPart p f).fuses = s.fuses := rfl
@[simp] theorem modPart_net (s : State) (p : Nat) (f : Partition → Partition) : (s.modPart p f).net = s.net := rfl
@[simp] theorem modPart_inbox (s : State) (p : Nat) (f : Partition → Partition) : (s.modPart p f).inbox = s.inbox := rfl
@[simp] theorem modPart_waiting (s : State) (p : Nat) (f : Partition → Partition) : (s.modPart p f).waiting = s.waiting := rfl
@[simp] theorem modPart_replays (s : State) (p : Nat) (f : Partition → Partition) : (s.modPart p f).replays = s.replays := rfl
@[simp] theorem modPart_time (s : State) (p : Nat) (f : Partition → Partition) : (s.modPart p f).time = s.time := rfl
@[simp] theorem modPart_free (s : State) (p : Nat) (f : Partition → Partition) : (s.modPart p f).free = s.free := rfl
@[simp] theorem modPart_nextId (s : State) (p : Nat) (f : Partition → Partition) : (s.modPart p f).nextId = s.nextId := rfl
@[simp] theorem modCh_cur (s : State) (f : Chans → Chans) : (s.modCh f).cur = s.cur := rfl
@[simp] theorem modCh_tiles (s : State) (f : Chans → Chans) : (s.modCh f).tiles = s.tiles := rfl
@[simp] theorem modCh_agent (s : State) (f : Chans → Chans) : (s.modCh f).agent = s.agent := rfl
@[simp] theorem modCh_agenda (s : State) (f : Chans → Chans) : (s.modCh f).agenda = s.agenda := rfl
@[simp] theorem modCh_inp (s : State) (f : Chans → Chans) : (s.modCh f).inp = s.inp := rfl
@[simp] theorem modCh_mts (s : State) (f : Chans → Chans) : (s.modCh f).mts = s.mts := rfl
@[simp] theorem modCh_mem (s : State) (f : Chans → Chans) : (s.modCh f).mem = s.mem := rfl
@[simp] theorem modCh_bad (s : State) (f : Chans → Chans) : (s.modCh f).bad = s.bad := rfl
@[simp] theorem modCh_lineKey (s : State) (f : Chans → Chans) : (s.modCh f).lineKey = s.lineKey := rfl
@[simp] theorem modCh_parts (s : State) (f : Chans → Chans) : (s.modCh f).parts = s.parts := rfl
@[simp] theorem modCh_regions (s : State) (f : Chans → Chans) : (s.modCh f).regions = s.regions := rfl
@[simp] theorem modCh_images (s : State) (f : Chans → Chans) : (s.modCh f).images = s.images := rfl
@[simp] theorem modCh_queues (s : State) (f : Chans → Chans) : (s.modCh f).queues = s.queues := rfl
@[simp] theorem modCh_lslots (s : State) (f : Chans → Chans) : (s.modCh f).lslots = s.lslots := rfl
@[simp] theorem modCh_ports (s : State) (f : Chans → Chans) : (s.modCh f).ports = s.ports := rfl
@[simp] theorem modCh_recvs (s : State) (f : Chans → Chans) : (s.modCh f).recvs = s.recvs := rfl
@[simp] theorem modCh_fjs (s : State) (f : Chans → Chans) : (s.modCh f).fjs = s.fjs := rfl
@[simp] theorem modCh_fabric (s : State) (f : Chans → Chans) : (s.modCh f).fabric = s.fabric := rfl
@[simp] theorem modCh_head (s : State) (f : Chans → Chans) : (s.modCh f).head = s.head := rfl
@[simp] theorem modCh_fuses (s : State) (f : Chans → Chans) : (s.modCh f).fuses = s.fuses := rfl
@[simp] theorem modCh_net (s : State) (f : Chans → Chans) : (s.modCh f).net = s.net := rfl
@[simp] theorem modCh_inbox (s : State) (f : Chans → Chans) : (s.modCh f).inbox = s.inbox := rfl
@[simp] theorem modCh_waiting (s : State) (f : Chans → Chans) : (s.modCh f).waiting = s.waiting := rfl
@[simp] theorem modCh_replays (s : State) (f : Chans → Chans) : (s.modCh f).replays = s.replays := rfl
@[simp] theorem modCh_time (s : State) (f : Chans → Chans) : (s.modCh f).time = s.time := rfl
@[simp] theorem modCh_free (s : State) (f : Chans → Chans) : (s.modCh f).free = s.free := rfl
@[simp] theorem modCh_nextId (s : State) (f : Chans → Chans) : (s.modCh f).nextId = s.nextId := rfl
@[simp] theorem due_cur (s : State) (a : Nat) (i : Instr) : (s.due a i).cur = s.cur := rfl
@[simp] theorem due_core (s : State) (a : Nat) (i : Instr) : (s.due a i).core = s.core := rfl
@[simp] theorem due_tiles (s : State) (a : Nat) (i : Instr) : (s.due a i).tiles = s.tiles := rfl
@[simp] theorem due_agent (s : State) (a : Nat) (i : Instr) : (s.due a i).agent = s.agent := rfl
@[simp] theorem due_inp (s : State) (a : Nat) (i : Instr) : (s.due a i).inp = s.inp := rfl
@[simp] theorem due_mts (s : State) (a : Nat) (i : Instr) : (s.due a i).mts = s.mts := rfl
@[simp] theorem due_mem (s : State) (a : Nat) (i : Instr) : (s.due a i).mem = s.mem := rfl
@[simp] theorem due_bad (s : State) (a : Nat) (i : Instr) : (s.due a i).bad = s.bad := rfl
@[simp] theorem due_lineKey (s : State) (a : Nat) (i : Instr) : (s.due a i).lineKey = s.lineKey := rfl
@[simp] theorem due_parts (s : State) (a : Nat) (i : Instr) : (s.due a i).parts = s.parts := rfl
@[simp] theorem due_regions (s : State) (a : Nat) (i : Instr) : (s.due a i).regions = s.regions := rfl
@[simp] theorem due_images (s : State) (a : Nat) (i : Instr) : (s.due a i).images = s.images := rfl
@[simp] theorem due_queues (s : State) (a : Nat) (i : Instr) : (s.due a i).queues = s.queues := rfl
@[simp] theorem due_lslots (s : State) (a : Nat) (i : Instr) : (s.due a i).lslots = s.lslots := rfl
@[simp] theorem due_ports (s : State) (a : Nat) (i : Instr) : (s.due a i).ports = s.ports := rfl
@[simp] theorem due_recvs (s : State) (a : Nat) (i : Instr) : (s.due a i).recvs = s.recvs := rfl
@[simp] theorem due_fjs (s : State) (a : Nat) (i : Instr) : (s.due a i).fjs = s.fjs := rfl
@[simp] theorem due_fabric (s : State) (a : Nat) (i : Instr) : (s.due a i).fabric = s.fabric := rfl
@[simp] theorem due_head (s : State) (a : Nat) (i : Instr) : (s.due a i).head = s.head := rfl
@[simp] theorem due_fuses (s : State) (a : Nat) (i : Instr) : (s.due a i).fuses = s.fuses := rfl
@[simp] theorem due_net (s : State) (a : Nat) (i : Instr) : (s.due a i).net = s.net := rfl
@[simp] theorem due_inbox (s : State) (a : Nat) (i : Instr) : (s.due a i).inbox = s.inbox := rfl
@[simp] theorem due_waiting (s : State) (a : Nat) (i : Instr) : (s.due a i).waiting = s.waiting := rfl
@[simp] theorem due_replays (s : State) (a : Nat) (i : Instr) : (s.due a i).replays = s.replays := rfl
@[simp] theorem due_time (s : State) (a : Nat) (i : Instr) : (s.due a i).time = s.time := rfl
@[simp] theorem due_free (s : State) (a : Nat) (i : Instr) : (s.due a i).free = s.free := rfl
@[simp] theorem due_nextId (s : State) (a : Nat) (i : Instr) : (s.due a i).nextId = s.nextId := rfl

-- The block in the window

theorem setBlk_run_some {s : State} {h : Bool} (hr : s.core.run = some h) (b : Blk) :
    s.setBlk b = s.setLevel h { s.core.level h with blk := some b } := by simp [State.setBlk, hr]

theorem setInv_run_some {s : State} {h : Bool} (hr : s.core.run = some h) (i : Inv) :
    s.setInv i = s.setLevel h { s.core.level h with inv := some i } := by simp [State.setInv, hr]

theorem modBlk_some {s : State} {b : Blk} (hb : s.blk? = some b) (f : Blk → Blk) : s.modBlk f = s.setBlk (f b) := by simp [State.modBlk, hb]

@[simp] theorem setBlk_cur (s : State) (b : Blk) : (s.setBlk b).cur = s.cur := by simp only [State.setBlk]; split <;> rfl
@[simp] theorem setBlk_tiles (s : State) (b : Blk) : (s.setBlk b).tiles = s.tiles := by simp only [State.setBlk]; split <;> rfl
@[simp] theorem setBlk_agent (s : State) (b : Blk) : (s.setBlk b).agent = s.agent := by simp only [State.setBlk]; split <;> rfl
@[simp] theorem setBlk_agenda (s : State) (b : Blk) : (s.setBlk b).agenda = s.agenda := by simp only [State.setBlk]; split <;> rfl
@[simp] theorem setBlk_inp (s : State) (b : Blk) : (s.setBlk b).inp = s.inp := by simp only [State.setBlk]; split <;> rfl
@[simp] theorem setBlk_mts (s : State) (b : Blk) : (s.setBlk b).mts = s.mts := by simp only [State.setBlk]; split <;> rfl
@[simp] theorem setBlk_mem (s : State) (b : Blk) : (s.setBlk b).mem = s.mem := by simp only [State.setBlk]; split <;> rfl
@[simp] theorem setBlk_bad (s : State) (b : Blk) : (s.setBlk b).bad = s.bad := by simp only [State.setBlk]; split <;> rfl
@[simp] theorem setBlk_lineKey (s : State) (b : Blk) : (s.setBlk b).lineKey = s.lineKey := by simp only [State.setBlk]; split <;> rfl
@[simp] theorem setBlk_parts (s : State) (b : Blk) : (s.setBlk b).parts = s.parts := by simp only [State.setBlk]; split <;> rfl
@[simp] theorem setBlk_regions (s : State) (b : Blk) : (s.setBlk b).regions = s.regions := by simp only [State.setBlk]; split <;> rfl
@[simp] theorem setBlk_images (s : State) (b : Blk) : (s.setBlk b).images = s.images := by simp only [State.setBlk]; split <;> rfl
@[simp] theorem setBlk_queues (s : State) (b : Blk) : (s.setBlk b).queues = s.queues := by simp only [State.setBlk]; split <;> rfl
@[simp] theorem setBlk_lslots (s : State) (b : Blk) : (s.setBlk b).lslots = s.lslots := by simp only [State.setBlk]; split <;> rfl
@[simp] theorem setBlk_ports (s : State) (b : Blk) : (s.setBlk b).ports = s.ports := by simp only [State.setBlk]; split <;> rfl
@[simp] theorem setBlk_recvs (s : State) (b : Blk) : (s.setBlk b).recvs = s.recvs := by simp only [State.setBlk]; split <;> rfl
@[simp] theorem setBlk_fjs (s : State) (b : Blk) : (s.setBlk b).fjs = s.fjs := by simp only [State.setBlk]; split <;> rfl
@[simp] theorem setBlk_fabric (s : State) (b : Blk) : (s.setBlk b).fabric = s.fabric := by simp only [State.setBlk]; split <;> rfl
@[simp] theorem setBlk_head (s : State) (b : Blk) : (s.setBlk b).head = s.head := by simp only [State.setBlk]; split <;> rfl
@[simp] theorem setBlk_fuses (s : State) (b : Blk) : (s.setBlk b).fuses = s.fuses := by simp only [State.setBlk]; split <;> rfl
@[simp] theorem setBlk_net (s : State) (b : Blk) : (s.setBlk b).net = s.net := by simp only [State.setBlk]; split <;> rfl
@[simp] theorem setBlk_inbox (s : State) (b : Blk) : (s.setBlk b).inbox = s.inbox := by simp only [State.setBlk]; split <;> rfl
@[simp] theorem setBlk_waiting (s : State) (b : Blk) : (s.setBlk b).waiting = s.waiting := by simp only [State.setBlk]; split <;> rfl
@[simp] theorem setBlk_replays (s : State) (b : Blk) : (s.setBlk b).replays = s.replays := by simp only [State.setBlk]; split <;> rfl
@[simp] theorem setBlk_time (s : State) (b : Blk) : (s.setBlk b).time = s.time := by simp only [State.setBlk]; split <;> rfl
@[simp] theorem setBlk_free (s : State) (b : Blk) : (s.setBlk b).free = s.free := by simp only [State.setBlk]; split <;> rfl
@[simp] theorem setBlk_nextId (s : State) (b : Blk) : (s.setBlk b).nextId = s.nextId := by simp only [State.setBlk]; split <;> rfl
@[simp] theorem setBlk_core_cyc (s : State) (b : Blk) : (s.setBlk b).core.cyc = s.core.cyc := by simp only [State.setBlk]; split <;> (try rfl); simp only [State.setLevel, CTile.setLevel]; split <;> rfl
@[simp] theorem setBlk_core_elapsed (s : State) (b : Blk) : (s.setBlk b).core.elapsed = s.core.elapsed := by simp only [State.setBlk]; split <;> (try rfl); simp only [State.setLevel, CTile.setLevel]; split <;> rfl
@[simp] theorem setBlk_core_slot (s : State) (b : Blk) : (s.setBlk b).core.slot = s.core.slot := by simp only [State.setBlk]; split <;> (try rfl); simp only [State.setLevel, CTile.setLevel]; split <;> rfl
@[simp] theorem setBlk_core_fired (s : State) (b : Blk) : (s.setBlk b).core.fired = s.core.fired := by simp only [State.setBlk]; split <;> (try rfl); simp only [State.setLevel, CTile.setLevel]; split <;> rfl
@[simp] theorem setBlk_core_mems (s : State) (b : Blk) : (s.setBlk b).core.mems = s.core.mems := by simp only [State.setBlk]; split <;> (try rfl); simp only [State.setLevel, CTile.setLevel]; split <;> rfl
@[simp] theorem setBlk_core_decided (s : State) (b : Blk) : (s.setBlk b).core.decided = s.core.decided := by simp only [State.setBlk]; split <;> (try rfl); simp only [State.setLevel, CTile.setLevel]; split <;> rfl
@[simp] theorem setBlk_core_run (s : State) (b : Blk) : (s.setBlk b).core.run = s.core.run := by simp only [State.setBlk]; split <;> (try rfl); simp only [State.setLevel, CTile.setLevel]; split <;> rfl
@[simp] theorem setBlk_core_mwin (s : State) (b : Blk) : (s.setBlk b).core.mwin = s.core.mwin := by simp only [State.setBlk]; split <;> (try rfl); simp only [State.setLevel, CTile.setLevel]; split <;> rfl
@[simp] theorem setBlk_core_staging (s : State) (b : Blk) : (s.setBlk b).core.staging = s.core.staging := by simp only [State.setBlk]; split <;> (try rfl); simp only [State.setLevel, CTile.setLevel]; split <;> rfl
@[simp] theorem setBlk_core_ch (s : State) (b : Blk) : (s.setBlk b).core.ch = s.core.ch := by simp only [State.setBlk]; split <;> (try rfl); simp only [State.setLevel, CTile.setLevel]; split <;> rfl
@[simp] theorem setBlk_core_sys (s : State) (b : Blk) : (s.setBlk b).core.sys = s.core.sys := by simp only [State.setBlk]; split <;> (try rfl); simp only [State.setLevel, CTile.setLevel]; split <;> rfl
@[simp] theorem setBlk_core_recov (s : State) (b : Blk) : (s.setBlk b).core.recov = s.core.recov := by simp only [State.setBlk]; split <;> (try rfl); simp only [State.setLevel, CTile.setLevel]; split <;> rfl
@[simp] theorem setBlk_core_tables (s : State) (b : Blk) : (s.setBlk b).core.tables = s.core.tables := by simp only [State.setBlk]; split <;> (try rfl); simp only [State.setLevel, CTile.setLevel]; split <;> rfl
@[simp] theorem setBlk_core_row (s : State) (b : Blk) : (s.setBlk b).core.row = s.core.row := by simp only [State.setBlk]; split <;> (try rfl); simp only [State.setLevel, CTile.setLevel]; split <;> rfl
@[simp] theorem setBlk_core_mx (s : State) (b : Blk) : (s.setBlk b).core.mx = s.core.mx := by simp only [State.setBlk]; split <;> (try rfl); simp only [State.setLevel, CTile.setLevel]; split <;> rfl
@[simp] theorem setBlk_core_aps (s : State) (b : Blk) : (s.setBlk b).core.aps = s.core.aps := by simp only [State.setBlk]; split <;> (try rfl); simp only [State.setLevel, CTile.setLevel]; split <;> rfl
@[simp] theorem setBlk_core_ports (s : State) (b : Blk) : (s.setBlk b).core.ports = s.core.ports := by simp only [State.setBlk]; split <;> (try rfl); simp only [State.setLevel, CTile.setLevel]; split <;> rfl
@[simp] theorem setBlk_core_agNext (s : State) (b : Blk) : (s.setBlk b).core.agNext = s.core.agNext := by simp only [State.setBlk]; split <;> (try rfl); simp only [State.setLevel, CTile.setLevel]; split <;> rfl
@[simp] theorem setBlk_core_copies (s : State) (b : Blk) : (s.setBlk b).core.copies = s.core.copies := by simp only [State.setBlk]; split <;> (try rfl); simp only [State.setLevel, CTile.setLevel]; split <;> rfl
@[simp] theorem setBlk_core_aggs (s : State) (b : Blk) : (s.setBlk b).core.aggs = s.core.aggs := by simp only [State.setBlk]; split <;> (try rfl); simp only [State.setLevel, CTile.setLevel]; split <;> rfl
@[simp] theorem setBlk_core_exits (s : State) (b : Blk) : (s.setBlk b).core.exits = s.core.exits := by simp only [State.setBlk]; split <;> (try rfl); simp only [State.setLevel, CTile.setLevel]; split <;> rfl
@[simp] theorem setInv_cur (s : State) (i : Inv) : (s.setInv i).cur = s.cur := by simp only [State.setInv]; split <;> rfl
@[simp] theorem setInv_tiles (s : State) (i : Inv) : (s.setInv i).tiles = s.tiles := by simp only [State.setInv]; split <;> rfl
@[simp] theorem setInv_agent (s : State) (i : Inv) : (s.setInv i).agent = s.agent := by simp only [State.setInv]; split <;> rfl
@[simp] theorem setInv_agenda (s : State) (i : Inv) : (s.setInv i).agenda = s.agenda := by simp only [State.setInv]; split <;> rfl
@[simp] theorem setInv_inp (s : State) (i : Inv) : (s.setInv i).inp = s.inp := by simp only [State.setInv]; split <;> rfl
@[simp] theorem setInv_mts (s : State) (i : Inv) : (s.setInv i).mts = s.mts := by simp only [State.setInv]; split <;> rfl
@[simp] theorem setInv_mem (s : State) (i : Inv) : (s.setInv i).mem = s.mem := by simp only [State.setInv]; split <;> rfl
@[simp] theorem setInv_bad (s : State) (i : Inv) : (s.setInv i).bad = s.bad := by simp only [State.setInv]; split <;> rfl
@[simp] theorem setInv_lineKey (s : State) (i : Inv) : (s.setInv i).lineKey = s.lineKey := by simp only [State.setInv]; split <;> rfl
@[simp] theorem setInv_parts (s : State) (i : Inv) : (s.setInv i).parts = s.parts := by simp only [State.setInv]; split <;> rfl
@[simp] theorem setInv_regions (s : State) (i : Inv) : (s.setInv i).regions = s.regions := by simp only [State.setInv]; split <;> rfl
@[simp] theorem setInv_images (s : State) (i : Inv) : (s.setInv i).images = s.images := by simp only [State.setInv]; split <;> rfl
@[simp] theorem setInv_queues (s : State) (i : Inv) : (s.setInv i).queues = s.queues := by simp only [State.setInv]; split <;> rfl
@[simp] theorem setInv_lslots (s : State) (i : Inv) : (s.setInv i).lslots = s.lslots := by simp only [State.setInv]; split <;> rfl
@[simp] theorem setInv_ports (s : State) (i : Inv) : (s.setInv i).ports = s.ports := by simp only [State.setInv]; split <;> rfl
@[simp] theorem setInv_recvs (s : State) (i : Inv) : (s.setInv i).recvs = s.recvs := by simp only [State.setInv]; split <;> rfl
@[simp] theorem setInv_fjs (s : State) (i : Inv) : (s.setInv i).fjs = s.fjs := by simp only [State.setInv]; split <;> rfl
@[simp] theorem setInv_fabric (s : State) (i : Inv) : (s.setInv i).fabric = s.fabric := by simp only [State.setInv]; split <;> rfl
@[simp] theorem setInv_head (s : State) (i : Inv) : (s.setInv i).head = s.head := by simp only [State.setInv]; split <;> rfl
@[simp] theorem setInv_fuses (s : State) (i : Inv) : (s.setInv i).fuses = s.fuses := by simp only [State.setInv]; split <;> rfl
@[simp] theorem setInv_net (s : State) (i : Inv) : (s.setInv i).net = s.net := by simp only [State.setInv]; split <;> rfl
@[simp] theorem setInv_inbox (s : State) (i : Inv) : (s.setInv i).inbox = s.inbox := by simp only [State.setInv]; split <;> rfl
@[simp] theorem setInv_waiting (s : State) (i : Inv) : (s.setInv i).waiting = s.waiting := by simp only [State.setInv]; split <;> rfl
@[simp] theorem setInv_replays (s : State) (i : Inv) : (s.setInv i).replays = s.replays := by simp only [State.setInv]; split <;> rfl
@[simp] theorem setInv_time (s : State) (i : Inv) : (s.setInv i).time = s.time := by simp only [State.setInv]; split <;> rfl
@[simp] theorem setInv_free (s : State) (i : Inv) : (s.setInv i).free = s.free := by simp only [State.setInv]; split <;> rfl
@[simp] theorem setInv_nextId (s : State) (i : Inv) : (s.setInv i).nextId = s.nextId := by simp only [State.setInv]; split <;> rfl
@[simp] theorem setInv_core_cyc (s : State) (i : Inv) : (s.setInv i).core.cyc = s.core.cyc := by simp only [State.setInv]; split <;> (try rfl); simp only [State.setLevel, CTile.setLevel]; split <;> rfl
@[simp] theorem setInv_core_elapsed (s : State) (i : Inv) : (s.setInv i).core.elapsed = s.core.elapsed := by simp only [State.setInv]; split <;> (try rfl); simp only [State.setLevel, CTile.setLevel]; split <;> rfl
@[simp] theorem setInv_core_slot (s : State) (i : Inv) : (s.setInv i).core.slot = s.core.slot := by simp only [State.setInv]; split <;> (try rfl); simp only [State.setLevel, CTile.setLevel]; split <;> rfl
@[simp] theorem setInv_core_fired (s : State) (i : Inv) : (s.setInv i).core.fired = s.core.fired := by simp only [State.setInv]; split <;> (try rfl); simp only [State.setLevel, CTile.setLevel]; split <;> rfl
@[simp] theorem setInv_core_mems (s : State) (i : Inv) : (s.setInv i).core.mems = s.core.mems := by simp only [State.setInv]; split <;> (try rfl); simp only [State.setLevel, CTile.setLevel]; split <;> rfl
@[simp] theorem setInv_core_decided (s : State) (i : Inv) : (s.setInv i).core.decided = s.core.decided := by simp only [State.setInv]; split <;> (try rfl); simp only [State.setLevel, CTile.setLevel]; split <;> rfl
@[simp] theorem setInv_core_run (s : State) (i : Inv) : (s.setInv i).core.run = s.core.run := by simp only [State.setInv]; split <;> (try rfl); simp only [State.setLevel, CTile.setLevel]; split <;> rfl
@[simp] theorem setInv_core_mwin (s : State) (i : Inv) : (s.setInv i).core.mwin = s.core.mwin := by simp only [State.setInv]; split <;> (try rfl); simp only [State.setLevel, CTile.setLevel]; split <;> rfl
@[simp] theorem setInv_core_staging (s : State) (i : Inv) : (s.setInv i).core.staging = s.core.staging := by simp only [State.setInv]; split <;> (try rfl); simp only [State.setLevel, CTile.setLevel]; split <;> rfl
@[simp] theorem setInv_core_ch (s : State) (i : Inv) : (s.setInv i).core.ch = s.core.ch := by simp only [State.setInv]; split <;> (try rfl); simp only [State.setLevel, CTile.setLevel]; split <;> rfl
@[simp] theorem setInv_core_sys (s : State) (i : Inv) : (s.setInv i).core.sys = s.core.sys := by simp only [State.setInv]; split <;> (try rfl); simp only [State.setLevel, CTile.setLevel]; split <;> rfl
@[simp] theorem setInv_core_recov (s : State) (i : Inv) : (s.setInv i).core.recov = s.core.recov := by simp only [State.setInv]; split <;> (try rfl); simp only [State.setLevel, CTile.setLevel]; split <;> rfl
@[simp] theorem setInv_core_tables (s : State) (i : Inv) : (s.setInv i).core.tables = s.core.tables := by simp only [State.setInv]; split <;> (try rfl); simp only [State.setLevel, CTile.setLevel]; split <;> rfl
@[simp] theorem setInv_core_row (s : State) (i : Inv) : (s.setInv i).core.row = s.core.row := by simp only [State.setInv]; split <;> (try rfl); simp only [State.setLevel, CTile.setLevel]; split <;> rfl
@[simp] theorem setInv_core_mx (s : State) (i : Inv) : (s.setInv i).core.mx = s.core.mx := by simp only [State.setInv]; split <;> (try rfl); simp only [State.setLevel, CTile.setLevel]; split <;> rfl
@[simp] theorem setInv_core_aps (s : State) (i : Inv) : (s.setInv i).core.aps = s.core.aps := by simp only [State.setInv]; split <;> (try rfl); simp only [State.setLevel, CTile.setLevel]; split <;> rfl
@[simp] theorem setInv_core_ports (s : State) (i : Inv) : (s.setInv i).core.ports = s.core.ports := by simp only [State.setInv]; split <;> (try rfl); simp only [State.setLevel, CTile.setLevel]; split <;> rfl
@[simp] theorem setInv_core_agNext (s : State) (i : Inv) : (s.setInv i).core.agNext = s.core.agNext := by simp only [State.setInv]; split <;> (try rfl); simp only [State.setLevel, CTile.setLevel]; split <;> rfl
@[simp] theorem setInv_core_copies (s : State) (i : Inv) : (s.setInv i).core.copies = s.core.copies := by simp only [State.setInv]; split <;> (try rfl); simp only [State.setLevel, CTile.setLevel]; split <;> rfl
@[simp] theorem setInv_core_aggs (s : State) (i : Inv) : (s.setInv i).core.aggs = s.core.aggs := by simp only [State.setInv]; split <;> (try rfl); simp only [State.setLevel, CTile.setLevel]; split <;> rfl
@[simp] theorem setInv_core_exits (s : State) (i : Inv) : (s.setInv i).core.exits = s.core.exits := by simp only [State.setInv]; split <;> (try rfl); simp only [State.setLevel, CTile.setLevel]; split <;> rfl
@[simp] theorem modBlk_cur (s : State) (f : Blk → Blk) : (s.modBlk f).cur = s.cur := by simp only [State.modBlk]; split <;> simp
@[simp] theorem modBlk_tiles (s : State) (f : Blk → Blk) : (s.modBlk f).tiles = s.tiles := by simp only [State.modBlk]; split <;> simp
@[simp] theorem modBlk_agent (s : State) (f : Blk → Blk) : (s.modBlk f).agent = s.agent := by simp only [State.modBlk]; split <;> simp
@[simp] theorem modBlk_agenda (s : State) (f : Blk → Blk) : (s.modBlk f).agenda = s.agenda := by simp only [State.modBlk]; split <;> simp
@[simp] theorem modBlk_inp (s : State) (f : Blk → Blk) : (s.modBlk f).inp = s.inp := by simp only [State.modBlk]; split <;> simp
@[simp] theorem modBlk_mts (s : State) (f : Blk → Blk) : (s.modBlk f).mts = s.mts := by simp only [State.modBlk]; split <;> simp
@[simp] theorem modBlk_mem (s : State) (f : Blk → Blk) : (s.modBlk f).mem = s.mem := by simp only [State.modBlk]; split <;> simp
@[simp] theorem modBlk_bad (s : State) (f : Blk → Blk) : (s.modBlk f).bad = s.bad := by simp only [State.modBlk]; split <;> simp
@[simp] theorem modBlk_lineKey (s : State) (f : Blk → Blk) : (s.modBlk f).lineKey = s.lineKey := by simp only [State.modBlk]; split <;> simp
@[simp] theorem modBlk_parts (s : State) (f : Blk → Blk) : (s.modBlk f).parts = s.parts := by simp only [State.modBlk]; split <;> simp
@[simp] theorem modBlk_regions (s : State) (f : Blk → Blk) : (s.modBlk f).regions = s.regions := by simp only [State.modBlk]; split <;> simp
@[simp] theorem modBlk_images (s : State) (f : Blk → Blk) : (s.modBlk f).images = s.images := by simp only [State.modBlk]; split <;> simp
@[simp] theorem modBlk_queues (s : State) (f : Blk → Blk) : (s.modBlk f).queues = s.queues := by simp only [State.modBlk]; split <;> simp
@[simp] theorem modBlk_lslots (s : State) (f : Blk → Blk) : (s.modBlk f).lslots = s.lslots := by simp only [State.modBlk]; split <;> simp
@[simp] theorem modBlk_ports (s : State) (f : Blk → Blk) : (s.modBlk f).ports = s.ports := by simp only [State.modBlk]; split <;> simp
@[simp] theorem modBlk_recvs (s : State) (f : Blk → Blk) : (s.modBlk f).recvs = s.recvs := by simp only [State.modBlk]; split <;> simp
@[simp] theorem modBlk_fjs (s : State) (f : Blk → Blk) : (s.modBlk f).fjs = s.fjs := by simp only [State.modBlk]; split <;> simp
@[simp] theorem modBlk_fabric (s : State) (f : Blk → Blk) : (s.modBlk f).fabric = s.fabric := by simp only [State.modBlk]; split <;> simp
@[simp] theorem modBlk_head (s : State) (f : Blk → Blk) : (s.modBlk f).head = s.head := by simp only [State.modBlk]; split <;> simp
@[simp] theorem modBlk_fuses (s : State) (f : Blk → Blk) : (s.modBlk f).fuses = s.fuses := by simp only [State.modBlk]; split <;> simp
@[simp] theorem modBlk_net (s : State) (f : Blk → Blk) : (s.modBlk f).net = s.net := by simp only [State.modBlk]; split <;> simp
@[simp] theorem modBlk_inbox (s : State) (f : Blk → Blk) : (s.modBlk f).inbox = s.inbox := by simp only [State.modBlk]; split <;> simp
@[simp] theorem modBlk_waiting (s : State) (f : Blk → Blk) : (s.modBlk f).waiting = s.waiting := by simp only [State.modBlk]; split <;> simp
@[simp] theorem modBlk_replays (s : State) (f : Blk → Blk) : (s.modBlk f).replays = s.replays := by simp only [State.modBlk]; split <;> simp
@[simp] theorem modBlk_time (s : State) (f : Blk → Blk) : (s.modBlk f).time = s.time := by simp only [State.modBlk]; split <;> simp
@[simp] theorem modBlk_free (s : State) (f : Blk → Blk) : (s.modBlk f).free = s.free := by simp only [State.modBlk]; split <;> simp
@[simp] theorem modBlk_nextId (s : State) (f : Blk → Blk) : (s.modBlk f).nextId = s.nextId := by simp only [State.modBlk]; split <;> simp
@[simp] theorem modBlk_core_cyc (s : State) (f : Blk → Blk) : (s.modBlk f).core.cyc = s.core.cyc := by simp only [State.modBlk]; split <;> simp
@[simp] theorem modBlk_core_elapsed (s : State) (f : Blk → Blk) : (s.modBlk f).core.elapsed = s.core.elapsed := by simp only [State.modBlk]; split <;> simp
@[simp] theorem modBlk_core_slot (s : State) (f : Blk → Blk) : (s.modBlk f).core.slot = s.core.slot := by simp only [State.modBlk]; split <;> simp
@[simp] theorem modBlk_core_fired (s : State) (f : Blk → Blk) : (s.modBlk f).core.fired = s.core.fired := by simp only [State.modBlk]; split <;> simp
@[simp] theorem modBlk_core_mems (s : State) (f : Blk → Blk) : (s.modBlk f).core.mems = s.core.mems := by simp only [State.modBlk]; split <;> simp
@[simp] theorem modBlk_core_decided (s : State) (f : Blk → Blk) : (s.modBlk f).core.decided = s.core.decided := by simp only [State.modBlk]; split <;> simp
@[simp] theorem modBlk_core_run (s : State) (f : Blk → Blk) : (s.modBlk f).core.run = s.core.run := by simp only [State.modBlk]; split <;> simp
@[simp] theorem modBlk_core_mwin (s : State) (f : Blk → Blk) : (s.modBlk f).core.mwin = s.core.mwin := by simp only [State.modBlk]; split <;> simp
@[simp] theorem modBlk_core_staging (s : State) (f : Blk → Blk) : (s.modBlk f).core.staging = s.core.staging := by simp only [State.modBlk]; split <;> simp
@[simp] theorem modBlk_core_ch (s : State) (f : Blk → Blk) : (s.modBlk f).core.ch = s.core.ch := by simp only [State.modBlk]; split <;> simp
@[simp] theorem modBlk_core_sys (s : State) (f : Blk → Blk) : (s.modBlk f).core.sys = s.core.sys := by simp only [State.modBlk]; split <;> simp
@[simp] theorem modBlk_core_recov (s : State) (f : Blk → Blk) : (s.modBlk f).core.recov = s.core.recov := by simp only [State.modBlk]; split <;> simp
@[simp] theorem modBlk_core_tables (s : State) (f : Blk → Blk) : (s.modBlk f).core.tables = s.core.tables := by simp only [State.modBlk]; split <;> simp
@[simp] theorem modBlk_core_row (s : State) (f : Blk → Blk) : (s.modBlk f).core.row = s.core.row := by simp only [State.modBlk]; split <;> simp
@[simp] theorem modBlk_core_mx (s : State) (f : Blk → Blk) : (s.modBlk f).core.mx = s.core.mx := by simp only [State.modBlk]; split <;> simp
@[simp] theorem modBlk_core_aps (s : State) (f : Blk → Blk) : (s.modBlk f).core.aps = s.core.aps := by simp only [State.modBlk]; split <;> simp
@[simp] theorem modBlk_core_ports (s : State) (f : Blk → Blk) : (s.modBlk f).core.ports = s.core.ports := by simp only [State.modBlk]; split <;> simp
@[simp] theorem modBlk_core_agNext (s : State) (f : Blk → Blk) : (s.modBlk f).core.agNext = s.core.agNext := by simp only [State.modBlk]; split <;> simp
@[simp] theorem modBlk_core_copies (s : State) (f : Blk → Blk) : (s.modBlk f).core.copies = s.core.copies := by simp only [State.modBlk]; split <;> simp
@[simp] theorem modBlk_core_aggs (s : State) (f : Blk → Blk) : (s.modBlk f).core.aggs = s.core.aggs := by simp only [State.modBlk]; split <;> simp
@[simp] theorem modBlk_core_exits (s : State) (f : Blk → Blk) : (s.modBlk f).core.exits = s.core.exits := by simp only [State.modBlk]; split <;> simp

theorem setLevel_core (s : State) (hi : Bool) (l : Level) : (s.setLevel hi l).core = s.core.setLevel hi l := rfl
theorem level_setLevel (c : CTile) (hi : Bool) (l : Level) (h : Bool) : (c.setLevel hi l).level h = if hi = h then l else c.level h := by
  cases hi <;> cases h <;> rfl
@[simp] theorem level_setLevel_self (c : CTile) (hi : Bool) (l : Level) : (c.setLevel hi l).level hi = l := by rw [level_setLevel, if_pos rfl]

@[simp] theorem ctile_setLevel_cyc (c : CTile) (hi : Bool) (l : Level) : (c.setLevel hi l).cyc = c.cyc := by cases hi <;> rfl
@[simp] theorem ctile_setLevel_elapsed (c : CTile) (hi : Bool) (l : Level) : (c.setLevel hi l).elapsed = c.elapsed := by cases hi <;> rfl
@[simp] theorem ctile_setLevel_slot (c : CTile) (hi : Bool) (l : Level) : (c.setLevel hi l).slot = c.slot := by cases hi <;> rfl
@[simp] theorem ctile_setLevel_fired (c : CTile) (hi : Bool) (l : Level) : (c.setLevel hi l).fired = c.fired := by cases hi <;> rfl
@[simp] theorem ctile_setLevel_mems (c : CTile) (hi : Bool) (l : Level) : (c.setLevel hi l).mems = c.mems := by cases hi <;> rfl
@[simp] theorem ctile_setLevel_decided (c : CTile) (hi : Bool) (l : Level) : (c.setLevel hi l).decided = c.decided := by cases hi <;> rfl
@[simp] theorem ctile_setLevel_run (c : CTile) (hi : Bool) (l : Level) : (c.setLevel hi l).run = c.run := by cases hi <;> rfl
@[simp] theorem ctile_setLevel_mwin (c : CTile) (hi : Bool) (l : Level) : (c.setLevel hi l).mwin = c.mwin := by cases hi <;> rfl
@[simp] theorem ctile_setLevel_staging (c : CTile) (hi : Bool) (l : Level) : (c.setLevel hi l).staging = c.staging := by cases hi <;> rfl
@[simp] theorem ctile_setLevel_ch (c : CTile) (hi : Bool) (l : Level) : (c.setLevel hi l).ch = c.ch := by cases hi <;> rfl
@[simp] theorem ctile_setLevel_sys (c : CTile) (hi : Bool) (l : Level) : (c.setLevel hi l).sys = c.sys := by cases hi <;> rfl
@[simp] theorem ctile_setLevel_recov (c : CTile) (hi : Bool) (l : Level) : (c.setLevel hi l).recov = c.recov := by cases hi <;> rfl
@[simp] theorem ctile_setLevel_tables (c : CTile) (hi : Bool) (l : Level) : (c.setLevel hi l).tables = c.tables := by cases hi <;> rfl
@[simp] theorem ctile_setLevel_row (c : CTile) (hi : Bool) (l : Level) : (c.setLevel hi l).row = c.row := by cases hi <;> rfl
@[simp] theorem ctile_setLevel_mx (c : CTile) (hi : Bool) (l : Level) : (c.setLevel hi l).mx = c.mx := by cases hi <;> rfl
@[simp] theorem ctile_setLevel_aps (c : CTile) (hi : Bool) (l : Level) : (c.setLevel hi l).aps = c.aps := by cases hi <;> rfl
@[simp] theorem ctile_setLevel_ports (c : CTile) (hi : Bool) (l : Level) : (c.setLevel hi l).ports = c.ports := by cases hi <;> rfl
@[simp] theorem ctile_setLevel_agNext (c : CTile) (hi : Bool) (l : Level) : (c.setLevel hi l).agNext = c.agNext := by cases hi <;> rfl
@[simp] theorem ctile_setLevel_copies (c : CTile) (hi : Bool) (l : Level) : (c.setLevel hi l).copies = c.copies := by cases hi <;> rfl
@[simp] theorem ctile_setLevel_aggs (c : CTile) (hi : Bool) (l : Level) : (c.setLevel hi l).aggs = c.aggs := by cases hi <;> rfl
@[simp] theorem ctile_setLevel_exits (c : CTile) (hi : Bool) (l : Level) : (c.setLevel hi l).exits = c.exits := by cases hi <;> rfl
@[simp] theorem setBlk_level_regs (s : State) (b : Blk) (h : Bool) : ((s.setBlk b).core.level h).regs = (s.core.level h).regs := by
  simp only [State.setBlk]; split
  · rfl
  · rw [setLevel_core, level_setLevel]; split <;> simp_all
@[simp] theorem setInv_level_regs (s : State) (i : Inv) (h : Bool) : ((s.setInv i).core.level h).regs = (s.core.level h).regs := by
  simp only [State.setInv]; split
  · rfl
  · rw [setLevel_core, level_setLevel]; split <;> simp_all
@[simp] theorem modBlk_level_regs (s : State) (f : Blk → Blk) (h : Bool) : ((s.modBlk f).core.level h).regs = (s.core.level h).regs := by simp only [State.modBlk]; split <;> simp
@[simp] theorem setBlk_level_fpst (s : State) (b : Blk) (h : Bool) : ((s.setBlk b).core.level h).fpst = (s.core.level h).fpst := by
  simp only [State.setBlk]; split
  · rfl
  · rw [setLevel_core, level_setLevel]; split <;> simp_all
@[simp] theorem setInv_level_fpst (s : State) (i : Inv) (h : Bool) : ((s.setInv i).core.level h).fpst = (s.core.level h).fpst := by
  simp only [State.setInv]; split
  · rfl
  · rw [setLevel_core, level_setLevel]; split <;> simp_all
@[simp] theorem modBlk_level_fpst (s : State) (f : Blk → Blk) (h : Bool) : ((s.modBlk f).core.level h).fpst = (s.core.level h).fpst := by simp only [State.modBlk]; split <;> simp
@[simp] theorem setBlk_level_seed (s : State) (b : Blk) (h : Bool) : ((s.setBlk b).core.level h).seed = (s.core.level h).seed := by
  simp only [State.setBlk]; split
  · rfl
  · rw [setLevel_core, level_setLevel]; split <;> simp_all
@[simp] theorem setInv_level_seed (s : State) (i : Inv) (h : Bool) : ((s.setInv i).core.level h).seed = (s.core.level h).seed := by
  simp only [State.setInv]; split
  · rfl
  · rw [setLevel_core, level_setLevel]; split <;> simp_all
@[simp] theorem modBlk_level_seed (s : State) (f : Blk → Blk) (h : Bool) : ((s.modBlk f).core.level h).seed = (s.core.level h).seed := by simp only [State.modBlk]; split <;> simp
@[simp] theorem setBlk_level_link (s : State) (b : Blk) (h : Bool) : ((s.setBlk b).core.level h).link = (s.core.level h).link := by
  simp only [State.setBlk]; split
  · rfl
  · rw [setLevel_core, level_setLevel]; split <;> simp_all
@[simp] theorem setInv_level_link (s : State) (i : Inv) (h : Bool) : ((s.setInv i).core.level h).link = (s.core.level h).link := by
  simp only [State.setInv]; split
  · rfl
  · rw [setLevel_core, level_setLevel]; split <;> simp_all
@[simp] theorem modBlk_level_link (s : State) (f : Blk → Blk) (h : Bool) : ((s.modBlk f).core.level h).link = (s.core.level h).link := by simp only [State.modBlk]; split <;> simp
@[simp] theorem setBlk_level_rstl (s : State) (b : Blk) (h : Bool) : ((s.setBlk b).core.level h).rstl = (s.core.level h).rstl := by
  simp only [State.setBlk]; split
  · rfl
  · rw [setLevel_core, level_setLevel]; split <;> simp_all
@[simp] theorem setInv_level_rstl (s : State) (i : Inv) (h : Bool) : ((s.setInv i).core.level h).rstl = (s.core.level h).rstl := by
  simp only [State.setInv]; split
  · rfl
  · rw [setLevel_core, level_setLevel]; split <;> simp_all
@[simp] theorem modBlk_level_rstl (s : State) (f : Blk → Blk) (h : Bool) : ((s.modBlk f).core.level h).rstl = (s.core.level h).rstl := by simp only [State.modBlk]; split <;> simp
@[simp] theorem setBlk_level_wdog (s : State) (b : Blk) (h : Bool) : ((s.setBlk b).core.level h).wdog = (s.core.level h).wdog := by
  simp only [State.setBlk]; split
  · rfl
  · rw [setLevel_core, level_setLevel]; split <;> simp_all
@[simp] theorem setInv_level_wdog (s : State) (i : Inv) (h : Bool) : ((s.setInv i).core.level h).wdog = (s.core.level h).wdog := by
  simp only [State.setInv]; split
  · rfl
  · rw [setLevel_core, level_setLevel]; split <;> simp_all
@[simp] theorem modBlk_level_wdog (s : State) (f : Blk → Blk) (h : Bool) : ((s.modBlk f).core.level h).wdog = (s.core.level h).wdog := by simp only [State.modBlk]; split <;> simp
@[simp] theorem setBlk_level_rr (s : State) (b : Blk) (h : Bool) : ((s.setBlk b).core.level h).rr = (s.core.level h).rr := by
  simp only [State.setBlk]; split
  · rfl
  · rw [setLevel_core, level_setLevel]; split <;> simp_all
@[simp] theorem setInv_level_rr (s : State) (i : Inv) (h : Bool) : ((s.setInv i).core.level h).rr = (s.core.level h).rr := by
  simp only [State.setInv]; split
  · rfl
  · rw [setLevel_core, level_setLevel]; split <;> simp_all
@[simp] theorem modBlk_level_rr (s : State) (f : Blk → Blk) (h : Bool) : ((s.modBlk f).core.level h).rr = (s.core.level h).rr := by simp only [State.modBlk]; split <;> simp
@[simp] theorem setBlk_level_inv (s : State) (b : Blk) (h : Bool) : ((s.setBlk b).core.level h).inv = (s.core.level h).inv := by
  simp only [State.setBlk]; split
  · rfl
  · rw [setLevel_core, level_setLevel]; split <;> simp_all
@[simp] theorem modBlk_level_inv (s : State) (f : Blk → Blk) (h : Bool) : ((s.modBlk f).core.level h).inv = (s.core.level h).inv := by simp only [State.modBlk]; split <;> simp
@[simp] theorem setBlk_level_fetch (s : State) (b : Blk) (h : Bool) : ((s.setBlk b).core.level h).fetch = (s.core.level h).fetch := by
  simp only [State.setBlk]; split
  · rfl
  · rw [setLevel_core, level_setLevel]; split <;> simp_all
@[simp] theorem setInv_level_fetch (s : State) (i : Inv) (h : Bool) : ((s.setInv i).core.level h).fetch = (s.core.level h).fetch := by
  simp only [State.setInv]; split
  · rfl
  · rw [setLevel_core, level_setLevel]; split <;> simp_all
@[simp] theorem modBlk_level_fetch (s : State) (f : Blk → Blk) (h : Bool) : ((s.modBlk f).core.level h).fetch = (s.core.level h).fetch := by simp only [State.modBlk]; split <;> simp

@[simp] theorem setBlk_lvl (s : State) (b : Blk) : (s.setBlk b).lvl = s.lvl := by simp [State.lvl]
@[simp] theorem setInv_lvl (s : State) (i : Inv) : (s.setInv i).lvl = s.lvl := by simp [State.lvl]
@[simp] theorem modBlk_lvl (s : State) (f : Blk → Blk) : (s.modBlk f).lvl = s.lvl := by simp [State.lvl]
@[simp] theorem setBlk_inv? (s : State) (b : Blk) : (s.setBlk b).inv? = s.inv? := by simp only [State.inv?, setBlk_core_run]; split <;> simp
@[simp] theorem modBlk_inv? (s : State) (f : Blk → Blk) : (s.modBlk f).inv? = s.inv? := by simp only [State.inv?, modBlk_core_run]; split <;> simp
@[simp] theorem setInv_blk? (s : State) (i : Inv) : (s.setInv i).blk? = s.blk? := by
  simp only [State.blk?, setInv_core_run]; split
  · rfl
  · next h hr => simp [setInv_run_some hr, setLevel_core]
theorem run_of_blk? {s : State} {b : Blk} (h : s.blk? = some b) : ∃ hi, s.core.run = some hi ∧ (s.core.level hi).blk = some b := by
  simp only [State.blk?] at h; split at h
  · cases h
  · next hi hr => exact ⟨hi, hr, h⟩
theorem setBlk_blk? {s : State} {b : Blk} (h : s.blk? = some b) (b' : Blk) : (s.setBlk b').blk? = some b' := by
  obtain ⟨hi, hr, -⟩ := run_of_blk? h
  simp [State.blk?, hr, setBlk_run_some hr, setLevel_core]
theorem modBlk_blk? {s : State} {b : Blk} (h : s.blk? = some b) (f : Blk → Blk) : (s.modBlk f).blk? = some (f b) := by
  rw [modBlk_some h, setBlk_blk? h]
@[simp] theorem modBlk_blk?_none (s : State) (f : Blk → Blk) : (s.modBlk f).blk? = none ↔ s.blk? = none := by
  cases h : s.blk? with
  | none => simp [State.modBlk, h]
  | some b => simp [modBlk_blk? h]
@[simp] theorem modBlk_blk?_isSome (s : State) (f : Blk → Blk) : (s.modBlk f).blk?.isSome = s.blk?.isSome := by
  cases h : s.blk? with
  | none => simp [State.modBlk, h]
  | some b => simp [modBlk_blk? h]
@[simp] theorem modBlk_act (s : State) (f : Blk → Blk) : (s.modBlk f).act = s.act := by simp [State.act]
@[simp] theorem modBlk_task (s : State) (f : Blk → Blk) : (s.modBlk f).task = s.task := by simp [State.task]
@[simp] theorem modBlk_out? (s : State) (f : Blk → Blk) (a : Nat) (k : BitVec 3) : (s.modBlk f).out? a k = s.out? a k := by simp [State.out?]

@[simp] theorem deliver_cur (s : State) (k : Nat) (f : Info) (n : Nat) (t : Tok) (c : BitVec 32) (l : Option (BitVec 4)) : (deliver s k f n t c l).cur = s.cur := by simp [deliver]
@[simp] theorem deliver_tiles (s : State) (k : Nat) (f : Info) (n : Nat) (t : Tok) (c : BitVec 32) (l : Option (BitVec 4)) : (deliver s k f n t c l).tiles = s.tiles := by simp [deliver]
@[simp] theorem deliver_agent (s : State) (k : Nat) (f : Info) (n : Nat) (t : Tok) (c : BitVec 32) (l : Option (BitVec 4)) : (deliver s k f n t c l).agent = s.agent := by simp [deliver]
@[simp] theorem deliver_agenda (s : State) (k : Nat) (f : Info) (n : Nat) (t : Tok) (c : BitVec 32) (l : Option (BitVec 4)) : (deliver s k f n t c l).agenda = s.agenda := by simp [deliver]
@[simp] theorem deliver_inp (s : State) (k : Nat) (f : Info) (n : Nat) (t : Tok) (c : BitVec 32) (l : Option (BitVec 4)) : (deliver s k f n t c l).inp = s.inp := by simp [deliver]
@[simp] theorem deliver_mts (s : State) (k : Nat) (f : Info) (n : Nat) (t : Tok) (c : BitVec 32) (l : Option (BitVec 4)) : (deliver s k f n t c l).mts = s.mts := by simp [deliver]
@[simp] theorem deliver_mem (s : State) (k : Nat) (f : Info) (n : Nat) (t : Tok) (c : BitVec 32) (l : Option (BitVec 4)) : (deliver s k f n t c l).mem = s.mem := by simp [deliver]
@[simp] theorem deliver_bad (s : State) (k : Nat) (f : Info) (n : Nat) (t : Tok) (c : BitVec 32) (l : Option (BitVec 4)) : (deliver s k f n t c l).bad = s.bad := by simp [deliver]
@[simp] theorem deliver_lineKey (s : State) (k : Nat) (f : Info) (n : Nat) (t : Tok) (c : BitVec 32) (l : Option (BitVec 4)) : (deliver s k f n t c l).lineKey = s.lineKey := by simp [deliver]
@[simp] theorem deliver_parts (s : State) (k : Nat) (f : Info) (n : Nat) (t : Tok) (c : BitVec 32) (l : Option (BitVec 4)) : (deliver s k f n t c l).parts = s.parts := by simp [deliver]
@[simp] theorem deliver_regions (s : State) (k : Nat) (f : Info) (n : Nat) (t : Tok) (c : BitVec 32) (l : Option (BitVec 4)) : (deliver s k f n t c l).regions = s.regions := by simp [deliver]
@[simp] theorem deliver_images (s : State) (k : Nat) (f : Info) (n : Nat) (t : Tok) (c : BitVec 32) (l : Option (BitVec 4)) : (deliver s k f n t c l).images = s.images := by simp [deliver]
@[simp] theorem deliver_queues (s : State) (k : Nat) (f : Info) (n : Nat) (t : Tok) (c : BitVec 32) (l : Option (BitVec 4)) : (deliver s k f n t c l).queues = s.queues := by simp [deliver]
@[simp] theorem deliver_lslots (s : State) (k : Nat) (f : Info) (n : Nat) (t : Tok) (c : BitVec 32) (l : Option (BitVec 4)) : (deliver s k f n t c l).lslots = s.lslots := by simp [deliver]
@[simp] theorem deliver_ports (s : State) (k : Nat) (f : Info) (n : Nat) (t : Tok) (c : BitVec 32) (l : Option (BitVec 4)) : (deliver s k f n t c l).ports = s.ports := by simp [deliver]
@[simp] theorem deliver_recvs (s : State) (k : Nat) (f : Info) (n : Nat) (t : Tok) (c : BitVec 32) (l : Option (BitVec 4)) : (deliver s k f n t c l).recvs = s.recvs := by simp [deliver]
@[simp] theorem deliver_fjs (s : State) (k : Nat) (f : Info) (n : Nat) (t : Tok) (c : BitVec 32) (l : Option (BitVec 4)) : (deliver s k f n t c l).fjs = s.fjs := by simp [deliver]
@[simp] theorem deliver_fabric (s : State) (k : Nat) (f : Info) (n : Nat) (t : Tok) (c : BitVec 32) (l : Option (BitVec 4)) : (deliver s k f n t c l).fabric = s.fabric := by simp [deliver]
@[simp] theorem deliver_head (s : State) (k : Nat) (f : Info) (n : Nat) (t : Tok) (c : BitVec 32) (l : Option (BitVec 4)) : (deliver s k f n t c l).head = s.head := by simp [deliver]
@[simp] theorem deliver_fuses (s : State) (k : Nat) (f : Info) (n : Nat) (t : Tok) (c : BitVec 32) (l : Option (BitVec 4)) : (deliver s k f n t c l).fuses = s.fuses := by simp [deliver]
@[simp] theorem deliver_net (s : State) (k : Nat) (f : Info) (n : Nat) (t : Tok) (c : BitVec 32) (l : Option (BitVec 4)) : (deliver s k f n t c l).net = s.net := by simp [deliver]
@[simp] theorem deliver_inbox (s : State) (k : Nat) (f : Info) (n : Nat) (t : Tok) (c : BitVec 32) (l : Option (BitVec 4)) : (deliver s k f n t c l).inbox = s.inbox := by simp [deliver]
@[simp] theorem deliver_waiting (s : State) (k : Nat) (f : Info) (n : Nat) (t : Tok) (c : BitVec 32) (l : Option (BitVec 4)) : (deliver s k f n t c l).waiting = s.waiting := by simp [deliver]
@[simp] theorem deliver_replays (s : State) (k : Nat) (f : Info) (n : Nat) (t : Tok) (c : BitVec 32) (l : Option (BitVec 4)) : (deliver s k f n t c l).replays = s.replays := by simp [deliver]
@[simp] theorem deliver_time (s : State) (k : Nat) (f : Info) (n : Nat) (t : Tok) (c : BitVec 32) (l : Option (BitVec 4)) : (deliver s k f n t c l).time = s.time := by simp [deliver]
@[simp] theorem deliver_free (s : State) (k : Nat) (f : Info) (n : Nat) (t : Tok) (c : BitVec 32) (l : Option (BitVec 4)) : (deliver s k f n t c l).free = s.free := by simp [deliver]
@[simp] theorem deliver_nextId (s : State) (k : Nat) (f : Info) (n : Nat) (t : Tok) (c : BitVec 32) (l : Option (BitVec 4)) : (deliver s k f n t c l).nextId = s.nextId := by simp [deliver]
@[simp] theorem deliver_core_cyc (s : State) (k : Nat) (f : Info) (n : Nat) (t : Tok) (c : BitVec 32) (l : Option (BitVec 4)) : (deliver s k f n t c l).core.cyc = s.core.cyc := by simp [deliver]
@[simp] theorem deliver_core_elapsed (s : State) (k : Nat) (f : Info) (n : Nat) (t : Tok) (c : BitVec 32) (l : Option (BitVec 4)) : (deliver s k f n t c l).core.elapsed = s.core.elapsed := by simp [deliver]
@[simp] theorem deliver_core_slot (s : State) (k : Nat) (f : Info) (n : Nat) (t : Tok) (c : BitVec 32) (l : Option (BitVec 4)) : (deliver s k f n t c l).core.slot = s.core.slot := by simp [deliver]
@[simp] theorem deliver_core_fired (s : State) (k : Nat) (f : Info) (n : Nat) (t : Tok) (c : BitVec 32) (l : Option (BitVec 4)) : (deliver s k f n t c l).core.fired = s.core.fired := by simp [deliver]
@[simp] theorem deliver_core_mems (s : State) (k : Nat) (f : Info) (n : Nat) (t : Tok) (c : BitVec 32) (l : Option (BitVec 4)) : (deliver s k f n t c l).core.mems = s.core.mems := by simp [deliver]
@[simp] theorem deliver_core_decided (s : State) (k : Nat) (f : Info) (n : Nat) (t : Tok) (c : BitVec 32) (l : Option (BitVec 4)) : (deliver s k f n t c l).core.decided = s.core.decided := by simp [deliver]
@[simp] theorem deliver_core_run (s : State) (k : Nat) (f : Info) (n : Nat) (t : Tok) (c : BitVec 32) (l : Option (BitVec 4)) : (deliver s k f n t c l).core.run = s.core.run := by simp [deliver]
@[simp] theorem deliver_core_mwin (s : State) (k : Nat) (f : Info) (n : Nat) (t : Tok) (c : BitVec 32) (l : Option (BitVec 4)) : (deliver s k f n t c l).core.mwin = s.core.mwin := by simp [deliver]
@[simp] theorem deliver_core_staging (s : State) (k : Nat) (f : Info) (n : Nat) (t : Tok) (c : BitVec 32) (l : Option (BitVec 4)) : (deliver s k f n t c l).core.staging = s.core.staging := by simp [deliver]
@[simp] theorem deliver_core_ch (s : State) (k : Nat) (f : Info) (n : Nat) (t : Tok) (c : BitVec 32) (l : Option (BitVec 4)) : (deliver s k f n t c l).core.ch = s.core.ch := by simp [deliver]
@[simp] theorem deliver_core_sys (s : State) (k : Nat) (f : Info) (n : Nat) (t : Tok) (c : BitVec 32) (l : Option (BitVec 4)) : (deliver s k f n t c l).core.sys = s.core.sys := by simp [deliver]
@[simp] theorem deliver_core_recov (s : State) (k : Nat) (f : Info) (n : Nat) (t : Tok) (c : BitVec 32) (l : Option (BitVec 4)) : (deliver s k f n t c l).core.recov = s.core.recov := by simp [deliver]
@[simp] theorem deliver_core_tables (s : State) (k : Nat) (f : Info) (n : Nat) (t : Tok) (c : BitVec 32) (l : Option (BitVec 4)) : (deliver s k f n t c l).core.tables = s.core.tables := by simp [deliver]
@[simp] theorem deliver_core_row (s : State) (k : Nat) (f : Info) (n : Nat) (t : Tok) (c : BitVec 32) (l : Option (BitVec 4)) : (deliver s k f n t c l).core.row = s.core.row := by simp [deliver]
@[simp] theorem deliver_core_mx (s : State) (k : Nat) (f : Info) (n : Nat) (t : Tok) (c : BitVec 32) (l : Option (BitVec 4)) : (deliver s k f n t c l).core.mx = s.core.mx := by simp [deliver]
@[simp] theorem deliver_core_aps (s : State) (k : Nat) (f : Info) (n : Nat) (t : Tok) (c : BitVec 32) (l : Option (BitVec 4)) : (deliver s k f n t c l).core.aps = s.core.aps := by simp [deliver]
@[simp] theorem deliver_core_ports (s : State) (k : Nat) (f : Info) (n : Nat) (t : Tok) (c : BitVec 32) (l : Option (BitVec 4)) : (deliver s k f n t c l).core.ports = s.core.ports := by simp [deliver]
@[simp] theorem deliver_core_agNext (s : State) (k : Nat) (f : Info) (n : Nat) (t : Tok) (c : BitVec 32) (l : Option (BitVec 4)) : (deliver s k f n t c l).core.agNext = s.core.agNext := by simp [deliver]
@[simp] theorem deliver_core_copies (s : State) (k : Nat) (f : Info) (n : Nat) (t : Tok) (c : BitVec 32) (l : Option (BitVec 4)) : (deliver s k f n t c l).core.copies = s.core.copies := by simp [deliver]
@[simp] theorem deliver_core_aggs (s : State) (k : Nat) (f : Info) (n : Nat) (t : Tok) (c : BitVec 32) (l : Option (BitVec 4)) : (deliver s k f n t c l).core.aggs = s.core.aggs := by simp [deliver]
@[simp] theorem deliver_core_exits (s : State) (k : Nat) (f : Info) (n : Nat) (t : Tok) (c : BitVec 32) (l : Option (BitVec 4)) : (deliver s k f n t c l).core.exits = s.core.exits := by simp [deliver]
@[simp] theorem deliver_level_regs (s : State) (k : Nat) (f : Info) (n : Nat) (t : Tok) (c : BitVec 32) (l : Option (BitVec 4)) (h : Bool) : ((deliver s k f n t c l).core.level h).regs = (s.core.level h).regs := by simp [deliver]
@[simp] theorem deliver_level_fpst (s : State) (k : Nat) (f : Info) (n : Nat) (t : Tok) (c : BitVec 32) (l : Option (BitVec 4)) (h : Bool) : ((deliver s k f n t c l).core.level h).fpst = (s.core.level h).fpst := by simp [deliver]
@[simp] theorem deliver_level_seed (s : State) (k : Nat) (f : Info) (n : Nat) (t : Tok) (c : BitVec 32) (l : Option (BitVec 4)) (h : Bool) : ((deliver s k f n t c l).core.level h).seed = (s.core.level h).seed := by simp [deliver]
@[simp] theorem deliver_level_link (s : State) (k : Nat) (f : Info) (n : Nat) (t : Tok) (c : BitVec 32) (l : Option (BitVec 4)) (h : Bool) : ((deliver s k f n t c l).core.level h).link = (s.core.level h).link := by simp [deliver]
@[simp] theorem deliver_level_rstl (s : State) (k : Nat) (f : Info) (n : Nat) (t : Tok) (c : BitVec 32) (l : Option (BitVec 4)) (h : Bool) : ((deliver s k f n t c l).core.level h).rstl = (s.core.level h).rstl := by simp [deliver]
@[simp] theorem deliver_level_wdog (s : State) (k : Nat) (f : Info) (n : Nat) (t : Tok) (c : BitVec 32) (l : Option (BitVec 4)) (h : Bool) : ((deliver s k f n t c l).core.level h).wdog = (s.core.level h).wdog := by simp [deliver]
@[simp] theorem deliver_level_rr (s : State) (k : Nat) (f : Info) (n : Nat) (t : Tok) (c : BitVec 32) (l : Option (BitVec 4)) (h : Bool) : ((deliver s k f n t c l).core.level h).rr = (s.core.level h).rr := by simp [deliver]
@[simp] theorem deliver_level_inv (s : State) (k : Nat) (f : Info) (n : Nat) (t : Tok) (c : BitVec 32) (l : Option (BitVec 4)) (h : Bool) : ((deliver s k f n t c l).core.level h).inv = (s.core.level h).inv := by simp [deliver]
@[simp] theorem deliver_level_fetch (s : State) (k : Nat) (f : Info) (n : Nat) (t : Tok) (c : BitVec 32) (l : Option (BitVec 4)) (h : Bool) : ((deliver s k f n t c l).core.level h).fetch = (s.core.level h).fetch := by simp [deliver]
@[simp] theorem deliver_lvl (s : State) (k : Nat) (f : Info) (n : Nat) (t : Tok) (c : BitVec 32) (l : Option (BitVec 4)) : (deliver s k f n t c l).lvl = s.lvl := by simp [deliver]
@[simp] theorem deliver_inv? (s : State) (k : Nat) (f : Info) (n : Nat) (t : Tok) (c : BitVec 32) (l : Option (BitVec 4)) : (deliver s k f n t c l).inv? = s.inv? := by simp [deliver]
@[simp] theorem deliver_act (s : State) (k : Nat) (f : Info) (n : Nat) (t : Tok) (c : BitVec 32) (l : Option (BitVec 4)) : (deliver s k f n t c l).act = s.act := by simp [deliver]
@[simp] theorem deliver_task (s : State) (k : Nat) (f : Info) (n : Nat) (t : Tok) (c : BitVec 32) (l : Option (BitVec 4)) : (deliver s k f n t c l).task = s.task := by simp [deliver]
@[simp] theorem deliver_out? (s : State) (k : Nat) (f : Info) (n : Nat) (t : Tok) (c : BitVec 32) (l : Option (BitVec 4)) (q : Nat) (z : BitVec 3) : (deliver s k f n t c l).out? q z = s.out? q z := by simp [deliver]
@[simp] theorem deliverTrap_cur (s : State) (k n : Nat) (t : PTrap) : (deliverTrap s k n t).cur = s.cur := by simp [deliverTrap]
@[simp] theorem deliverTrap_tiles (s : State) (k n : Nat) (t : PTrap) : (deliverTrap s k n t).tiles = s.tiles := by simp [deliverTrap]
@[simp] theorem deliverTrap_agent (s : State) (k n : Nat) (t : PTrap) : (deliverTrap s k n t).agent = s.agent := by simp [deliverTrap]
@[simp] theorem deliverTrap_agenda (s : State) (k n : Nat) (t : PTrap) : (deliverTrap s k n t).agenda = s.agenda := by simp [deliverTrap]
@[simp] theorem deliverTrap_inp (s : State) (k n : Nat) (t : PTrap) : (deliverTrap s k n t).inp = s.inp := by simp [deliverTrap]
@[simp] theorem deliverTrap_mts (s : State) (k n : Nat) (t : PTrap) : (deliverTrap s k n t).mts = s.mts := by simp [deliverTrap]
@[simp] theorem deliverTrap_mem (s : State) (k n : Nat) (t : PTrap) : (deliverTrap s k n t).mem = s.mem := by simp [deliverTrap]
@[simp] theorem deliverTrap_bad (s : State) (k n : Nat) (t : PTrap) : (deliverTrap s k n t).bad = s.bad := by simp [deliverTrap]
@[simp] theorem deliverTrap_lineKey (s : State) (k n : Nat) (t : PTrap) : (deliverTrap s k n t).lineKey = s.lineKey := by simp [deliverTrap]
@[simp] theorem deliverTrap_parts (s : State) (k n : Nat) (t : PTrap) : (deliverTrap s k n t).parts = s.parts := by simp [deliverTrap]
@[simp] theorem deliverTrap_regions (s : State) (k n : Nat) (t : PTrap) : (deliverTrap s k n t).regions = s.regions := by simp [deliverTrap]
@[simp] theorem deliverTrap_images (s : State) (k n : Nat) (t : PTrap) : (deliverTrap s k n t).images = s.images := by simp [deliverTrap]
@[simp] theorem deliverTrap_queues (s : State) (k n : Nat) (t : PTrap) : (deliverTrap s k n t).queues = s.queues := by simp [deliverTrap]
@[simp] theorem deliverTrap_lslots (s : State) (k n : Nat) (t : PTrap) : (deliverTrap s k n t).lslots = s.lslots := by simp [deliverTrap]
@[simp] theorem deliverTrap_ports (s : State) (k n : Nat) (t : PTrap) : (deliverTrap s k n t).ports = s.ports := by simp [deliverTrap]
@[simp] theorem deliverTrap_recvs (s : State) (k n : Nat) (t : PTrap) : (deliverTrap s k n t).recvs = s.recvs := by simp [deliverTrap]
@[simp] theorem deliverTrap_fjs (s : State) (k n : Nat) (t : PTrap) : (deliverTrap s k n t).fjs = s.fjs := by simp [deliverTrap]
@[simp] theorem deliverTrap_fabric (s : State) (k n : Nat) (t : PTrap) : (deliverTrap s k n t).fabric = s.fabric := by simp [deliverTrap]
@[simp] theorem deliverTrap_head (s : State) (k n : Nat) (t : PTrap) : (deliverTrap s k n t).head = s.head := by simp [deliverTrap]
@[simp] theorem deliverTrap_fuses (s : State) (k n : Nat) (t : PTrap) : (deliverTrap s k n t).fuses = s.fuses := by simp [deliverTrap]
@[simp] theorem deliverTrap_net (s : State) (k n : Nat) (t : PTrap) : (deliverTrap s k n t).net = s.net := by simp [deliverTrap]
@[simp] theorem deliverTrap_inbox (s : State) (k n : Nat) (t : PTrap) : (deliverTrap s k n t).inbox = s.inbox := by simp [deliverTrap]
@[simp] theorem deliverTrap_waiting (s : State) (k n : Nat) (t : PTrap) : (deliverTrap s k n t).waiting = s.waiting := by simp [deliverTrap]
@[simp] theorem deliverTrap_replays (s : State) (k n : Nat) (t : PTrap) : (deliverTrap s k n t).replays = s.replays := by simp [deliverTrap]
@[simp] theorem deliverTrap_time (s : State) (k n : Nat) (t : PTrap) : (deliverTrap s k n t).time = s.time := by simp [deliverTrap]
@[simp] theorem deliverTrap_free (s : State) (k n : Nat) (t : PTrap) : (deliverTrap s k n t).free = s.free := by simp [deliverTrap]
@[simp] theorem deliverTrap_nextId (s : State) (k n : Nat) (t : PTrap) : (deliverTrap s k n t).nextId = s.nextId := by simp [deliverTrap]
@[simp] theorem deliverTrap_core_cyc (s : State) (k n : Nat) (t : PTrap) : (deliverTrap s k n t).core.cyc = s.core.cyc := by simp [deliverTrap]
@[simp] theorem deliverTrap_core_elapsed (s : State) (k n : Nat) (t : PTrap) : (deliverTrap s k n t).core.elapsed = s.core.elapsed := by simp [deliverTrap]
@[simp] theorem deliverTrap_core_slot (s : State) (k n : Nat) (t : PTrap) : (deliverTrap s k n t).core.slot = s.core.slot := by simp [deliverTrap]
@[simp] theorem deliverTrap_core_fired (s : State) (k n : Nat) (t : PTrap) : (deliverTrap s k n t).core.fired = s.core.fired := by simp [deliverTrap]
@[simp] theorem deliverTrap_core_mems (s : State) (k n : Nat) (t : PTrap) : (deliverTrap s k n t).core.mems = s.core.mems := by simp [deliverTrap]
@[simp] theorem deliverTrap_core_decided (s : State) (k n : Nat) (t : PTrap) : (deliverTrap s k n t).core.decided = s.core.decided := by simp [deliverTrap]
@[simp] theorem deliverTrap_core_run (s : State) (k n : Nat) (t : PTrap) : (deliverTrap s k n t).core.run = s.core.run := by simp [deliverTrap]
@[simp] theorem deliverTrap_core_mwin (s : State) (k n : Nat) (t : PTrap) : (deliverTrap s k n t).core.mwin = s.core.mwin := by simp [deliverTrap]
@[simp] theorem deliverTrap_core_staging (s : State) (k n : Nat) (t : PTrap) : (deliverTrap s k n t).core.staging = s.core.staging := by simp [deliverTrap]
@[simp] theorem deliverTrap_core_ch (s : State) (k n : Nat) (t : PTrap) : (deliverTrap s k n t).core.ch = s.core.ch := by simp [deliverTrap]
@[simp] theorem deliverTrap_core_sys (s : State) (k n : Nat) (t : PTrap) : (deliverTrap s k n t).core.sys = s.core.sys := by simp [deliverTrap]
@[simp] theorem deliverTrap_core_recov (s : State) (k n : Nat) (t : PTrap) : (deliverTrap s k n t).core.recov = s.core.recov := by simp [deliverTrap]
@[simp] theorem deliverTrap_core_tables (s : State) (k n : Nat) (t : PTrap) : (deliverTrap s k n t).core.tables = s.core.tables := by simp [deliverTrap]
@[simp] theorem deliverTrap_core_row (s : State) (k n : Nat) (t : PTrap) : (deliverTrap s k n t).core.row = s.core.row := by simp [deliverTrap]
@[simp] theorem deliverTrap_core_mx (s : State) (k n : Nat) (t : PTrap) : (deliverTrap s k n t).core.mx = s.core.mx := by simp [deliverTrap]
@[simp] theorem deliverTrap_core_aps (s : State) (k n : Nat) (t : PTrap) : (deliverTrap s k n t).core.aps = s.core.aps := by simp [deliverTrap]
@[simp] theorem deliverTrap_core_ports (s : State) (k n : Nat) (t : PTrap) : (deliverTrap s k n t).core.ports = s.core.ports := by simp [deliverTrap]
@[simp] theorem deliverTrap_core_agNext (s : State) (k n : Nat) (t : PTrap) : (deliverTrap s k n t).core.agNext = s.core.agNext := by simp [deliverTrap]
@[simp] theorem deliverTrap_core_copies (s : State) (k n : Nat) (t : PTrap) : (deliverTrap s k n t).core.copies = s.core.copies := by simp [deliverTrap]
@[simp] theorem deliverTrap_core_aggs (s : State) (k n : Nat) (t : PTrap) : (deliverTrap s k n t).core.aggs = s.core.aggs := by simp [deliverTrap]
@[simp] theorem deliverTrap_core_exits (s : State) (k n : Nat) (t : PTrap) : (deliverTrap s k n t).core.exits = s.core.exits := by simp [deliverTrap]
@[simp] theorem deliverTrap_level_regs (s : State) (k n : Nat) (t : PTrap) (h : Bool) : ((deliverTrap s k n t).core.level h).regs = (s.core.level h).regs := by simp [deliverTrap]
@[simp] theorem deliverTrap_level_fpst (s : State) (k n : Nat) (t : PTrap) (h : Bool) : ((deliverTrap s k n t).core.level h).fpst = (s.core.level h).fpst := by simp [deliverTrap]
@[simp] theorem deliverTrap_level_seed (s : State) (k n : Nat) (t : PTrap) (h : Bool) : ((deliverTrap s k n t).core.level h).seed = (s.core.level h).seed := by simp [deliverTrap]
@[simp] theorem deliverTrap_level_link (s : State) (k n : Nat) (t : PTrap) (h : Bool) : ((deliverTrap s k n t).core.level h).link = (s.core.level h).link := by simp [deliverTrap]
@[simp] theorem deliverTrap_level_rstl (s : State) (k n : Nat) (t : PTrap) (h : Bool) : ((deliverTrap s k n t).core.level h).rstl = (s.core.level h).rstl := by simp [deliverTrap]
@[simp] theorem deliverTrap_level_wdog (s : State) (k n : Nat) (t : PTrap) (h : Bool) : ((deliverTrap s k n t).core.level h).wdog = (s.core.level h).wdog := by simp [deliverTrap]
@[simp] theorem deliverTrap_level_rr (s : State) (k n : Nat) (t : PTrap) (h : Bool) : ((deliverTrap s k n t).core.level h).rr = (s.core.level h).rr := by simp [deliverTrap]
@[simp] theorem deliverTrap_level_inv (s : State) (k n : Nat) (t : PTrap) (h : Bool) : ((deliverTrap s k n t).core.level h).inv = (s.core.level h).inv := by simp [deliverTrap]
@[simp] theorem deliverTrap_level_fetch (s : State) (k n : Nat) (t : PTrap) (h : Bool) : ((deliverTrap s k n t).core.level h).fetch = (s.core.level h).fetch := by simp [deliverTrap]
@[simp] theorem deliverTrap_lvl (s : State) (k n : Nat) (t : PTrap) : (deliverTrap s k n t).lvl = s.lvl := by simp [deliverTrap]
@[simp] theorem deliverTrap_inv? (s : State) (k n : Nat) (t : PTrap) : (deliverTrap s k n t).inv? = s.inv? := by simp [deliverTrap]
@[simp] theorem deliverTrap_act (s : State) (k n : Nat) (t : PTrap) : (deliverTrap s k n t).act = s.act := by simp [deliverTrap]
@[simp] theorem deliverTrap_task (s : State) (k n : Nat) (t : PTrap) : (deliverTrap s k n t).task = s.task := by simp [deliverTrap]
@[simp] theorem deliverTrap_out? (s : State) (k n : Nat) (t : PTrap) (q : Nat) (z : BitVec 3) : (deliverTrap s k n t).out? q z = s.out? q z := by simp [deliverTrap]
@[simp] theorem addAct_cur (s : State) (k r : Nat) (a : ActKind) : (addAct s k r a).cur = s.cur := by simp [addAct]
@[simp] theorem addAct_tiles (s : State) (k r : Nat) (a : ActKind) : (addAct s k r a).tiles = s.tiles := by simp [addAct]
@[simp] theorem addAct_agent (s : State) (k r : Nat) (a : ActKind) : (addAct s k r a).agent = s.agent := by simp [addAct]
@[simp] theorem addAct_agenda (s : State) (k r : Nat) (a : ActKind) : (addAct s k r a).agenda = s.agenda := by simp [addAct]
@[simp] theorem addAct_inp (s : State) (k r : Nat) (a : ActKind) : (addAct s k r a).inp = s.inp := by simp [addAct]
@[simp] theorem addAct_mts (s : State) (k r : Nat) (a : ActKind) : (addAct s k r a).mts = s.mts := by simp [addAct]
@[simp] theorem addAct_mem (s : State) (k r : Nat) (a : ActKind) : (addAct s k r a).mem = s.mem := by simp [addAct]
@[simp] theorem addAct_bad (s : State) (k r : Nat) (a : ActKind) : (addAct s k r a).bad = s.bad := by simp [addAct]
@[simp] theorem addAct_lineKey (s : State) (k r : Nat) (a : ActKind) : (addAct s k r a).lineKey = s.lineKey := by simp [addAct]
@[simp] theorem addAct_parts (s : State) (k r : Nat) (a : ActKind) : (addAct s k r a).parts = s.parts := by simp [addAct]
@[simp] theorem addAct_regions (s : State) (k r : Nat) (a : ActKind) : (addAct s k r a).regions = s.regions := by simp [addAct]
@[simp] theorem addAct_images (s : State) (k r : Nat) (a : ActKind) : (addAct s k r a).images = s.images := by simp [addAct]
@[simp] theorem addAct_queues (s : State) (k r : Nat) (a : ActKind) : (addAct s k r a).queues = s.queues := by simp [addAct]
@[simp] theorem addAct_lslots (s : State) (k r : Nat) (a : ActKind) : (addAct s k r a).lslots = s.lslots := by simp [addAct]
@[simp] theorem addAct_ports (s : State) (k r : Nat) (a : ActKind) : (addAct s k r a).ports = s.ports := by simp [addAct]
@[simp] theorem addAct_recvs (s : State) (k r : Nat) (a : ActKind) : (addAct s k r a).recvs = s.recvs := by simp [addAct]
@[simp] theorem addAct_fjs (s : State) (k r : Nat) (a : ActKind) : (addAct s k r a).fjs = s.fjs := by simp [addAct]
@[simp] theorem addAct_fabric (s : State) (k r : Nat) (a : ActKind) : (addAct s k r a).fabric = s.fabric := by simp [addAct]
@[simp] theorem addAct_head (s : State) (k r : Nat) (a : ActKind) : (addAct s k r a).head = s.head := by simp [addAct]
@[simp] theorem addAct_fuses (s : State) (k r : Nat) (a : ActKind) : (addAct s k r a).fuses = s.fuses := by simp [addAct]
@[simp] theorem addAct_net (s : State) (k r : Nat) (a : ActKind) : (addAct s k r a).net = s.net := by simp [addAct]
@[simp] theorem addAct_inbox (s : State) (k r : Nat) (a : ActKind) : (addAct s k r a).inbox = s.inbox := by simp [addAct]
@[simp] theorem addAct_waiting (s : State) (k r : Nat) (a : ActKind) : (addAct s k r a).waiting = s.waiting := by simp [addAct]
@[simp] theorem addAct_replays (s : State) (k r : Nat) (a : ActKind) : (addAct s k r a).replays = s.replays := by simp [addAct]
@[simp] theorem addAct_time (s : State) (k r : Nat) (a : ActKind) : (addAct s k r a).time = s.time := by simp [addAct]
@[simp] theorem addAct_free (s : State) (k r : Nat) (a : ActKind) : (addAct s k r a).free = s.free := by simp [addAct]
@[simp] theorem addAct_nextId (s : State) (k r : Nat) (a : ActKind) : (addAct s k r a).nextId = s.nextId := by simp [addAct]
@[simp] theorem addAct_core_cyc (s : State) (k r : Nat) (a : ActKind) : (addAct s k r a).core.cyc = s.core.cyc := by simp [addAct]
@[simp] theorem addAct_core_elapsed (s : State) (k r : Nat) (a : ActKind) : (addAct s k r a).core.elapsed = s.core.elapsed := by simp [addAct]
@[simp] theorem addAct_core_slot (s : State) (k r : Nat) (a : ActKind) : (addAct s k r a).core.slot = s.core.slot := by simp [addAct]
@[simp] theorem addAct_core_fired (s : State) (k r : Nat) (a : ActKind) : (addAct s k r a).core.fired = s.core.fired := by simp [addAct]
@[simp] theorem addAct_core_mems (s : State) (k r : Nat) (a : ActKind) : (addAct s k r a).core.mems = s.core.mems := by simp [addAct]
@[simp] theorem addAct_core_decided (s : State) (k r : Nat) (a : ActKind) : (addAct s k r a).core.decided = s.core.decided := by simp [addAct]
@[simp] theorem addAct_core_run (s : State) (k r : Nat) (a : ActKind) : (addAct s k r a).core.run = s.core.run := by simp [addAct]
@[simp] theorem addAct_core_mwin (s : State) (k r : Nat) (a : ActKind) : (addAct s k r a).core.mwin = s.core.mwin := by simp [addAct]
@[simp] theorem addAct_core_staging (s : State) (k r : Nat) (a : ActKind) : (addAct s k r a).core.staging = s.core.staging := by simp [addAct]
@[simp] theorem addAct_core_ch (s : State) (k r : Nat) (a : ActKind) : (addAct s k r a).core.ch = s.core.ch := by simp [addAct]
@[simp] theorem addAct_core_sys (s : State) (k r : Nat) (a : ActKind) : (addAct s k r a).core.sys = s.core.sys := by simp [addAct]
@[simp] theorem addAct_core_recov (s : State) (k r : Nat) (a : ActKind) : (addAct s k r a).core.recov = s.core.recov := by simp [addAct]
@[simp] theorem addAct_core_tables (s : State) (k r : Nat) (a : ActKind) : (addAct s k r a).core.tables = s.core.tables := by simp [addAct]
@[simp] theorem addAct_core_row (s : State) (k r : Nat) (a : ActKind) : (addAct s k r a).core.row = s.core.row := by simp [addAct]
@[simp] theorem addAct_core_mx (s : State) (k r : Nat) (a : ActKind) : (addAct s k r a).core.mx = s.core.mx := by simp [addAct]
@[simp] theorem addAct_core_aps (s : State) (k r : Nat) (a : ActKind) : (addAct s k r a).core.aps = s.core.aps := by simp [addAct]
@[simp] theorem addAct_core_ports (s : State) (k r : Nat) (a : ActKind) : (addAct s k r a).core.ports = s.core.ports := by simp [addAct]
@[simp] theorem addAct_core_agNext (s : State) (k r : Nat) (a : ActKind) : (addAct s k r a).core.agNext = s.core.agNext := by simp [addAct]
@[simp] theorem addAct_core_copies (s : State) (k r : Nat) (a : ActKind) : (addAct s k r a).core.copies = s.core.copies := by simp [addAct]
@[simp] theorem addAct_core_aggs (s : State) (k r : Nat) (a : ActKind) : (addAct s k r a).core.aggs = s.core.aggs := by simp [addAct]
@[simp] theorem addAct_core_exits (s : State) (k r : Nat) (a : ActKind) : (addAct s k r a).core.exits = s.core.exits := by simp [addAct]
@[simp] theorem addAct_level_regs (s : State) (k r : Nat) (a : ActKind) (h : Bool) : ((addAct s k r a).core.level h).regs = (s.core.level h).regs := by simp [addAct]
@[simp] theorem addAct_level_fpst (s : State) (k r : Nat) (a : ActKind) (h : Bool) : ((addAct s k r a).core.level h).fpst = (s.core.level h).fpst := by simp [addAct]
@[simp] theorem addAct_level_seed (s : State) (k r : Nat) (a : ActKind) (h : Bool) : ((addAct s k r a).core.level h).seed = (s.core.level h).seed := by simp [addAct]
@[simp] theorem addAct_level_link (s : State) (k r : Nat) (a : ActKind) (h : Bool) : ((addAct s k r a).core.level h).link = (s.core.level h).link := by simp [addAct]
@[simp] theorem addAct_level_rstl (s : State) (k r : Nat) (a : ActKind) (h : Bool) : ((addAct s k r a).core.level h).rstl = (s.core.level h).rstl := by simp [addAct]
@[simp] theorem addAct_level_wdog (s : State) (k r : Nat) (a : ActKind) (h : Bool) : ((addAct s k r a).core.level h).wdog = (s.core.level h).wdog := by simp [addAct]
@[simp] theorem addAct_level_rr (s : State) (k r : Nat) (a : ActKind) (h : Bool) : ((addAct s k r a).core.level h).rr = (s.core.level h).rr := by simp [addAct]
@[simp] theorem addAct_level_inv (s : State) (k r : Nat) (a : ActKind) (h : Bool) : ((addAct s k r a).core.level h).inv = (s.core.level h).inv := by simp [addAct]
@[simp] theorem addAct_level_fetch (s : State) (k r : Nat) (a : ActKind) (h : Bool) : ((addAct s k r a).core.level h).fetch = (s.core.level h).fetch := by simp [addAct]
@[simp] theorem addAct_lvl (s : State) (k r : Nat) (a : ActKind) : (addAct s k r a).lvl = s.lvl := by simp [addAct]
@[simp] theorem addAct_inv? (s : State) (k r : Nat) (a : ActKind) : (addAct s k r a).inv? = s.inv? := by simp [addAct]
@[simp] theorem addAct_act (s : State) (k r : Nat) (a : ActKind) : (addAct s k r a).act = s.act := by simp [addAct]
@[simp] theorem addAct_task (s : State) (k r : Nat) (a : ActKind) : (addAct s k r a).task = s.task := by simp [addAct]
@[simp] theorem addAct_out? (s : State) (k r : Nat) (a : ActKind) (q : Nat) (z : BitVec 3) : (addAct s k r a).out? q z = s.out? q z := by simp [addAct]
@[simp] theorem orFpst_cur (s : State) (b : BitVec 6) : (orFpst s b).cur = s.cur := by simp [orFpst]
@[simp] theorem orFpst_tiles (s : State) (b : BitVec 6) : (orFpst s b).tiles = s.tiles := by simp [orFpst]
@[simp] theorem orFpst_agent (s : State) (b : BitVec 6) : (orFpst s b).agent = s.agent := by simp [orFpst]
@[simp] theorem orFpst_agenda (s : State) (b : BitVec 6) : (orFpst s b).agenda = s.agenda := by simp [orFpst]
@[simp] theorem orFpst_inp (s : State) (b : BitVec 6) : (orFpst s b).inp = s.inp := by simp [orFpst]
@[simp] theorem orFpst_mts (s : State) (b : BitVec 6) : (orFpst s b).mts = s.mts := by simp [orFpst]
@[simp] theorem orFpst_mem (s : State) (b : BitVec 6) : (orFpst s b).mem = s.mem := by simp [orFpst]
@[simp] theorem orFpst_bad (s : State) (b : BitVec 6) : (orFpst s b).bad = s.bad := by simp [orFpst]
@[simp] theorem orFpst_lineKey (s : State) (b : BitVec 6) : (orFpst s b).lineKey = s.lineKey := by simp [orFpst]
@[simp] theorem orFpst_parts (s : State) (b : BitVec 6) : (orFpst s b).parts = s.parts := by simp [orFpst]
@[simp] theorem orFpst_regions (s : State) (b : BitVec 6) : (orFpst s b).regions = s.regions := by simp [orFpst]
@[simp] theorem orFpst_images (s : State) (b : BitVec 6) : (orFpst s b).images = s.images := by simp [orFpst]
@[simp] theorem orFpst_queues (s : State) (b : BitVec 6) : (orFpst s b).queues = s.queues := by simp [orFpst]
@[simp] theorem orFpst_lslots (s : State) (b : BitVec 6) : (orFpst s b).lslots = s.lslots := by simp [orFpst]
@[simp] theorem orFpst_ports (s : State) (b : BitVec 6) : (orFpst s b).ports = s.ports := by simp [orFpst]
@[simp] theorem orFpst_recvs (s : State) (b : BitVec 6) : (orFpst s b).recvs = s.recvs := by simp [orFpst]
@[simp] theorem orFpst_fjs (s : State) (b : BitVec 6) : (orFpst s b).fjs = s.fjs := by simp [orFpst]
@[simp] theorem orFpst_fabric (s : State) (b : BitVec 6) : (orFpst s b).fabric = s.fabric := by simp [orFpst]
@[simp] theorem orFpst_head (s : State) (b : BitVec 6) : (orFpst s b).head = s.head := by simp [orFpst]
@[simp] theorem orFpst_fuses (s : State) (b : BitVec 6) : (orFpst s b).fuses = s.fuses := by simp [orFpst]
@[simp] theorem orFpst_net (s : State) (b : BitVec 6) : (orFpst s b).net = s.net := by simp [orFpst]
@[simp] theorem orFpst_inbox (s : State) (b : BitVec 6) : (orFpst s b).inbox = s.inbox := by simp [orFpst]
@[simp] theorem orFpst_waiting (s : State) (b : BitVec 6) : (orFpst s b).waiting = s.waiting := by simp [orFpst]
@[simp] theorem orFpst_replays (s : State) (b : BitVec 6) : (orFpst s b).replays = s.replays := by simp [orFpst]
@[simp] theorem orFpst_time (s : State) (b : BitVec 6) : (orFpst s b).time = s.time := by simp [orFpst]
@[simp] theorem orFpst_free (s : State) (b : BitVec 6) : (orFpst s b).free = s.free := by simp [orFpst]
@[simp] theorem orFpst_nextId (s : State) (b : BitVec 6) : (orFpst s b).nextId = s.nextId := by simp [orFpst]
@[simp] theorem orFpst_core_cyc (s : State) (b : BitVec 6) : (orFpst s b).core.cyc = s.core.cyc := by simp [orFpst]
@[simp] theorem orFpst_core_elapsed (s : State) (b : BitVec 6) : (orFpst s b).core.elapsed = s.core.elapsed := by simp [orFpst]
@[simp] theorem orFpst_core_slot (s : State) (b : BitVec 6) : (orFpst s b).core.slot = s.core.slot := by simp [orFpst]
@[simp] theorem orFpst_core_fired (s : State) (b : BitVec 6) : (orFpst s b).core.fired = s.core.fired := by simp [orFpst]
@[simp] theorem orFpst_core_mems (s : State) (b : BitVec 6) : (orFpst s b).core.mems = s.core.mems := by simp [orFpst]
@[simp] theorem orFpst_core_decided (s : State) (b : BitVec 6) : (orFpst s b).core.decided = s.core.decided := by simp [orFpst]
@[simp] theorem orFpst_core_run (s : State) (b : BitVec 6) : (orFpst s b).core.run = s.core.run := by simp [orFpst]
@[simp] theorem orFpst_core_mwin (s : State) (b : BitVec 6) : (orFpst s b).core.mwin = s.core.mwin := by simp [orFpst]
@[simp] theorem orFpst_core_staging (s : State) (b : BitVec 6) : (orFpst s b).core.staging = s.core.staging := by simp [orFpst]
@[simp] theorem orFpst_core_ch (s : State) (b : BitVec 6) : (orFpst s b).core.ch = s.core.ch := by simp [orFpst]
@[simp] theorem orFpst_core_sys (s : State) (b : BitVec 6) : (orFpst s b).core.sys = s.core.sys := by simp [orFpst]
@[simp] theorem orFpst_core_recov (s : State) (b : BitVec 6) : (orFpst s b).core.recov = s.core.recov := by simp [orFpst]
@[simp] theorem orFpst_core_tables (s : State) (b : BitVec 6) : (orFpst s b).core.tables = s.core.tables := by simp [orFpst]
@[simp] theorem orFpst_core_row (s : State) (b : BitVec 6) : (orFpst s b).core.row = s.core.row := by simp [orFpst]
@[simp] theorem orFpst_core_mx (s : State) (b : BitVec 6) : (orFpst s b).core.mx = s.core.mx := by simp [orFpst]
@[simp] theorem orFpst_core_aps (s : State) (b : BitVec 6) : (orFpst s b).core.aps = s.core.aps := by simp [orFpst]
@[simp] theorem orFpst_core_ports (s : State) (b : BitVec 6) : (orFpst s b).core.ports = s.core.ports := by simp [orFpst]
@[simp] theorem orFpst_core_agNext (s : State) (b : BitVec 6) : (orFpst s b).core.agNext = s.core.agNext := by simp [orFpst]
@[simp] theorem orFpst_core_copies (s : State) (b : BitVec 6) : (orFpst s b).core.copies = s.core.copies := by simp [orFpst]
@[simp] theorem orFpst_core_aggs (s : State) (b : BitVec 6) : (orFpst s b).core.aggs = s.core.aggs := by simp [orFpst]
@[simp] theorem orFpst_core_exits (s : State) (b : BitVec 6) : (orFpst s b).core.exits = s.core.exits := by simp [orFpst]
@[simp] theorem orFpst_level_regs (s : State) (b : BitVec 6) (h : Bool) : ((orFpst s b).core.level h).regs = (s.core.level h).regs := by simp [orFpst]
@[simp] theorem orFpst_level_fpst (s : State) (b : BitVec 6) (h : Bool) : ((orFpst s b).core.level h).fpst = (s.core.level h).fpst := by simp [orFpst]
@[simp] theorem orFpst_level_seed (s : State) (b : BitVec 6) (h : Bool) : ((orFpst s b).core.level h).seed = (s.core.level h).seed := by simp [orFpst]
@[simp] theorem orFpst_level_link (s : State) (b : BitVec 6) (h : Bool) : ((orFpst s b).core.level h).link = (s.core.level h).link := by simp [orFpst]
@[simp] theorem orFpst_level_rstl (s : State) (b : BitVec 6) (h : Bool) : ((orFpst s b).core.level h).rstl = (s.core.level h).rstl := by simp [orFpst]
@[simp] theorem orFpst_level_wdog (s : State) (b : BitVec 6) (h : Bool) : ((orFpst s b).core.level h).wdog = (s.core.level h).wdog := by simp [orFpst]
@[simp] theorem orFpst_level_rr (s : State) (b : BitVec 6) (h : Bool) : ((orFpst s b).core.level h).rr = (s.core.level h).rr := by simp [orFpst]
@[simp] theorem orFpst_level_inv (s : State) (b : BitVec 6) (h : Bool) : ((orFpst s b).core.level h).inv = (s.core.level h).inv := by simp [orFpst]
@[simp] theorem orFpst_level_fetch (s : State) (b : BitVec 6) (h : Bool) : ((orFpst s b).core.level h).fetch = (s.core.level h).fetch := by simp [orFpst]
@[simp] theorem orFpst_lvl (s : State) (b : BitVec 6) : (orFpst s b).lvl = s.lvl := by simp [orFpst]
@[simp] theorem orFpst_inv? (s : State) (b : BitVec 6) : (orFpst s b).inv? = s.inv? := by simp [orFpst]
@[simp] theorem orFpst_act (s : State) (b : BitVec 6) : (orFpst s b).act = s.act := by simp [orFpst]
@[simp] theorem orFpst_task (s : State) (b : BitVec 6) : (orFpst s b).task = s.task := by simp [orFpst]
@[simp] theorem orFpst_out? (s : State) (b : BitVec 6) (q : Nat) (z : BitVec 3) : (orFpst s b).out? q z = s.out? q z := by simp [orFpst]
@[simp] theorem addOwed_cur (s : State) (o : Owed) : (addOwed s o).cur = s.cur := by simp [addOwed]
@[simp] theorem addOwed_tiles (s : State) (o : Owed) : (addOwed s o).tiles = s.tiles := by simp [addOwed]
@[simp] theorem addOwed_agent (s : State) (o : Owed) : (addOwed s o).agent = s.agent := by simp [addOwed]
@[simp] theorem addOwed_agenda (s : State) (o : Owed) : (addOwed s o).agenda = s.agenda := by simp [addOwed]
@[simp] theorem addOwed_inp (s : State) (o : Owed) : (addOwed s o).inp = s.inp := by simp [addOwed]
@[simp] theorem addOwed_mts (s : State) (o : Owed) : (addOwed s o).mts = s.mts := by simp [addOwed]
@[simp] theorem addOwed_mem (s : State) (o : Owed) : (addOwed s o).mem = s.mem := by simp [addOwed]
@[simp] theorem addOwed_bad (s : State) (o : Owed) : (addOwed s o).bad = s.bad := by simp [addOwed]
@[simp] theorem addOwed_lineKey (s : State) (o : Owed) : (addOwed s o).lineKey = s.lineKey := by simp [addOwed]
@[simp] theorem addOwed_parts (s : State) (o : Owed) : (addOwed s o).parts = s.parts := by simp [addOwed]
@[simp] theorem addOwed_regions (s : State) (o : Owed) : (addOwed s o).regions = s.regions := by simp [addOwed]
@[simp] theorem addOwed_images (s : State) (o : Owed) : (addOwed s o).images = s.images := by simp [addOwed]
@[simp] theorem addOwed_queues (s : State) (o : Owed) : (addOwed s o).queues = s.queues := by simp [addOwed]
@[simp] theorem addOwed_lslots (s : State) (o : Owed) : (addOwed s o).lslots = s.lslots := by simp [addOwed]
@[simp] theorem addOwed_ports (s : State) (o : Owed) : (addOwed s o).ports = s.ports := by simp [addOwed]
@[simp] theorem addOwed_recvs (s : State) (o : Owed) : (addOwed s o).recvs = s.recvs := by simp [addOwed]
@[simp] theorem addOwed_fjs (s : State) (o : Owed) : (addOwed s o).fjs = s.fjs := by simp [addOwed]
@[simp] theorem addOwed_fabric (s : State) (o : Owed) : (addOwed s o).fabric = s.fabric := by simp [addOwed]
@[simp] theorem addOwed_head (s : State) (o : Owed) : (addOwed s o).head = s.head := by simp [addOwed]
@[simp] theorem addOwed_fuses (s : State) (o : Owed) : (addOwed s o).fuses = s.fuses := by simp [addOwed]
@[simp] theorem addOwed_net (s : State) (o : Owed) : (addOwed s o).net = s.net := by simp [addOwed]
@[simp] theorem addOwed_inbox (s : State) (o : Owed) : (addOwed s o).inbox = s.inbox := by simp [addOwed]
@[simp] theorem addOwed_waiting (s : State) (o : Owed) : (addOwed s o).waiting = s.waiting := by simp [addOwed]
@[simp] theorem addOwed_replays (s : State) (o : Owed) : (addOwed s o).replays = s.replays := by simp [addOwed]
@[simp] theorem addOwed_time (s : State) (o : Owed) : (addOwed s o).time = s.time := by simp [addOwed]
@[simp] theorem addOwed_free (s : State) (o : Owed) : (addOwed s o).free = s.free := by simp [addOwed]
@[simp] theorem addOwed_nextId (s : State) (o : Owed) : (addOwed s o).nextId = s.nextId := by simp [addOwed]
@[simp] theorem addOwed_core_cyc (s : State) (o : Owed) : (addOwed s o).core.cyc = s.core.cyc := by simp [addOwed]
@[simp] theorem addOwed_core_elapsed (s : State) (o : Owed) : (addOwed s o).core.elapsed = s.core.elapsed := by simp [addOwed]
@[simp] theorem addOwed_core_slot (s : State) (o : Owed) : (addOwed s o).core.slot = s.core.slot := by simp [addOwed]
@[simp] theorem addOwed_core_fired (s : State) (o : Owed) : (addOwed s o).core.fired = s.core.fired := by simp [addOwed]
@[simp] theorem addOwed_core_mems (s : State) (o : Owed) : (addOwed s o).core.mems = s.core.mems := by simp [addOwed]
@[simp] theorem addOwed_core_decided (s : State) (o : Owed) : (addOwed s o).core.decided = s.core.decided := by simp [addOwed]
@[simp] theorem addOwed_core_run (s : State) (o : Owed) : (addOwed s o).core.run = s.core.run := by simp [addOwed]
@[simp] theorem addOwed_core_mwin (s : State) (o : Owed) : (addOwed s o).core.mwin = s.core.mwin := by simp [addOwed]
@[simp] theorem addOwed_core_staging (s : State) (o : Owed) : (addOwed s o).core.staging = s.core.staging := by simp [addOwed]
@[simp] theorem addOwed_core_ch (s : State) (o : Owed) : (addOwed s o).core.ch = s.core.ch := by simp [addOwed]
@[simp] theorem addOwed_core_sys (s : State) (o : Owed) : (addOwed s o).core.sys = s.core.sys := by simp [addOwed]
@[simp] theorem addOwed_core_recov (s : State) (o : Owed) : (addOwed s o).core.recov = s.core.recov := by simp [addOwed]
@[simp] theorem addOwed_core_tables (s : State) (o : Owed) : (addOwed s o).core.tables = s.core.tables := by simp [addOwed]
@[simp] theorem addOwed_core_row (s : State) (o : Owed) : (addOwed s o).core.row = s.core.row := by simp [addOwed]
@[simp] theorem addOwed_core_mx (s : State) (o : Owed) : (addOwed s o).core.mx = s.core.mx := by simp [addOwed]
@[simp] theorem addOwed_core_aps (s : State) (o : Owed) : (addOwed s o).core.aps = s.core.aps := by simp [addOwed]
@[simp] theorem addOwed_core_ports (s : State) (o : Owed) : (addOwed s o).core.ports = s.core.ports := by simp [addOwed]
@[simp] theorem addOwed_core_agNext (s : State) (o : Owed) : (addOwed s o).core.agNext = s.core.agNext := by simp [addOwed]
@[simp] theorem addOwed_core_copies (s : State) (o : Owed) : (addOwed s o).core.copies = s.core.copies := by simp [addOwed]
@[simp] theorem addOwed_core_aggs (s : State) (o : Owed) : (addOwed s o).core.aggs = s.core.aggs := by simp [addOwed]
@[simp] theorem addOwed_core_exits (s : State) (o : Owed) : (addOwed s o).core.exits = s.core.exits := by simp [addOwed]
@[simp] theorem addOwed_level_regs (s : State) (o : Owed) (h : Bool) : ((addOwed s o).core.level h).regs = (s.core.level h).regs := by simp [addOwed]
@[simp] theorem addOwed_level_fpst (s : State) (o : Owed) (h : Bool) : ((addOwed s o).core.level h).fpst = (s.core.level h).fpst := by simp [addOwed]
@[simp] theorem addOwed_level_seed (s : State) (o : Owed) (h : Bool) : ((addOwed s o).core.level h).seed = (s.core.level h).seed := by simp [addOwed]
@[simp] theorem addOwed_level_link (s : State) (o : Owed) (h : Bool) : ((addOwed s o).core.level h).link = (s.core.level h).link := by simp [addOwed]
@[simp] theorem addOwed_level_rstl (s : State) (o : Owed) (h : Bool) : ((addOwed s o).core.level h).rstl = (s.core.level h).rstl := by simp [addOwed]
@[simp] theorem addOwed_level_wdog (s : State) (o : Owed) (h : Bool) : ((addOwed s o).core.level h).wdog = (s.core.level h).wdog := by simp [addOwed]
@[simp] theorem addOwed_level_rr (s : State) (o : Owed) (h : Bool) : ((addOwed s o).core.level h).rr = (s.core.level h).rr := by simp [addOwed]
@[simp] theorem addOwed_level_inv (s : State) (o : Owed) (h : Bool) : ((addOwed s o).core.level h).inv = (s.core.level h).inv := by simp [addOwed]
@[simp] theorem addOwed_level_fetch (s : State) (o : Owed) (h : Bool) : ((addOwed s o).core.level h).fetch = (s.core.level h).fetch := by simp [addOwed]
@[simp] theorem addOwed_lvl (s : State) (o : Owed) : (addOwed s o).lvl = s.lvl := by simp [addOwed]
@[simp] theorem addOwed_inv? (s : State) (o : Owed) : (addOwed s o).inv? = s.inv? := by simp [addOwed]
@[simp] theorem addOwed_act (s : State) (o : Owed) : (addOwed s o).act = s.act := by simp [addOwed]
@[simp] theorem addOwed_task (s : State) (o : Owed) : (addOwed s o).task = s.task := by simp [addOwed]
@[simp] theorem addOwed_out? (s : State) (o : Owed) (q : Nat) (z : BitVec 3) : (addOwed s o).out? q z = s.out? q z := by simp [addOwed]
@[simp] theorem addWait_cur (s : State) (x : Args) (w : WaitFor) : (addWait s x w).cur = s.cur := by simp [addWait]
@[simp] theorem addWait_tiles (s : State) (x : Args) (w : WaitFor) : (addWait s x w).tiles = s.tiles := by simp [addWait]
@[simp] theorem addWait_agent (s : State) (x : Args) (w : WaitFor) : (addWait s x w).agent = s.agent := by simp [addWait]
@[simp] theorem addWait_agenda (s : State) (x : Args) (w : WaitFor) : (addWait s x w).agenda = s.agenda := by simp [addWait]
@[simp] theorem addWait_inp (s : State) (x : Args) (w : WaitFor) : (addWait s x w).inp = s.inp := by simp [addWait]
@[simp] theorem addWait_mts (s : State) (x : Args) (w : WaitFor) : (addWait s x w).mts = s.mts := by simp [addWait]
@[simp] theorem addWait_mem (s : State) (x : Args) (w : WaitFor) : (addWait s x w).mem = s.mem := by simp [addWait]
@[simp] theorem addWait_bad (s : State) (x : Args) (w : WaitFor) : (addWait s x w).bad = s.bad := by simp [addWait]
@[simp] theorem addWait_lineKey (s : State) (x : Args) (w : WaitFor) : (addWait s x w).lineKey = s.lineKey := by simp [addWait]
@[simp] theorem addWait_parts (s : State) (x : Args) (w : WaitFor) : (addWait s x w).parts = s.parts := by simp [addWait]
@[simp] theorem addWait_regions (s : State) (x : Args) (w : WaitFor) : (addWait s x w).regions = s.regions := by simp [addWait]
@[simp] theorem addWait_images (s : State) (x : Args) (w : WaitFor) : (addWait s x w).images = s.images := by simp [addWait]
@[simp] theorem addWait_queues (s : State) (x : Args) (w : WaitFor) : (addWait s x w).queues = s.queues := by simp [addWait]
@[simp] theorem addWait_lslots (s : State) (x : Args) (w : WaitFor) : (addWait s x w).lslots = s.lslots := by simp [addWait]
@[simp] theorem addWait_ports (s : State) (x : Args) (w : WaitFor) : (addWait s x w).ports = s.ports := by simp [addWait]
@[simp] theorem addWait_recvs (s : State) (x : Args) (w : WaitFor) : (addWait s x w).recvs = s.recvs := by simp [addWait]
@[simp] theorem addWait_fjs (s : State) (x : Args) (w : WaitFor) : (addWait s x w).fjs = s.fjs := by simp [addWait]
@[simp] theorem addWait_fabric (s : State) (x : Args) (w : WaitFor) : (addWait s x w).fabric = s.fabric := by simp [addWait]
@[simp] theorem addWait_head (s : State) (x : Args) (w : WaitFor) : (addWait s x w).head = s.head := by simp [addWait]
@[simp] theorem addWait_fuses (s : State) (x : Args) (w : WaitFor) : (addWait s x w).fuses = s.fuses := by simp [addWait]
@[simp] theorem addWait_net (s : State) (x : Args) (w : WaitFor) : (addWait s x w).net = s.net := by simp [addWait]
@[simp] theorem addWait_inbox (s : State) (x : Args) (w : WaitFor) : (addWait s x w).inbox = s.inbox := by simp [addWait]
@[simp] theorem addWait_waiting (s : State) (x : Args) (w : WaitFor) : (addWait s x w).waiting = s.waiting := by simp [addWait]
@[simp] theorem addWait_replays (s : State) (x : Args) (w : WaitFor) : (addWait s x w).replays = s.replays := by simp [addWait]
@[simp] theorem addWait_time (s : State) (x : Args) (w : WaitFor) : (addWait s x w).time = s.time := by simp [addWait]
@[simp] theorem addWait_free (s : State) (x : Args) (w : WaitFor) : (addWait s x w).free = s.free := by simp [addWait]
@[simp] theorem addWait_nextId (s : State) (x : Args) (w : WaitFor) : (addWait s x w).nextId = s.nextId := by simp [addWait]
@[simp] theorem addWait_core_cyc (s : State) (x : Args) (w : WaitFor) : (addWait s x w).core.cyc = s.core.cyc := by simp [addWait]
@[simp] theorem addWait_core_elapsed (s : State) (x : Args) (w : WaitFor) : (addWait s x w).core.elapsed = s.core.elapsed := by simp [addWait]
@[simp] theorem addWait_core_slot (s : State) (x : Args) (w : WaitFor) : (addWait s x w).core.slot = s.core.slot := by simp [addWait]
@[simp] theorem addWait_core_fired (s : State) (x : Args) (w : WaitFor) : (addWait s x w).core.fired = s.core.fired := by simp [addWait]
@[simp] theorem addWait_core_mems (s : State) (x : Args) (w : WaitFor) : (addWait s x w).core.mems = s.core.mems := by simp [addWait]
@[simp] theorem addWait_core_decided (s : State) (x : Args) (w : WaitFor) : (addWait s x w).core.decided = s.core.decided := by simp [addWait]
@[simp] theorem addWait_core_run (s : State) (x : Args) (w : WaitFor) : (addWait s x w).core.run = s.core.run := by simp [addWait]
@[simp] theorem addWait_core_mwin (s : State) (x : Args) (w : WaitFor) : (addWait s x w).core.mwin = s.core.mwin := by simp [addWait]
@[simp] theorem addWait_core_staging (s : State) (x : Args) (w : WaitFor) : (addWait s x w).core.staging = s.core.staging := by simp [addWait]
@[simp] theorem addWait_core_ch (s : State) (x : Args) (w : WaitFor) : (addWait s x w).core.ch = s.core.ch := by simp [addWait]
@[simp] theorem addWait_core_sys (s : State) (x : Args) (w : WaitFor) : (addWait s x w).core.sys = s.core.sys := by simp [addWait]
@[simp] theorem addWait_core_recov (s : State) (x : Args) (w : WaitFor) : (addWait s x w).core.recov = s.core.recov := by simp [addWait]
@[simp] theorem addWait_core_tables (s : State) (x : Args) (w : WaitFor) : (addWait s x w).core.tables = s.core.tables := by simp [addWait]
@[simp] theorem addWait_core_row (s : State) (x : Args) (w : WaitFor) : (addWait s x w).core.row = s.core.row := by simp [addWait]
@[simp] theorem addWait_core_mx (s : State) (x : Args) (w : WaitFor) : (addWait s x w).core.mx = s.core.mx := by simp [addWait]
@[simp] theorem addWait_core_aps (s : State) (x : Args) (w : WaitFor) : (addWait s x w).core.aps = s.core.aps := by simp [addWait]
@[simp] theorem addWait_core_ports (s : State) (x : Args) (w : WaitFor) : (addWait s x w).core.ports = s.core.ports := by simp [addWait]
@[simp] theorem addWait_core_agNext (s : State) (x : Args) (w : WaitFor) : (addWait s x w).core.agNext = s.core.agNext := by simp [addWait]
@[simp] theorem addWait_core_copies (s : State) (x : Args) (w : WaitFor) : (addWait s x w).core.copies = s.core.copies := by simp [addWait]
@[simp] theorem addWait_core_aggs (s : State) (x : Args) (w : WaitFor) : (addWait s x w).core.aggs = s.core.aggs := by simp [addWait]
@[simp] theorem addWait_core_exits (s : State) (x : Args) (w : WaitFor) : (addWait s x w).core.exits = s.core.exits := by simp [addWait]
@[simp] theorem addWait_level_regs (s : State) (x : Args) (w : WaitFor) (h : Bool) : ((addWait s x w).core.level h).regs = (s.core.level h).regs := by simp [addWait]
@[simp] theorem addWait_level_fpst (s : State) (x : Args) (w : WaitFor) (h : Bool) : ((addWait s x w).core.level h).fpst = (s.core.level h).fpst := by simp [addWait]
@[simp] theorem addWait_level_seed (s : State) (x : Args) (w : WaitFor) (h : Bool) : ((addWait s x w).core.level h).seed = (s.core.level h).seed := by simp [addWait]
@[simp] theorem addWait_level_link (s : State) (x : Args) (w : WaitFor) (h : Bool) : ((addWait s x w).core.level h).link = (s.core.level h).link := by simp [addWait]
@[simp] theorem addWait_level_rstl (s : State) (x : Args) (w : WaitFor) (h : Bool) : ((addWait s x w).core.level h).rstl = (s.core.level h).rstl := by simp [addWait]
@[simp] theorem addWait_level_wdog (s : State) (x : Args) (w : WaitFor) (h : Bool) : ((addWait s x w).core.level h).wdog = (s.core.level h).wdog := by simp [addWait]
@[simp] theorem addWait_level_rr (s : State) (x : Args) (w : WaitFor) (h : Bool) : ((addWait s x w).core.level h).rr = (s.core.level h).rr := by simp [addWait]
@[simp] theorem addWait_level_inv (s : State) (x : Args) (w : WaitFor) (h : Bool) : ((addWait s x w).core.level h).inv = (s.core.level h).inv := by simp [addWait]
@[simp] theorem addWait_level_fetch (s : State) (x : Args) (w : WaitFor) (h : Bool) : ((addWait s x w).core.level h).fetch = (s.core.level h).fetch := by simp [addWait]
@[simp] theorem addWait_lvl (s : State) (x : Args) (w : WaitFor) : (addWait s x w).lvl = s.lvl := by simp [addWait]
@[simp] theorem addWait_inv? (s : State) (x : Args) (w : WaitFor) : (addWait s x w).inv? = s.inv? := by simp [addWait]
@[simp] theorem addWait_act (s : State) (x : Args) (w : WaitFor) : (addWait s x w).act = s.act := by simp [addWait]
@[simp] theorem addWait_task (s : State) (x : Args) (w : WaitFor) : (addWait s x w).task = s.task := by simp [addWait]
@[simp] theorem addWait_out? (s : State) (x : Args) (w : WaitFor) (q : Nat) (z : BitVec 3) : (addWait s x w).out? q z = s.out? q z := by simp [addWait]
@[simp] theorem bufferOp_cur (s : State) (f : Info) (a : Args) (l : BitVec 4) (o : SOp) : (bufferOp s f a l o).cur = s.cur := by simp [bufferOp]
@[simp] theorem bufferOp_tiles (s : State) (f : Info) (a : Args) (l : BitVec 4) (o : SOp) : (bufferOp s f a l o).tiles = s.tiles := by simp [bufferOp]
@[simp] theorem bufferOp_agent (s : State) (f : Info) (a : Args) (l : BitVec 4) (o : SOp) : (bufferOp s f a l o).agent = s.agent := by simp [bufferOp]
@[simp] theorem bufferOp_agenda (s : State) (f : Info) (a : Args) (l : BitVec 4) (o : SOp) : (bufferOp s f a l o).agenda = s.agenda := by simp [bufferOp]
@[simp] theorem bufferOp_inp (s : State) (f : Info) (a : Args) (l : BitVec 4) (o : SOp) : (bufferOp s f a l o).inp = s.inp := by simp [bufferOp]
@[simp] theorem bufferOp_mts (s : State) (f : Info) (a : Args) (l : BitVec 4) (o : SOp) : (bufferOp s f a l o).mts = s.mts := by simp [bufferOp]
@[simp] theorem bufferOp_mem (s : State) (f : Info) (a : Args) (l : BitVec 4) (o : SOp) : (bufferOp s f a l o).mem = s.mem := by simp [bufferOp]
@[simp] theorem bufferOp_bad (s : State) (f : Info) (a : Args) (l : BitVec 4) (o : SOp) : (bufferOp s f a l o).bad = s.bad := by simp [bufferOp]
@[simp] theorem bufferOp_lineKey (s : State) (f : Info) (a : Args) (l : BitVec 4) (o : SOp) : (bufferOp s f a l o).lineKey = s.lineKey := by simp [bufferOp]
@[simp] theorem bufferOp_parts (s : State) (f : Info) (a : Args) (l : BitVec 4) (o : SOp) : (bufferOp s f a l o).parts = s.parts := by simp [bufferOp]
@[simp] theorem bufferOp_regions (s : State) (f : Info) (a : Args) (l : BitVec 4) (o : SOp) : (bufferOp s f a l o).regions = s.regions := by simp [bufferOp]
@[simp] theorem bufferOp_images (s : State) (f : Info) (a : Args) (l : BitVec 4) (o : SOp) : (bufferOp s f a l o).images = s.images := by simp [bufferOp]
@[simp] theorem bufferOp_queues (s : State) (f : Info) (a : Args) (l : BitVec 4) (o : SOp) : (bufferOp s f a l o).queues = s.queues := by simp [bufferOp]
@[simp] theorem bufferOp_lslots (s : State) (f : Info) (a : Args) (l : BitVec 4) (o : SOp) : (bufferOp s f a l o).lslots = s.lslots := by simp [bufferOp]
@[simp] theorem bufferOp_ports (s : State) (f : Info) (a : Args) (l : BitVec 4) (o : SOp) : (bufferOp s f a l o).ports = s.ports := by simp [bufferOp]
@[simp] theorem bufferOp_recvs (s : State) (f : Info) (a : Args) (l : BitVec 4) (o : SOp) : (bufferOp s f a l o).recvs = s.recvs := by simp [bufferOp]
@[simp] theorem bufferOp_fjs (s : State) (f : Info) (a : Args) (l : BitVec 4) (o : SOp) : (bufferOp s f a l o).fjs = s.fjs := by simp [bufferOp]
@[simp] theorem bufferOp_fabric (s : State) (f : Info) (a : Args) (l : BitVec 4) (o : SOp) : (bufferOp s f a l o).fabric = s.fabric := by simp [bufferOp]
@[simp] theorem bufferOp_head (s : State) (f : Info) (a : Args) (l : BitVec 4) (o : SOp) : (bufferOp s f a l o).head = s.head := by simp [bufferOp]
@[simp] theorem bufferOp_fuses (s : State) (f : Info) (a : Args) (l : BitVec 4) (o : SOp) : (bufferOp s f a l o).fuses = s.fuses := by simp [bufferOp]
@[simp] theorem bufferOp_net (s : State) (f : Info) (a : Args) (l : BitVec 4) (o : SOp) : (bufferOp s f a l o).net = s.net := by simp [bufferOp]
@[simp] theorem bufferOp_inbox (s : State) (f : Info) (a : Args) (l : BitVec 4) (o : SOp) : (bufferOp s f a l o).inbox = s.inbox := by simp [bufferOp]
@[simp] theorem bufferOp_waiting (s : State) (f : Info) (a : Args) (l : BitVec 4) (o : SOp) : (bufferOp s f a l o).waiting = s.waiting := by simp [bufferOp]
@[simp] theorem bufferOp_replays (s : State) (f : Info) (a : Args) (l : BitVec 4) (o : SOp) : (bufferOp s f a l o).replays = s.replays := by simp [bufferOp]
@[simp] theorem bufferOp_time (s : State) (f : Info) (a : Args) (l : BitVec 4) (o : SOp) : (bufferOp s f a l o).time = s.time := by simp [bufferOp]
@[simp] theorem bufferOp_free (s : State) (f : Info) (a : Args) (l : BitVec 4) (o : SOp) : (bufferOp s f a l o).free = s.free := by simp [bufferOp]
@[simp] theorem bufferOp_nextId (s : State) (f : Info) (a : Args) (l : BitVec 4) (o : SOp) : (bufferOp s f a l o).nextId = s.nextId := by simp [bufferOp]
@[simp] theorem bufferOp_core_cyc (s : State) (f : Info) (a : Args) (l : BitVec 4) (o : SOp) : (bufferOp s f a l o).core.cyc = s.core.cyc := by simp [bufferOp]
@[simp] theorem bufferOp_core_elapsed (s : State) (f : Info) (a : Args) (l : BitVec 4) (o : SOp) : (bufferOp s f a l o).core.elapsed = s.core.elapsed := by simp [bufferOp]
@[simp] theorem bufferOp_core_slot (s : State) (f : Info) (a : Args) (l : BitVec 4) (o : SOp) : (bufferOp s f a l o).core.slot = s.core.slot := by simp [bufferOp]
@[simp] theorem bufferOp_core_fired (s : State) (f : Info) (a : Args) (l : BitVec 4) (o : SOp) : (bufferOp s f a l o).core.fired = s.core.fired := by simp [bufferOp]
@[simp] theorem bufferOp_core_mems (s : State) (f : Info) (a : Args) (l : BitVec 4) (o : SOp) : (bufferOp s f a l o).core.mems = s.core.mems := by simp [bufferOp]
@[simp] theorem bufferOp_core_decided (s : State) (f : Info) (a : Args) (l : BitVec 4) (o : SOp) : (bufferOp s f a l o).core.decided = s.core.decided := by simp [bufferOp]
@[simp] theorem bufferOp_core_run (s : State) (f : Info) (a : Args) (l : BitVec 4) (o : SOp) : (bufferOp s f a l o).core.run = s.core.run := by simp [bufferOp]
@[simp] theorem bufferOp_core_mwin (s : State) (f : Info) (a : Args) (l : BitVec 4) (o : SOp) : (bufferOp s f a l o).core.mwin = s.core.mwin := by simp [bufferOp]
@[simp] theorem bufferOp_core_staging (s : State) (f : Info) (a : Args) (l : BitVec 4) (o : SOp) : (bufferOp s f a l o).core.staging = s.core.staging := by simp [bufferOp]
@[simp] theorem bufferOp_core_ch (s : State) (f : Info) (a : Args) (l : BitVec 4) (o : SOp) : (bufferOp s f a l o).core.ch = s.core.ch := by simp [bufferOp]
@[simp] theorem bufferOp_core_sys (s : State) (f : Info) (a : Args) (l : BitVec 4) (o : SOp) : (bufferOp s f a l o).core.sys = s.core.sys := by simp [bufferOp]
@[simp] theorem bufferOp_core_recov (s : State) (f : Info) (a : Args) (l : BitVec 4) (o : SOp) : (bufferOp s f a l o).core.recov = s.core.recov := by simp [bufferOp]
@[simp] theorem bufferOp_core_tables (s : State) (f : Info) (a : Args) (l : BitVec 4) (o : SOp) : (bufferOp s f a l o).core.tables = s.core.tables := by simp [bufferOp]
@[simp] theorem bufferOp_core_row (s : State) (f : Info) (a : Args) (l : BitVec 4) (o : SOp) : (bufferOp s f a l o).core.row = s.core.row := by simp [bufferOp]
@[simp] theorem bufferOp_core_mx (s : State) (f : Info) (a : Args) (l : BitVec 4) (o : SOp) : (bufferOp s f a l o).core.mx = s.core.mx := by simp [bufferOp]
@[simp] theorem bufferOp_core_aps (s : State) (f : Info) (a : Args) (l : BitVec 4) (o : SOp) : (bufferOp s f a l o).core.aps = s.core.aps := by simp [bufferOp]
@[simp] theorem bufferOp_core_ports (s : State) (f : Info) (a : Args) (l : BitVec 4) (o : SOp) : (bufferOp s f a l o).core.ports = s.core.ports := by simp [bufferOp]
@[simp] theorem bufferOp_core_agNext (s : State) (f : Info) (a : Args) (l : BitVec 4) (o : SOp) : (bufferOp s f a l o).core.agNext = s.core.agNext := by simp [bufferOp]
@[simp] theorem bufferOp_core_copies (s : State) (f : Info) (a : Args) (l : BitVec 4) (o : SOp) : (bufferOp s f a l o).core.copies = s.core.copies := by simp [bufferOp]
@[simp] theorem bufferOp_core_aggs (s : State) (f : Info) (a : Args) (l : BitVec 4) (o : SOp) : (bufferOp s f a l o).core.aggs = s.core.aggs := by simp [bufferOp]
@[simp] theorem bufferOp_core_exits (s : State) (f : Info) (a : Args) (l : BitVec 4) (o : SOp) : (bufferOp s f a l o).core.exits = s.core.exits := by simp [bufferOp]
@[simp] theorem bufferOp_level_regs (s : State) (f : Info) (a : Args) (l : BitVec 4) (o : SOp) (h : Bool) : ((bufferOp s f a l o).core.level h).regs = (s.core.level h).regs := by simp [bufferOp]
@[simp] theorem bufferOp_level_fpst (s : State) (f : Info) (a : Args) (l : BitVec 4) (o : SOp) (h : Bool) : ((bufferOp s f a l o).core.level h).fpst = (s.core.level h).fpst := by simp [bufferOp]
@[simp] theorem bufferOp_level_seed (s : State) (f : Info) (a : Args) (l : BitVec 4) (o : SOp) (h : Bool) : ((bufferOp s f a l o).core.level h).seed = (s.core.level h).seed := by simp [bufferOp]
@[simp] theorem bufferOp_level_link (s : State) (f : Info) (a : Args) (l : BitVec 4) (o : SOp) (h : Bool) : ((bufferOp s f a l o).core.level h).link = (s.core.level h).link := by simp [bufferOp]
@[simp] theorem bufferOp_level_rstl (s : State) (f : Info) (a : Args) (l : BitVec 4) (o : SOp) (h : Bool) : ((bufferOp s f a l o).core.level h).rstl = (s.core.level h).rstl := by simp [bufferOp]
@[simp] theorem bufferOp_level_wdog (s : State) (f : Info) (a : Args) (l : BitVec 4) (o : SOp) (h : Bool) : ((bufferOp s f a l o).core.level h).wdog = (s.core.level h).wdog := by simp [bufferOp]
@[simp] theorem bufferOp_level_rr (s : State) (f : Info) (a : Args) (l : BitVec 4) (o : SOp) (h : Bool) : ((bufferOp s f a l o).core.level h).rr = (s.core.level h).rr := by simp [bufferOp]
@[simp] theorem bufferOp_level_inv (s : State) (f : Info) (a : Args) (l : BitVec 4) (o : SOp) (h : Bool) : ((bufferOp s f a l o).core.level h).inv = (s.core.level h).inv := by simp [bufferOp]
@[simp] theorem bufferOp_level_fetch (s : State) (f : Info) (a : Args) (l : BitVec 4) (o : SOp) (h : Bool) : ((bufferOp s f a l o).core.level h).fetch = (s.core.level h).fetch := by simp [bufferOp]
@[simp] theorem bufferOp_lvl (s : State) (f : Info) (a : Args) (l : BitVec 4) (o : SOp) : (bufferOp s f a l o).lvl = s.lvl := by simp [bufferOp]
@[simp] theorem bufferOp_inv? (s : State) (f : Info) (a : Args) (l : BitVec 4) (o : SOp) : (bufferOp s f a l o).inv? = s.inv? := by simp [bufferOp]
@[simp] theorem bufferOp_act (s : State) (f : Info) (a : Args) (l : BitVec 4) (o : SOp) : (bufferOp s f a l o).act = s.act := by simp [bufferOp]
@[simp] theorem bufferOp_task (s : State) (f : Info) (a : Args) (l : BitVec 4) (o : SOp) : (bufferOp s f a l o).task = s.task := by simp [bufferOp]
@[simp] theorem bufferOp_out? (s : State) (f : Info) (a : Args) (l : BitVec 4) (o : SOp) (q : Nat) (z : BitVec 3) : (bufferOp s f a l o).out? q z = s.out? q z := by simp [bufferOp]
@[simp] theorem markSlot_cur (s : State) (k : Nat) (st : SlotState) (f : Info) : (markSlot s k st f).cur = s.cur := by simp only [markSlot]; split <;> simp
@[simp] theorem markSlot_tiles (s : State) (k : Nat) (st : SlotState) (f : Info) : (markSlot s k st f).tiles = s.tiles := by simp only [markSlot]; split <;> simp
@[simp] theorem markSlot_agent (s : State) (k : Nat) (st : SlotState) (f : Info) : (markSlot s k st f).agent = s.agent := by simp only [markSlot]; split <;> simp
@[simp] theorem markSlot_agenda (s : State) (k : Nat) (st : SlotState) (f : Info) : (markSlot s k st f).agenda = s.agenda := by simp only [markSlot]; split <;> simp
@[simp] theorem markSlot_inp (s : State) (k : Nat) (st : SlotState) (f : Info) : (markSlot s k st f).inp = s.inp := by simp only [markSlot]; split <;> simp
@[simp] theorem markSlot_mts (s : State) (k : Nat) (st : SlotState) (f : Info) : (markSlot s k st f).mts = s.mts := by simp only [markSlot]; split <;> simp
@[simp] theorem markSlot_mem (s : State) (k : Nat) (st : SlotState) (f : Info) : (markSlot s k st f).mem = s.mem := by simp only [markSlot]; split <;> simp
@[simp] theorem markSlot_bad (s : State) (k : Nat) (st : SlotState) (f : Info) : (markSlot s k st f).bad = s.bad := by simp only [markSlot]; split <;> simp
@[simp] theorem markSlot_lineKey (s : State) (k : Nat) (st : SlotState) (f : Info) : (markSlot s k st f).lineKey = s.lineKey := by simp only [markSlot]; split <;> simp
@[simp] theorem markSlot_parts (s : State) (k : Nat) (st : SlotState) (f : Info) : (markSlot s k st f).parts = s.parts := by simp only [markSlot]; split <;> simp
@[simp] theorem markSlot_regions (s : State) (k : Nat) (st : SlotState) (f : Info) : (markSlot s k st f).regions = s.regions := by simp only [markSlot]; split <;> simp
@[simp] theorem markSlot_images (s : State) (k : Nat) (st : SlotState) (f : Info) : (markSlot s k st f).images = s.images := by simp only [markSlot]; split <;> simp
@[simp] theorem markSlot_queues (s : State) (k : Nat) (st : SlotState) (f : Info) : (markSlot s k st f).queues = s.queues := by simp only [markSlot]; split <;> simp
@[simp] theorem markSlot_lslots (s : State) (k : Nat) (st : SlotState) (f : Info) : (markSlot s k st f).lslots = s.lslots := by simp only [markSlot]; split <;> simp
@[simp] theorem markSlot_ports (s : State) (k : Nat) (st : SlotState) (f : Info) : (markSlot s k st f).ports = s.ports := by simp only [markSlot]; split <;> simp
@[simp] theorem markSlot_recvs (s : State) (k : Nat) (st : SlotState) (f : Info) : (markSlot s k st f).recvs = s.recvs := by simp only [markSlot]; split <;> simp
@[simp] theorem markSlot_fjs (s : State) (k : Nat) (st : SlotState) (f : Info) : (markSlot s k st f).fjs = s.fjs := by simp only [markSlot]; split <;> simp
@[simp] theorem markSlot_fabric (s : State) (k : Nat) (st : SlotState) (f : Info) : (markSlot s k st f).fabric = s.fabric := by simp only [markSlot]; split <;> simp
@[simp] theorem markSlot_head (s : State) (k : Nat) (st : SlotState) (f : Info) : (markSlot s k st f).head = s.head := by simp only [markSlot]; split <;> simp
@[simp] theorem markSlot_fuses (s : State) (k : Nat) (st : SlotState) (f : Info) : (markSlot s k st f).fuses = s.fuses := by simp only [markSlot]; split <;> simp
@[simp] theorem markSlot_net (s : State) (k : Nat) (st : SlotState) (f : Info) : (markSlot s k st f).net = s.net := by simp only [markSlot]; split <;> simp
@[simp] theorem markSlot_inbox (s : State) (k : Nat) (st : SlotState) (f : Info) : (markSlot s k st f).inbox = s.inbox := by simp only [markSlot]; split <;> simp
@[simp] theorem markSlot_waiting (s : State) (k : Nat) (st : SlotState) (f : Info) : (markSlot s k st f).waiting = s.waiting := by simp only [markSlot]; split <;> simp
@[simp] theorem markSlot_replays (s : State) (k : Nat) (st : SlotState) (f : Info) : (markSlot s k st f).replays = s.replays := by simp only [markSlot]; split <;> simp
@[simp] theorem markSlot_time (s : State) (k : Nat) (st : SlotState) (f : Info) : (markSlot s k st f).time = s.time := by simp only [markSlot]; split <;> simp
@[simp] theorem markSlot_free (s : State) (k : Nat) (st : SlotState) (f : Info) : (markSlot s k st f).free = s.free := by simp only [markSlot]; split <;> simp
@[simp] theorem markSlot_nextId (s : State) (k : Nat) (st : SlotState) (f : Info) : (markSlot s k st f).nextId = s.nextId := by simp only [markSlot]; split <;> simp
@[simp] theorem markSlot_core_cyc (s : State) (k : Nat) (st : SlotState) (f : Info) : (markSlot s k st f).core.cyc = s.core.cyc := by simp only [markSlot]; split <;> simp
@[simp] theorem markSlot_core_elapsed (s : State) (k : Nat) (st : SlotState) (f : Info) : (markSlot s k st f).core.elapsed = s.core.elapsed := by simp only [markSlot]; split <;> simp
@[simp] theorem markSlot_core_slot (s : State) (k : Nat) (st : SlotState) (f : Info) : (markSlot s k st f).core.slot = s.core.slot := by simp only [markSlot]; split <;> simp
@[simp] theorem markSlot_core_decided (s : State) (k : Nat) (st : SlotState) (f : Info) : (markSlot s k st f).core.decided = s.core.decided := by simp only [markSlot]; split <;> simp
@[simp] theorem markSlot_core_run (s : State) (k : Nat) (st : SlotState) (f : Info) : (markSlot s k st f).core.run = s.core.run := by simp only [markSlot]; split <;> simp
@[simp] theorem markSlot_core_mwin (s : State) (k : Nat) (st : SlotState) (f : Info) : (markSlot s k st f).core.mwin = s.core.mwin := by simp only [markSlot]; split <;> simp
@[simp] theorem markSlot_core_staging (s : State) (k : Nat) (st : SlotState) (f : Info) : (markSlot s k st f).core.staging = s.core.staging := by simp only [markSlot]; split <;> simp
@[simp] theorem markSlot_core_ch (s : State) (k : Nat) (st : SlotState) (f : Info) : (markSlot s k st f).core.ch = s.core.ch := by simp only [markSlot]; split <;> simp
@[simp] theorem markSlot_core_sys (s : State) (k : Nat) (st : SlotState) (f : Info) : (markSlot s k st f).core.sys = s.core.sys := by simp only [markSlot]; split <;> simp
@[simp] theorem markSlot_core_recov (s : State) (k : Nat) (st : SlotState) (f : Info) : (markSlot s k st f).core.recov = s.core.recov := by simp only [markSlot]; split <;> simp
@[simp] theorem markSlot_core_tables (s : State) (k : Nat) (st : SlotState) (f : Info) : (markSlot s k st f).core.tables = s.core.tables := by simp only [markSlot]; split <;> simp
@[simp] theorem markSlot_core_row (s : State) (k : Nat) (st : SlotState) (f : Info) : (markSlot s k st f).core.row = s.core.row := by simp only [markSlot]; split <;> simp
@[simp] theorem markSlot_core_mx (s : State) (k : Nat) (st : SlotState) (f : Info) : (markSlot s k st f).core.mx = s.core.mx := by simp only [markSlot]; split <;> simp
@[simp] theorem markSlot_core_aps (s : State) (k : Nat) (st : SlotState) (f : Info) : (markSlot s k st f).core.aps = s.core.aps := by simp only [markSlot]; split <;> simp
@[simp] theorem markSlot_core_ports (s : State) (k : Nat) (st : SlotState) (f : Info) : (markSlot s k st f).core.ports = s.core.ports := by simp only [markSlot]; split <;> simp
@[simp] theorem markSlot_core_agNext (s : State) (k : Nat) (st : SlotState) (f : Info) : (markSlot s k st f).core.agNext = s.core.agNext := by simp only [markSlot]; split <;> simp
@[simp] theorem markSlot_core_copies (s : State) (k : Nat) (st : SlotState) (f : Info) : (markSlot s k st f).core.copies = s.core.copies := by simp only [markSlot]; split <;> simp
@[simp] theorem markSlot_core_aggs (s : State) (k : Nat) (st : SlotState) (f : Info) : (markSlot s k st f).core.aggs = s.core.aggs := by simp only [markSlot]; split <;> simp
@[simp] theorem markSlot_core_exits (s : State) (k : Nat) (st : SlotState) (f : Info) : (markSlot s k st f).core.exits = s.core.exits := by simp only [markSlot]; split <;> simp

theorem markSlot_level (s : State) (k : Nat) (st : SlotState) (f : Info) (h : Bool) :
    (markSlot s k st f).core.level h = ((s.modBlk (fun b => { b with took := true, slots := match b.slots[k]? with
      | some sl => b.slots.set k { sl with st := st }
      | none => b.slots })).core.level h) := by
  simp only [markSlot]; split <;> cases h <;> rfl

@[simp] theorem markSlot_level_regs (s : State) (k : Nat) (st : SlotState) (f : Info) (h : Bool) : ((markSlot s k st f).core.level h).regs = (s.core.level h).regs := by rw [markSlot_level]; simp
@[simp] theorem markSlot_level_fpst (s : State) (k : Nat) (st : SlotState) (f : Info) (h : Bool) : ((markSlot s k st f).core.level h).fpst = (s.core.level h).fpst := by rw [markSlot_level]; simp
@[simp] theorem markSlot_level_seed (s : State) (k : Nat) (st : SlotState) (f : Info) (h : Bool) : ((markSlot s k st f).core.level h).seed = (s.core.level h).seed := by rw [markSlot_level]; simp
@[simp] theorem markSlot_level_link (s : State) (k : Nat) (st : SlotState) (f : Info) (h : Bool) : ((markSlot s k st f).core.level h).link = (s.core.level h).link := by rw [markSlot_level]; simp
@[simp] theorem markSlot_level_rstl (s : State) (k : Nat) (st : SlotState) (f : Info) (h : Bool) : ((markSlot s k st f).core.level h).rstl = (s.core.level h).rstl := by rw [markSlot_level]; simp
@[simp] theorem markSlot_level_wdog (s : State) (k : Nat) (st : SlotState) (f : Info) (h : Bool) : ((markSlot s k st f).core.level h).wdog = (s.core.level h).wdog := by rw [markSlot_level]; simp
@[simp] theorem markSlot_level_rr (s : State) (k : Nat) (st : SlotState) (f : Info) (h : Bool) : ((markSlot s k st f).core.level h).rr = (s.core.level h).rr := by rw [markSlot_level]; simp
@[simp] theorem markSlot_level_inv (s : State) (k : Nat) (st : SlotState) (f : Info) (h : Bool) : ((markSlot s k st f).core.level h).inv = (s.core.level h).inv := by rw [markSlot_level]; simp
@[simp] theorem markSlot_level_fetch (s : State) (k : Nat) (st : SlotState) (f : Info) (h : Bool) : ((markSlot s k st f).core.level h).fetch = (s.core.level h).fetch := by rw [markSlot_level]; simp

@[simp] theorem markSlot_lvl (s : State) (k : Nat) (st : SlotState) (f : Info) : (markSlot s k st f).lvl = s.lvl := by simp [State.lvl]
@[simp] theorem markSlot_inv? (s : State) (k : Nat) (st : SlotState) (f : Info) : (markSlot s k st f).inv? = s.inv? := by
  simp only [State.inv?, markSlot_core_run]; split <;> simp
@[simp] theorem markSlot_act (s : State) (k : Nat) (st : SlotState) (f : Info) : (markSlot s k st f).act = s.act := by simp [State.act]
@[simp] theorem markSlot_task (s : State) (k : Nat) (st : SlotState) (f : Info) : (markSlot s k st f).task = s.task := by simp [State.task]
@[simp] theorem markSlot_out? (s : State) (k : Nat) (st : SlotState) (f : Info) (a : Nat) (n : BitVec 3) : (markSlot s k st f).out? a n = s.out? a n := by
  simp [State.out?]
theorem markSlot_blk? {s : State} {b : Blk} (h : s.blk? = some b) (k : Nat) (st : SlotState) (f : Info) :
    (markSlot s k st f).blk? = some { b with took := true, slots := match b.slots[k]? with
      | some sl => b.slots.set k { sl with st := st }
      | none => b.slots } := by
  obtain ⟨hi, hr, hb⟩ := run_of_blk? h
  simp only [State.blk?, markSlot_core_run, hr]
  rw [markSlot_level]
  have := modBlk_blk? h (fun b => { b with took := true, slots := match b.slots[k]? with
      | some sl => b.slots.set k { sl with st := st }
      | none => b.slots })
  simpa [State.blk?, hr] using this
theorem markSlot_addr {s : State} {b : Blk} (h : s.blk? = some b) (k : Nat) (st : SlotState) (f : Info) : (markSlot s k st f).blkAddr = b.addr := by
  simp [State.blkAddr, markSlot_blk? h]

@[simp] theorem modBlk_cur_level_regs (s : State) (f : Blk → Blk) : (s.modBlk f).level.regs = s.level.regs := by simp [State.level]
@[simp] theorem modBlk_cur_level_fpst (s : State) (f : Blk → Blk) : (s.modBlk f).level.fpst = s.level.fpst := by simp [State.level]
@[simp] theorem modBlk_cur_level_seed (s : State) (f : Blk → Blk) : (s.modBlk f).level.seed = s.level.seed := by simp [State.level]
@[simp] theorem modBlk_cur_level_link (s : State) (f : Blk → Blk) : (s.modBlk f).level.link = s.level.link := by simp [State.level]
@[simp] theorem modBlk_cur_level_rstl (s : State) (f : Blk → Blk) : (s.modBlk f).level.rstl = s.level.rstl := by simp [State.level]
@[simp] theorem modBlk_cur_level_wdog (s : State) (f : Blk → Blk) : (s.modBlk f).level.wdog = s.level.wdog := by simp [State.level]
@[simp] theorem modBlk_cur_level_rr (s : State) (f : Blk → Blk) : (s.modBlk f).level.rr = s.level.rr := by simp [State.level]
@[simp] theorem modBlk_cur_level_inv (s : State) (f : Blk → Blk) : (s.modBlk f).level.inv = s.level.inv := by simp [State.level]
@[simp] theorem modBlk_cur_level_fetch (s : State) (f : Blk → Blk) : (s.modBlk f).level.fetch = s.level.fetch := by simp [State.level]
@[simp] theorem deliver_cur_level_regs (s : State) (k : Nat) (f : Info) (n : Nat) (t : Tok) (c : BitVec 32) (l : Option (BitVec 4)) : (deliver s k f n t c l).level.regs = s.level.regs := by simp [State.level]
@[simp] theorem deliver_cur_level_fpst (s : State) (k : Nat) (f : Info) (n : Nat) (t : Tok) (c : BitVec 32) (l : Option (BitVec 4)) : (deliver s k f n t c l).level.fpst = s.level.fpst := by simp [State.level]
@[simp] theorem deliver_cur_level_seed (s : State) (k : Nat) (f : Info) (n : Nat) (t : Tok) (c : BitVec 32) (l : Option (BitVec 4)) : (deliver s k f n t c l).level.seed = s.level.seed := by simp [State.level]
@[simp] theorem deliver_cur_level_link (s : State) (k : Nat) (f : Info) (n : Nat) (t : Tok) (c : BitVec 32) (l : Option (BitVec 4)) : (deliver s k f n t c l).level.link = s.level.link := by simp [State.level]
@[simp] theorem deliver_cur_level_rstl (s : State) (k : Nat) (f : Info) (n : Nat) (t : Tok) (c : BitVec 32) (l : Option (BitVec 4)) : (deliver s k f n t c l).level.rstl = s.level.rstl := by simp [State.level]
@[simp] theorem deliver_cur_level_wdog (s : State) (k : Nat) (f : Info) (n : Nat) (t : Tok) (c : BitVec 32) (l : Option (BitVec 4)) : (deliver s k f n t c l).level.wdog = s.level.wdog := by simp [State.level]
@[simp] theorem deliver_cur_level_rr (s : State) (k : Nat) (f : Info) (n : Nat) (t : Tok) (c : BitVec 32) (l : Option (BitVec 4)) : (deliver s k f n t c l).level.rr = s.level.rr := by simp [State.level]
@[simp] theorem deliver_cur_level_inv (s : State) (k : Nat) (f : Info) (n : Nat) (t : Tok) (c : BitVec 32) (l : Option (BitVec 4)) : (deliver s k f n t c l).level.inv = s.level.inv := by simp [State.level]
@[simp] theorem deliver_cur_level_fetch (s : State) (k : Nat) (f : Info) (n : Nat) (t : Tok) (c : BitVec 32) (l : Option (BitVec 4)) : (deliver s k f n t c l).level.fetch = s.level.fetch := by simp [State.level]
@[simp] theorem deliverTrap_cur_level_regs (s : State) (k n : Nat) (t : PTrap) : (deliverTrap s k n t).level.regs = s.level.regs := by simp [State.level]
@[simp] theorem deliverTrap_cur_level_fpst (s : State) (k n : Nat) (t : PTrap) : (deliverTrap s k n t).level.fpst = s.level.fpst := by simp [State.level]
@[simp] theorem deliverTrap_cur_level_seed (s : State) (k n : Nat) (t : PTrap) : (deliverTrap s k n t).level.seed = s.level.seed := by simp [State.level]
@[simp] theorem deliverTrap_cur_level_link (s : State) (k n : Nat) (t : PTrap) : (deliverTrap s k n t).level.link = s.level.link := by simp [State.level]
@[simp] theorem deliverTrap_cur_level_rstl (s : State) (k n : Nat) (t : PTrap) : (deliverTrap s k n t).level.rstl = s.level.rstl := by simp [State.level]
@[simp] theorem deliverTrap_cur_level_wdog (s : State) (k n : Nat) (t : PTrap) : (deliverTrap s k n t).level.wdog = s.level.wdog := by simp [State.level]
@[simp] theorem deliverTrap_cur_level_rr (s : State) (k n : Nat) (t : PTrap) : (deliverTrap s k n t).level.rr = s.level.rr := by simp [State.level]
@[simp] theorem deliverTrap_cur_level_inv (s : State) (k n : Nat) (t : PTrap) : (deliverTrap s k n t).level.inv = s.level.inv := by simp [State.level]
@[simp] theorem deliverTrap_cur_level_fetch (s : State) (k n : Nat) (t : PTrap) : (deliverTrap s k n t).level.fetch = s.level.fetch := by simp [State.level]
@[simp] theorem addAct_cur_level_regs (s : State) (k r : Nat) (a : ActKind) : (addAct s k r a).level.regs = s.level.regs := by simp [State.level]
@[simp] theorem addAct_cur_level_fpst (s : State) (k r : Nat) (a : ActKind) : (addAct s k r a).level.fpst = s.level.fpst := by simp [State.level]
@[simp] theorem addAct_cur_level_seed (s : State) (k r : Nat) (a : ActKind) : (addAct s k r a).level.seed = s.level.seed := by simp [State.level]
@[simp] theorem addAct_cur_level_link (s : State) (k r : Nat) (a : ActKind) : (addAct s k r a).level.link = s.level.link := by simp [State.level]
@[simp] theorem addAct_cur_level_rstl (s : State) (k r : Nat) (a : ActKind) : (addAct s k r a).level.rstl = s.level.rstl := by simp [State.level]
@[simp] theorem addAct_cur_level_wdog (s : State) (k r : Nat) (a : ActKind) : (addAct s k r a).level.wdog = s.level.wdog := by simp [State.level]
@[simp] theorem addAct_cur_level_rr (s : State) (k r : Nat) (a : ActKind) : (addAct s k r a).level.rr = s.level.rr := by simp [State.level]
@[simp] theorem addAct_cur_level_inv (s : State) (k r : Nat) (a : ActKind) : (addAct s k r a).level.inv = s.level.inv := by simp [State.level]
@[simp] theorem addAct_cur_level_fetch (s : State) (k r : Nat) (a : ActKind) : (addAct s k r a).level.fetch = s.level.fetch := by simp [State.level]
@[simp] theorem orFpst_cur_level_regs (s : State) (b : BitVec 6) : (orFpst s b).level.regs = s.level.regs := by simp [State.level]
@[simp] theorem orFpst_cur_level_fpst (s : State) (b : BitVec 6) : (orFpst s b).level.fpst = s.level.fpst := by simp [State.level]
@[simp] theorem orFpst_cur_level_seed (s : State) (b : BitVec 6) : (orFpst s b).level.seed = s.level.seed := by simp [State.level]
@[simp] theorem orFpst_cur_level_link (s : State) (b : BitVec 6) : (orFpst s b).level.link = s.level.link := by simp [State.level]
@[simp] theorem orFpst_cur_level_rstl (s : State) (b : BitVec 6) : (orFpst s b).level.rstl = s.level.rstl := by simp [State.level]
@[simp] theorem orFpst_cur_level_wdog (s : State) (b : BitVec 6) : (orFpst s b).level.wdog = s.level.wdog := by simp [State.level]
@[simp] theorem orFpst_cur_level_rr (s : State) (b : BitVec 6) : (orFpst s b).level.rr = s.level.rr := by simp [State.level]
@[simp] theorem orFpst_cur_level_inv (s : State) (b : BitVec 6) : (orFpst s b).level.inv = s.level.inv := by simp [State.level]
@[simp] theorem orFpst_cur_level_fetch (s : State) (b : BitVec 6) : (orFpst s b).level.fetch = s.level.fetch := by simp [State.level]
@[simp] theorem addOwed_cur_level_regs (s : State) (o : Owed) : (addOwed s o).level.regs = s.level.regs := by simp [State.level]
@[simp] theorem addOwed_cur_level_fpst (s : State) (o : Owed) : (addOwed s o).level.fpst = s.level.fpst := by simp [State.level]
@[simp] theorem addOwed_cur_level_seed (s : State) (o : Owed) : (addOwed s o).level.seed = s.level.seed := by simp [State.level]
@[simp] theorem addOwed_cur_level_link (s : State) (o : Owed) : (addOwed s o).level.link = s.level.link := by simp [State.level]
@[simp] theorem addOwed_cur_level_rstl (s : State) (o : Owed) : (addOwed s o).level.rstl = s.level.rstl := by simp [State.level]
@[simp] theorem addOwed_cur_level_wdog (s : State) (o : Owed) : (addOwed s o).level.wdog = s.level.wdog := by simp [State.level]
@[simp] theorem addOwed_cur_level_rr (s : State) (o : Owed) : (addOwed s o).level.rr = s.level.rr := by simp [State.level]
@[simp] theorem addOwed_cur_level_inv (s : State) (o : Owed) : (addOwed s o).level.inv = s.level.inv := by simp [State.level]
@[simp] theorem addOwed_cur_level_fetch (s : State) (o : Owed) : (addOwed s o).level.fetch = s.level.fetch := by simp [State.level]
@[simp] theorem addWait_cur_level_regs (s : State) (x : Args) (w : WaitFor) : (addWait s x w).level.regs = s.level.regs := by simp [State.level]
@[simp] theorem addWait_cur_level_fpst (s : State) (x : Args) (w : WaitFor) : (addWait s x w).level.fpst = s.level.fpst := by simp [State.level]
@[simp] theorem addWait_cur_level_seed (s : State) (x : Args) (w : WaitFor) : (addWait s x w).level.seed = s.level.seed := by simp [State.level]
@[simp] theorem addWait_cur_level_link (s : State) (x : Args) (w : WaitFor) : (addWait s x w).level.link = s.level.link := by simp [State.level]
@[simp] theorem addWait_cur_level_rstl (s : State) (x : Args) (w : WaitFor) : (addWait s x w).level.rstl = s.level.rstl := by simp [State.level]
@[simp] theorem addWait_cur_level_wdog (s : State) (x : Args) (w : WaitFor) : (addWait s x w).level.wdog = s.level.wdog := by simp [State.level]
@[simp] theorem addWait_cur_level_rr (s : State) (x : Args) (w : WaitFor) : (addWait s x w).level.rr = s.level.rr := by simp [State.level]
@[simp] theorem addWait_cur_level_inv (s : State) (x : Args) (w : WaitFor) : (addWait s x w).level.inv = s.level.inv := by simp [State.level]
@[simp] theorem addWait_cur_level_fetch (s : State) (x : Args) (w : WaitFor) : (addWait s x w).level.fetch = s.level.fetch := by simp [State.level]
@[simp] theorem bufferOp_cur_level_regs (s : State) (f : Info) (a : Args) (l : BitVec 4) (o : SOp) : (bufferOp s f a l o).level.regs = s.level.regs := by simp [State.level]
@[simp] theorem bufferOp_cur_level_fpst (s : State) (f : Info) (a : Args) (l : BitVec 4) (o : SOp) : (bufferOp s f a l o).level.fpst = s.level.fpst := by simp [State.level]
@[simp] theorem bufferOp_cur_level_seed (s : State) (f : Info) (a : Args) (l : BitVec 4) (o : SOp) : (bufferOp s f a l o).level.seed = s.level.seed := by simp [State.level]
@[simp] theorem bufferOp_cur_level_link (s : State) (f : Info) (a : Args) (l : BitVec 4) (o : SOp) : (bufferOp s f a l o).level.link = s.level.link := by simp [State.level]
@[simp] theorem bufferOp_cur_level_rstl (s : State) (f : Info) (a : Args) (l : BitVec 4) (o : SOp) : (bufferOp s f a l o).level.rstl = s.level.rstl := by simp [State.level]
@[simp] theorem bufferOp_cur_level_wdog (s : State) (f : Info) (a : Args) (l : BitVec 4) (o : SOp) : (bufferOp s f a l o).level.wdog = s.level.wdog := by simp [State.level]
@[simp] theorem bufferOp_cur_level_rr (s : State) (f : Info) (a : Args) (l : BitVec 4) (o : SOp) : (bufferOp s f a l o).level.rr = s.level.rr := by simp [State.level]
@[simp] theorem bufferOp_cur_level_inv (s : State) (f : Info) (a : Args) (l : BitVec 4) (o : SOp) : (bufferOp s f a l o).level.inv = s.level.inv := by simp [State.level]
@[simp] theorem bufferOp_cur_level_fetch (s : State) (f : Info) (a : Args) (l : BitVec 4) (o : SOp) : (bufferOp s f a l o).level.fetch = s.level.fetch := by simp [State.level]
@[simp] theorem markSlot_cur_level_regs (s : State) (k : Nat) (st : SlotState) (f : Info) : (markSlot s k st f).level.regs = s.level.regs := by simp [State.level]
@[simp] theorem markSlot_cur_level_fpst (s : State) (k : Nat) (st : SlotState) (f : Info) : (markSlot s k st f).level.fpst = s.level.fpst := by simp [State.level]
@[simp] theorem markSlot_cur_level_seed (s : State) (k : Nat) (st : SlotState) (f : Info) : (markSlot s k st f).level.seed = s.level.seed := by simp [State.level]
@[simp] theorem markSlot_cur_level_link (s : State) (k : Nat) (st : SlotState) (f : Info) : (markSlot s k st f).level.link = s.level.link := by simp [State.level]
@[simp] theorem markSlot_cur_level_rstl (s : State) (k : Nat) (st : SlotState) (f : Info) : (markSlot s k st f).level.rstl = s.level.rstl := by simp [State.level]
@[simp] theorem markSlot_cur_level_wdog (s : State) (k : Nat) (st : SlotState) (f : Info) : (markSlot s k st f).level.wdog = s.level.wdog := by simp [State.level]
@[simp] theorem markSlot_cur_level_rr (s : State) (k : Nat) (st : SlotState) (f : Info) : (markSlot s k st f).level.rr = s.level.rr := by simp [State.level]
@[simp] theorem markSlot_cur_level_inv (s : State) (k : Nat) (st : SlotState) (f : Info) : (markSlot s k st f).level.inv = s.level.inv := by simp [State.level]
@[simp] theorem markSlot_cur_level_fetch (s : State) (k : Nat) (st : SlotState) (f : Info) : (markSlot s k st f).level.fetch = s.level.fetch := by simp [State.level]

end Sys2Proof.Laws
end

