-- ==== Sys2Proof/Tests/Slice0.lean ====
section
/-!
SUPPORT. Tests, each of one step or less: ill-formed terms that the checks refuse, words written out from the encodings of chapter 2, results worked out
by hand from the rules, and for each statement states and operands that meet its hypotheses together.
-/

namespace Sys2Proof.Tests

open Sys2Proof Sys2Proof.Machine Sys2Proof.Safety

-- Well-formedness: a term that each check of R48 refuses

theorem test_illformed_predicate : [Instr.bro 1 0 0, .add 1 0 0, .ldD 1 0 0 0, .rld 1 0 0 0, .mma 1 0 0 0 0, .apdef 1 0 0 0, .eres 1 0 0].all
    (fun i => !i.wellFormed) = true := by decide
theorem test_illformed_rounding : [Instr.fadd 0 5 0 0, .cvtfiW 0 7 0 0, .ffma 6 0 0].all (fun i => !i.wellFormed) = true := by decide
theorem test_illformed_special : [Instr.mfs 0 0x13 0, .mts 0 0x08, .mts 0 0x0C].all (fun i => !i.wellFormed) = true := by decide
theorem test_wellformed_edges : [Instr.bro 3 7 0, .fadd 0 4 0 0, .mfs 0 0x12 0, .mts 0 0x0B, .movi 0 0].all (fun i => i.wellFormed) = true := by decide
theorem test_illformed_width : [Instr.shli 0 1 32 0, .rori 0 1 63 0].all (fun i => !i.wellFormed) = true ∧
    Instr.wellFormed (.shli 0 1 31 0) = true ∧ Instr.wellFormed (.shli 0 0 63 0) = true := by decide
theorem test_illformed_bitfield : Instr.wellFormed (.extb 0 0 1 63 0) = false ∧ Instr.wellFormed (.extb 0 0 0 63 0) = true := by decide
theorem test_illformed_conversion : [Instr.cvtd 0 0 0 0, .cvtd 0 0xC 0 0, .cvtq8 0 0 3 0 0 0, .cvtq8 0 1 2 0 0 0, .cvtq8 0 0 1 2 0 0, .cvtq8 0 0 0 4 0 0,
    .cvtq6 0 0 0 2 0 0, .cvtq4 0 0 1 0 0 0, .bscale 0 2 0 0, .qblk 0 3 0 3 0 0, .qblk 0 5 1 0 0 0, .dqblk 0 0xB 0 0, .srseed 0 2 0,
    .srseed 0 0 1].all (fun i => !i.wellFormed) = true := by decide
theorem test_illformed_store : [Instr.ldD 2 1 0 0, .stW 3 1 0 0 0, .atom 0 0 0 0xC 0 0, .atomn 0 0 0 9 1 0, .fence 0 7 0, .send 0 1 0 7 0 0 0,
    .send 0 0 0 1 0 0 0, .sendr 0 0 0 7 0 0 0].all (fun i => !i.wellFormed) = true := by decide
theorem test_illformed_unit : [Instr.rdrain 0 1 1 0 0, .mma 0 0xC 0xC 0 0, .mma 0 0 1 0 0, .mmas 0 3 5 0 0, .mdrain 0 0xB 0 0 0 0, .mdrain 0 0 0 3 0 0,
    .sbar 0 0 0 0].all (fun i => !i.wellFormed) = true := by decide
theorem test_wellformed_unit : [Instr.mma 0 1 2 0 0, .mma 0 3 0xB 0 0, .qblk 0 3 1 0 0 0, .cvtq8 0 0 1 1 0 0, .srseed 0 1 63].all
    (fun i => i.wellFormed) = true := by decide

-- Decoding: words written out bit by bit (R29, R33 to R44)

theorem test_decode_unassigned : decode 0x00000000 = .error .unassignedOpcode ∧ decode 0xFF000000 = .error .unassignedOpcode := by decide
theorem test_decode_branch : decode 0x04080000 = .ok (.callr 0 1) ∧ decode 0x02000001 = .error .reservedField := by decide
theorem test_decode_alu : decode 0x14063F85 = .ok (.shl 0 0x7F 5) ∧ decode 0x15073F85 = .ok (.rorW 0 0x7F 5) ∧
    decode 0x1509BF85 = .error .unassignedFn := by decide
theorem test_decode_test : decode 0x2020FF85 = .ok (.tle 0 1 0x7F 5) ∧ decode 0x213FFF85 = .ok (.teqi 0 0x7FFF 5) := by decide
theorem test_decode_fields : decode 0x2732BF85 = .ok (.lop3 0xCA 0x7F 5) ∧ decode 0x2A0FE005 = .ok (.extb 0 1 0x3F 0 5) := by decide
theorem test_decode_float : decode 0x3001BF85 = .ok (.fmax 0 0x7F 5) ∧ decode 0x30093F85 = .ok (.fsqrt 0 1 0x7F 5) ∧
    decode 0x300A7F85 = .error .reservedField := by decide
theorem test_decode_convert : decode 0x3202BF85 = .ok (.cvtffFH 0 0x7F 5) ∧ decode 0x3204FF85 = .ok (.cvtd 0 3 0x7F 5) ∧
    decode 0x34047F85 = .ok (.cvtq6 0 0 2 1 0x7F 5) := by decide
theorem test_decode_memory : decode 0x4401FF85 = .ok (.ldBSx 0 0 0x3FF 5) ∧ decode 0x4A3E00FF = .ok (.stD 0 1 15 1 0x7F) ∧
    decode 0x56262F7F = .ok (.send 0 1 3 5 1 6 0x7F) := by decide
theorem test_decode_barrier : decode 0x5E2FFF85 = .ok (.barx 0 63 0x7F 5) ∧ decode 0x5E303F85 = .error .unassignedFn := by decide
theorem test_decode_units : decode 0x6600BF85 = .ok (.rgo 0 2 0x7F 5) ∧ decode 0x6A0D3F85 = .ok (.mma 0 3 4 0x7F 5) ∧
    decode 0x6C10FF85 = .ok (.lutsel 0 3 0x7F 5) ∧ decode 0x71007F85 = .ok (.strmIn 0 1 0x7F 5) := by decide
theorem test_decode_system : decode 0x78003FFF = .ok (.trap 0) ∧ decode 0x78023F85 = .ok (.ecnt 0 0x7F 5) ∧
    decode 0x7802FF85 = .ok (.xflush 0 0x7F 5) ∧ decode 0x78033F85 = .error .unassignedFn := by decide

-- States in which a word stands ready

/-- State s with instruction i next to fire, its operands l, r and t. -/
def withOps (s : State) (i : Instr) (l r t : Tok) : State :=
  let u := s.withFetchWord 32 ((encode i).getD 0).toNat
  let full (x : Tok) : Option Opd := some ⟨x, 0⟩
  u.modBlk (fun b => { b with slots := b.slots.modify 0 (fun y => { y with l := full l, r := full r, t := full t }) })

/-- A value without poison. -/
def ok (n : Nat) : Tok := .val (BitVec.ofNat 64 n) false
/-- A poisoned value. -/
def bad : Tok := .val 0 true

/-- Instruction i fires normally in s and f holds of its operands. -/
def fires (i : Instr) (s : State) (f : State → Args → Bool) : Bool :=
  match firing i s with
  | some (_, a) => f s a
  | none => false

/-- Each of the instructions fires in s with the operands given, and f holds. -/
def wit (s : State) (is : List Instr) (l r t : Tok) (f : State → Args → Bool) : Bool := is.all (fun i => fires i (withOps s i l r t) f)

/-- What an instruction delivers on given operands, as the first result on its way. -/
def gives (i : Instr) (l r t : Nat) : Option Tok :=
  match exec i (withOps State.reset i (ok l) (ok r) (ok t)) with
  | .next u => (u.blk?.bind (fun b => b.fly.head?)).map (fun d => d.tok)
  | .fault _ => none
  | .refused _ => none


-- Results worked out by hand from the rules (R87 to R118)

theorem test_add_wraps : gives (.add 0 0 0) 0xFFFFFFFFFFFFFFFF 1 0 = some (ok 0) := by decide
theorem test_subW_zero_extends : gives (.subW 0 0 0) 0 1 0 = some (ok 0xFFFFFFFF) := by decide
theorem test_mulhs_signed : gives (.mulhs 0 0 0) 0xFFFFFFFFFFFFFFFF 2 0 = some (ok 0xFFFFFFFFFFFFFFFF) := by decide
theorem test_mulhu_unsigned : gives (.mulhu 0 0 0) 0xFFFFFFFFFFFFFFFF 2 0 = some (ok 1) := by decide
theorem test_divs_by_zero : gives (.divs 0 0 0) 5 0 0 = some (ok 0xFFFFFFFFFFFFFFFF) := by decide
theorem test_divs_overflow : gives (.divs 0 0 0) 0x8000000000000000 0xFFFFFFFFFFFFFFFF 0 = some (ok 0x8000000000000000) := by decide
theorem test_rems_sign : gives (.rems 0 0 0) 0xFFFFFFFFFFFFFFF9 3 0 = some (ok 0xFFFFFFFFFFFFFFFF) := by decide
theorem test_remsW_by_zero : gives (.remsW 0 0 0) 0x1FFFFFFF9 0 0 = some (ok 0xFFFFFFF9) := by decide
theorem test_min_signed : gives (.min 0 0 0) 0x8000000000000000 1 0 = some (ok 0x8000000000000000) := by decide
theorem test_andn : gives (.andn 0 0 0) 0xFF 0x0F 0 = some (ok 0xF0) := by decide
theorem test_shl_full : gives (.shl 0 0 0) 1 64 0 = some (ok 0) := by decide
theorem test_sarW_full : gives (.sarW 0 0 0) 0x80000000 40 0 = some (ok 0xFFFFFFFF) := by decide
theorem test_rolW : gives (.rolW 0 0 0) 0x80000001 33 0 = some (ok 3) := by decide
theorem test_clz_zero : gives (.clz 0 0 0) 0 0 0 = some (ok 64) := by decide
theorem test_ctzW_zero : gives (.ctzW 0 0 0) 0xFFFFFFFF00000000 0 0 = some (ok 32) := by decide
theorem test_brev : gives (.brev 0 0 0) 1 0 0 = some (ok 0x8000000000000000) := by decide +kernel
theorem test_bswapW : gives (.bswapW 0 0 0) 0x01020304 0 0 = some (ok 0x04030201) := by decide
theorem test_sextB : gives (.sextB 0 0 0) 0x180 0 0 = some (ok 0xFFFFFFFFFFFFFF80) := by decide
theorem test_addi_negative : gives (.addi 0 0x7FFF 0) 0 0 0 = some (ok 0xFFFFFFFFFFFFFFFF) := by decide
theorem test_tlt_signed : gives (.tlt 0 0 0 0) 0xFFFFFFFFFFFFFFFF 0 0 = some (ok 1) := by decide
theorem test_tltu_unsigned : gives (.tltu 0 0 0 0) 0xFFFFFFFFFFFFFFFF 0 0 = some (ok 0) := by decide
theorem test_teq_width : gives (.teq 0 1 0 0) 0x100000005 5 0 = some (ok 1) := by decide
theorem test_lop3_majority : gives (.lop3 0xE8 0 0) 0xC 0xA 0x6 = some (ok 0xE) := by decide
theorem test_fshl : gives (.fshl 0 0 0) 1 0x8000000000000000 1 = some (ok 3) := by decide
theorem test_extb_signed : gives (.extb 0 1 3 4 0) 0x80 0 0 = some (ok 0xFFFFFFFFFFFFFFF8) := by decide
theorem test_insb : gives (.insb 0 0) 0xFFFF 0 0x0704 = some (ok 0xF00F) := by decide
theorem test_sel_zero : gives (.sel 0 0) 1 2 0 = some (ok 2) := by decide
theorem test_appc : gives (.appc 0 0x3FFF 0) 1 0 0 = some (ok 0x7FFF) := by decide
theorem test_fadd_one_one : gives (.fadd 0 0 0 0) 0x3F800000 0x3F800000 0 = some (ok 0x40000000) := by decide
theorem test_fadd_tie_to_even : gives (.fadd 0 0 0 0) 0x4B800000 0x3F800000 0 = some (ok 0x4B800000) := by decide
theorem test_fadd_upward : gives (.fadd 0 3 0 0) 0x4B800000 0x3F800000 0 = some (ok 0x4B800001) := by decide
theorem test_fdiv_by_zero : gives (.fdiv 0 0 0 0) 0xBF800000 0 0 = some (ok 0xFF800000) := by decide
theorem test_fsqrt_four : gives (.fsqrt 0 0 0 0) 0x40800000 0 0 = some (ok 0x40000000) := by decide +kernel
theorem test_fmin_zeros : gives (.fmin 0 0 0) 0 0x80000000 0 = some (ok 0x80000000) := by decide
theorem test_fmax_one_nan : gives (.fmax 0 0 0) 0x7FC00001 0x3F800000 0 = some (ok 0x3F800000) := by decide
theorem test_fteq_zeros : gives (.fteq 0 0 0) 0 0x80000000 0 = some (ok 1) := by decide
theorem test_fclass_subnormal : gives (.fclass 0 0 0) 0x80000001 0 0 = some (ok 4) := by decide
theorem test_cvtfiW_saturates : gives (.cvtfiW 0 1 0 0) 0x4F000000 0 0 = some (ok 0x7FFFFFFF) := by decide
theorem test_cvtifW_minus_one : gives (.cvtifW 0 0 0 0) 0xFFFFFFFF 0 0 = some (ok 0xBF800000) := by decide
theorem test_cvtffH_one : gives (.cvtffH 0 0 0 0) 0x3F800000 0 0 = some (ok 0x3C00) := by decide
theorem test_cvtd_e4m3_one : gives (.cvtd 0 3 0 0) 0x38 0 0 = some (ok 0x3F800000) := by decide

-- States in which the hypotheses of the statements on words hold

theorem test_meets_fires_0 : wit State.reset [Instr.bro 0 0 0, .brr 0 0, .callo 0 0 0, .callr 0 0, .ret 0 0, .hend 0 0, .trapi 0 0, .brk 0 0, .nop 0,
    .rstl 0 0, .mov 0 0 0, .movi 0 0, .genc 0 0 0, .read 0 0 0 0, .write 0 0, .mfs 0 0 0, .mts 0 0, .null 0 0 0, .sel 0 0, .add 0 0 0, .sub 0 0 0,
    .mul 0 0 0, .mulhs 0 0 0, .mulhu 0 0 0] (ok 0) (ok 0) (ok 0) (fun _ _ => true) = true := by decide
theorem test_meets_fires_1 : wit State.reset [Instr.divs 0 0 0, .divu 0 0 0, .rems 0 0 0, .remu 0 0 0, .min 0 0 0, .max 0 0 0, .minu 0 0 0,
    .maxu 0 0 0, .and 0 0 0, .or 0 0 0, .xor 0 0 0, .andn 0 0 0, .orn 0 0 0, .xnor 0 0 0, .shl 0 0 0, .shr 0 0 0, .sar 0 0 0, .rol 0 0 0, .ror 0 0 0,
    .abs 0 0 0, .clz 0 0 0, .ctz 0 0 0, .popc 0 0 0, .brev 0 0 0] (ok 0) (ok 0) (ok 0) (fun _ _ => true) = true := by decide
theorem test_meets_fires_2 : wit State.reset [Instr.bswap 0 0 0, .sextB 0 0 0, .sextH 0 0 0, .sextW 0 0 0, .zextB 0 0 0, .zextH 0 0 0, .zextW 0 0 0,
    .addW 0 0 0, .subW 0 0 0, .mulW 0 0 0, .mulhsW 0 0 0, .mulhuW 0 0 0, .divsW 0 0 0, .divuW 0 0 0, .remsW 0 0 0, .remuW 0 0 0, .minW 0 0 0,
    .maxW 0 0 0, .minuW 0 0 0, .maxuW 0 0 0, .andW 0 0 0, .orW 0 0 0, .xorW 0 0 0,
    .andnW 0 0 0] (ok 0) (ok 0) (ok 0) (fun _ _ => true) = true := by decide
theorem test_meets_fires_3 : wit State.reset [Instr.ornW 0 0 0, .xnorW 0 0 0, .shlW 0 0 0, .shrW 0 0 0, .sarW 0 0 0, .rolW 0 0 0, .rorW 0 0 0,
    .absW 0 0 0, .clzW 0 0 0, .ctzW 0 0 0, .popcW 0 0 0, .brevW 0 0 0, .bswapW 0 0 0, .addi 0 0 0, .addiW 0 0 0, .andi 0 0 0, .ori 0 0 0,
    .xori 0 0 0, .shli 0 0 0 0, .shri 0 0 0 0, .sari 0 0 0 0, .roli 0 0 0 0, .rori 0 0 0 0,
    .teq 0 0 0 0] (ok 0) (ok 0) (ok 0) (fun _ _ => true) = true := by decide
theorem test_meets_fires_4 : wit State.reset [Instr.tne 0 0 0 0, .tlt 0 0 0 0, .tle 0 0 0 0, .tltu 0 0 0 0, .tleu 0 0 0 0, .teqi 0 0 0, .tnei 0 0 0,
    .tlti 0 0 0, .tlei 0 0 0, .tltui 0 0 0, .tleui 0 0 0, .lop3 0 0 0, .fshl 0 0 0, .fshr 0 0 0, .extb 0 0 0 0 0, .insb 0 0, .appc 0 0 0,
    .fadd 0 0 0 0, .fsub 0 0 0 0, .fmul 0 0 0 0, .fdiv 0 0 0 0, .fsqrt 0 0 0 0, .fmin 0 0 0,
    .fmax 0 0 0] (ok 0) (ok 0) (ok 0) (fun _ _ => true) = true := by decide
theorem test_meets_fires_5 : wit State.reset [Instr.fabs 0 0 0, .fneg 0 0 0, .fteq 0 0 0, .ftlt 0 0 0, .ftle 0 0 0, .ftun 0 0 0, .fclass 0 0 0,
    .frnd 0 0 0 0, .fexp2 0 0 0 0, .flog2 0 0 0 0, .ffma 0 0 0, .cvtfiW 0 0 0 0, .cvtfiWU 0 0 0 0, .cvtfiD 0 0 0 0, .cvtfiDU 0 0 0 0,
    .cvtifW 0 0 0 0, .cvtifWU 0 0 0 0, .cvtifD 0 0 0 0, .cvtifDU 0 0 0 0, .cvtffH 0 0 0 0, .cvtffBf 0 0 0 0, .cvtffFH 0 0 0, .cvtffFBf 0 0 0,
    .cvtd 0 0 0 0] (ok 0) (ok 0) (ok 0) (fun _ _ => true) = true := by decide
theorem test_meets_fires_6 : wit State.reset [Instr.cvtq8 0 0 0 0 0 0, .cvtq6 0 0 0 0 0 0, .cvtq4 0 0 0 0 0 0, .srseed 0 0 0, .bscale 0 0 0 0,
    .qblk 0 0 0 0 0 0, .dqblk 0 0 0 0, .lutld 0 0 0 0, .lutenc 0 0 0 0, .ldB 0 0 0 0, .ldH 0 0 0 0, .ldW 0 0 0 0, .ldD 0 0 0 0, .ldBSx 0 0 0 0,
    .ldHSx 0 0 0 0, .ldWSx 0 0 0 0, .stB 0 0 0 0 0, .stH 0 0 0 0 0, .stW 0 0 0 0 0, .stD 0 0 0 0 0, .ldo 0 0 0 0, .sto 0 0 0 0 0, .clro 0 0 0 0 0,
    .scld 0 0 0 0] (ok 0) (ok 0) (ok 0) (fun _ _ => true) = true := by decide
theorem test_meets_fires_7 : wit State.reset [Instr.scst 0 0 0 0 0, .atom 0 0 0 0 0 0, .atomn 0 0 0 0 0 0, .cas 0 0 0, .join2 0 0 0, .join3 0 0,
    .fence 0 0 0, .send 0 0 0 0 0 0 0, .sendr 0 0 0 0 0 0 0, .sendm 0 0 0 0 0 0, .eos 0 0 0 0 0, .taga 0 0, .tagr 0, .tblk 0 0, .tunb 0 0,
    .bari 0 0 0 0, .bara 0 0 0 0, .barx 0 0 0 0, .mwin 0 0, .mwend 0, .seal 0, .sealw 0 0, .irst 0 0 0 0 0,
    .rld 0 0 0 0] (ok 0) (ok 0) (ok 0) (fun _ _ => true) = true := by decide
theorem test_meets_fires_8 : wit State.reset [Instr.rgo 0 0 0 0, .rstop 0 0 0 0, .rdrain 0 0 0 0 0, .rstat 0 0 0 0 0, .mma 0 0 0 0 0,
    .mmas 0 0 0 0 0, .mclr 0 0 0 0, .mattr 0 0 0 0 0, .mfade 0 0 0 0, .mstat 0 0 0, .lutsel 0 0 0 0, .mlda 0 0 0 0, .mdrain 0 0 0 0 0 0,
    .apdef 0 0 0 0, .strmIn 0 0 0 0, .strmOut 0 0 0 0, .sbar 0 0 0 0, .bcopy 0 0 0 0 0, .bcopyh 0 0 0 0 0, .agcfg 0 0 0 0 0, .aggo 0 0 0 0 0,
    .coll 0 0 0 0, .trap 0, .eres 0 0 0] (ok 0) (ok 0) (ok 0) (fun _ _ => true) = true := by decide
theorem test_meets_fires_9 : wit State.reset [Instr.ekill 0 0 0, .mfsp 0 0 0, .mtsp 0, .halt 0, .dbg 0, .wdog 0, .ecnt 0 0 0, .telm 0, .cswp 0,
    .xflush 0 0 0] (ok 0) (ok 0) (ok 0) (fun _ _ => true) = true := by decide
theorem test_meets_immediates : wit State.reset [.shli 0 1 31 0, .shri 0 0 63 0, .sari 0 1 31 0, .roli 0 0 63 0, .rori 0 1 31 0, .extb 0 0 0 63 0,
    .extb 0 1 63 0 0] (ok 5) (ok 0) (ok 0) (fun _ _ => true) = true := by decide
theorem test_meets_third : wit State.reset [.lop3 0 0 0, .fshl 1 0 0, .fshr 0 0 0, .insb 0 0, .sel 0 0, .join3 0 0, .ffma 4 0 0] (ok 1) (ok 2) (ok 3)
    (fun _ _ => true) = true := by decide
theorem test_meets_predicate : wit State.reset [.add 3 0 0, .ldD 3 0 0 0, .hend 3 1, .movi 0 0] (ok 1) (ok 2) (ok 1) (fun _ _ => true) = true ∧
    wit State.reset [.add 2 0 0, .stD 2 0 15 0 0x7F, .eres 2 0 0] (ok 1) (ok 2) (ok 0) (fun _ _ => true) = true := by decide

theorem test_meets_quantise : wit State.reset [.qblk 0 3 2 0 0 0, .dqblk 0 0xA 0 0] (ok 0x7FB00) (ok 0x5FF00) (ok 0)
      (fun _ x => (blkTrap x (addr32 x.l) (addr32 x.r) 33).isNone) = true ∧
    wit State.reset [.lutld 0 3 0 0] (ok 0x7F800) (ok 0) (ok 0) (fun _ x => (localTrap (addr32 x.l) x.lp 16 1024 0x7FBFF).isNone) = true := by decide

/-- Operand patterns of the special cases: infinities, NaNs, zeros and values below zero (R99 to R109). -/
theorem test_meets_float_cases : wit State.reset [.fadd 0 0 0 0, .fdiv 0 4 0 0] (ok 0x7F800000) (ok 0xFF800000) (ok 0)
      (fun _ x => infPat (x.l.setWidth 32) && infPat (x.r.setWidth 32) && x.l != x.r) = true ∧
    wit State.reset [.fmul 0 0 0 0, .ffma 0 0 0] (ok 0xFFFFFFFF80000000) (ok 0x7F800000) (ok 0x7F800001)
      (fun _ x => zeroPat (x.l.setWidth 32) && infPat (x.r.setWidth 32)) = true ∧
    wit State.reset [.fsub 0 0 0 0, .fsqrt 0 0 0 0, .cvtfiW 0 0 0 0, .cvtffH 0 0 0 0, .bscale 0 3 0 0, .cvtq6 0 0 0 0 0 0] (ok 0x7F800001) (ok 5) (ok 0)
      (fun _ x => nanPat (x.l.setWidth 32) && sigPat (x.l.setWidth 32)) = true ∧
    wit State.reset [.fsqrt 0 0 0 0, .flog2 0 0 0 0] (ok 0xFF800000) (ok 0) (ok 0) (fun _ x => belowPat (x.l.setWidth 32)) = true ∧
    wit State.reset [.fdiv 0 0 0 0] (ok 0x80000001) (ok 0x80000000) (ok 0)
      (fun _ x => zeroPat (x.r.setWidth 32) && !zeroPat (x.l.setWidth 32) && !infPat (x.l.setWidth 32) && !nanPat (x.l.setWidth 32)) = true ∧
    wit State.reset [.ffma 0 0 0] (ok 0) (ok 0) (ok 0xFFFFFFFF) (fun _ x => nanPat (x.t.setWidth 32) && !infPat (x.l.setWidth 32)) = true := by decide
theorem test_meets_convert_cases : wit State.reset [.cvtffFH 0 0 0] (ok 0xFC01) (ok 0) (ok 0) (fun _ x => decide (0x7C00 < x.l.toNat % 2 ^ 15)) = true ∧
    wit State.reset [.cvtffFBf 0 0 0] (ok 0x7F81) (ok 0) (ok 0) (fun _ x => decide (0x7F80 < x.l.toNat % 2 ^ 15)) = true ∧
    wit State.reset [.cvtd 0 3 0 0, .cvtd 0 8 0 0] (ok 0x1FF) (ok 0) (ok 0) (fun _ x => x.l.toNat % 2 ^ 7 == 0x7F && x.l.toNat % 2 ^ 8 == 0xFF) = true ∧
    wit State.reset [.cvtq8 0 0 0 1 0 0] (ok 0xFF800000) (ok 0x1FE) (ok 0)
      (fun _ x => infPat (x.l.setWidth 32) && x.r.toNat % 256 != 0xFF) = true := by decide

/-- A tile whose committed %link is n and whose debug enable is d. -/
def linked (n : Nat) (d : Bool) : State :=
  { State.reset with core := { CTile.reset with l0 := { CTile.reset.l0 with link := BitVec.ofNat 32 n }, sys := { CTile.reset.sys with dbgen := d } } }
/-- The same tile running at level 1. -/
def atLevel1 : State := { State.reset with core := { CTile.reset with run := some true } }

theorem test_meets_exits : wit State.reset [.brr 0 0, .callr 0 7] (ok 0xFFFFFFF0) (ok 0) (ok 0)
      (fun _ x => !x.lp && decide (x.l.toNat < 2 ^ 32 ∧ x.l.toNat % 16 = 0)) = true ∧
    wit (linked 0xFFFFFFF0 false) [.ret 0 0] (ok 0) (ok 0) (ok 0) (fun s _ => s.level.link.toNat % 16 == 0) = true ∧
    wit (linked 0xFFFFFFFF false) [.ret 0 0] (ok 0) (ok 0) (ok 0) (fun s _ => s.level.link.toNat % 16 != 0) = true := by decide
theorem test_meets_exit_traps : wit State.reset [.brr 0 0, .callr 0 0, .mts 0 9, .trap 0] bad (ok 0) (ok 0) (fun _ x => x.lp) = true ∧
    wit State.reset [.brr 0 0, .callr 0 0] (ok 0x100000000) (ok 0) (ok 0) (fun _ x => decide (2 ^ 32 ≤ x.l.toNat)) = true ∧
    wit State.reset [.brr 0 0, .callr 0 0] (ok 15) (ok 0) (ok 0) (fun _ x => x.l.toNat % 16 != 0) = true := by decide
theorem test_meets_break : wit (linked 0 true) [.brk 0 0] (ok 0) (ok 0) (ok 0) (fun s _ => s.core.sys.dbgen) = true ∧
    wit (linked 0 false) [.brk 0 0x7FFF] (ok 0) (ok 0) (ok 0) (fun s _ => !s.core.sys.dbgen) = true := by decide
theorem test_meets_masked_window : wit State.reset [.mwin 0 0] (ok 0) (ok 0) (ok 0) (fun s _ => s.core.run == some false && s.core.mwin == none) = true ∧
    wit atLevel1 [.mwin 0 1023] (ok 0) (ok 0) (ok 0) (fun s _ => s.core.run == some true) = true := by decide

-- A fired exit and a resolved register (R64, R69)
theorem test_meets_second_exit : ((State.reset.withFetchWord 32 0).modBlk (fun b => { b with exit := some .hend, wregs := [(3, none)] })).blk?.map
    (fun b => (b.exit, b.wregs)) = some (some .hend, [(3, none)]) := by decide

-- Loads and stores at the edges of their ranges (R120, R289)
theorem test_meets_load_store : wit State.reset [.ldD 0 0 0 0, .scld 0 0 0 0, .ldWSx 0 0 0 0] (ok 0x7FFF8) (ok 0) (ok 0)
    (fun s x => !x.lp && decide (inStore (accessAt x.l 0 8) 8) && (s.isBad (tileKey s.cur (accessAt x.l 0 8).toNat) 8).isNone) = true := by decide
theorem test_meets_load_offset : wit State.reset [.ldD 0 0 0x3FF 0] (ok 0x60000) (ok 0) (ok 0)
    (fun _ x => !x.lp && decide (inStore (accessAt x.l 0x3FF 8) 8)) = true := by decide
theorem test_meets_load_window : wit State.reset [.ldB 0 0 0 0, .ldH 0 0 0 0, .ldo 0 0 0 0, .scld 0 0 0 0] (ok 0x12FFFF8) (ok 0) (ok 0)
    (fun _ x => !x.lp && decide (inWindow (accessAt x.l 0 8) 8)) = true := by decide
theorem test_meets_access_traps :
    wit State.reset [.ldW 0 0 0 0, .ldo 0 0 0 0, .clro 0 0 0 0 0] bad (ok 0) (ok 0) (fun _ x => x.lp) = true ∧
    wit State.reset [.ldW 0 0 0 0, .stD 0 0 0 0 0, .scld 0 0 0 0] (ok 0x80000) (ok 0) (ok 0) (fun _ x => decide (outOfLocal x.l)) = true ∧
    wit State.reset [.ldo 0 0 0 0, .sto 0 0 0 0 0] (ok 0x3FFFF8) (ok 0) (ok 0) (fun _ x => decide (outOfWindow x.l)) = true ∧
    wit State.reset [.ldH 0 0 0 0, .stW 0 0 0 0 0] (ok 0x7FFFF) (ok 0) (ok 0) (fun _ x => decide (¬outOfLocal x.l ∧ x.l.toNat % 2 ≠ 0)) = true ∧
    wit State.reset [.ldo 0 0 0 0, .clro 0 0 0 0 0] (ok 0x400004) (ok 0) (ok 0) (fun _ x => decide (¬outOfWindow x.l ∧ x.l.toNat % 8 ≠ 0)) = true ∧
    wit State.reset [.ldB 0 0 0 0, .scst 0 0 0 0 0] (ok 0x60000) (ok 0) (ok 0) (fun _ x => decide (0x60000 ≤ x.l.toNat ∧ x.l.toNat < 0x70000)) = true ∧
    wit State.reset [.ldD 0 0 0 0, .stD 0 0 0 0 0] (ok 0x6FFF8) (ok 0) (ok 0) (fun _ x => decide (x.l.toNat % 8 = 0 ∧ x.l.toNat < 0x70000)) = true := by decide
theorem test_meets_store : wit State.reset [.stB 0 0 0 0 0, .stH 0 0 0 0 0, .stW 0 0 0 0 0, .stD 0 0 15 0 0, .scst 0 0 0 0 0] (ok 0x5FFF8) (ok 7) (ok 0)
      (fun _ x => !x.lp && !x.rp && decide (inStore (accessAt x.l 0 8) 8)) = true ∧
    wit State.reset [.stB 0 0 0 0 0, .sto 0 0 0 0 0, .scst 0 0 0 0 0] (ok 0x400000) (ok 7) (ok 0) (fun _ x => decide (inWindow (accessAt x.l 0 8) 8)) = true ∧
    wit State.reset [.stB 0 0 0 0 0, .sto 0 0 0 0 0, .scst 0 0 0 0 0, .irst 0 0 0 0 0] (ok 0) bad (ok 0) (fun _ x => !x.lp && x.rp) = true := by decide
theorem test_meets_clear : wit State.reset [.clro 0 0 0 1023 0] (ok 0x12FFFF8) (ok 0) (ok 0) (fun _ x => !x.lp && decide (inWindow x.l 8)) = true := by decide

/-- A level-0 invocation of interval 5 to which a SEALW has delivered if w, in a partition whose last sealed interval is n. -/
def inInterval (w : Bool) : State :=
  { State.reset with core := { CTile.reset with l0 := { CTile.reset.l0 with inv := some { probeInv with sealw := w, rin := 5 } } } }

theorem test_meets_irst : wit (inInterval true) [.irst 0 0 0 0 0] (ok 0x0100000000000000) (ok 1) (ok 0)
      (fun s x => !x.rp && (s.inv?.map (fun i => i.sealw)).getD false && decide (inVirtual (accessAt x.l 0 8) 8)) = true ∧
    wit (inInterval false) [.irst 0 0 0 0 0] (ok 0x0100000000000000) (ok 1) (ok 0) (fun s _ => (s.inv?.map (fun i => !i.sealw)).getD false) = true := by decide

-- Atomics (R120, R124, R129)
theorem test_meets_atomic : wit State.reset [.atom 0 0 0 0 0 0x7F, .atom 0 0 0 0 1 3, .atomn 0 0 0 8 0 0, .cas 0 1 0] (ok 0x12FFFF8) (ok 1) (ok 1)
      (fun _ x => !x.lp && !x.rp && !x.tp && decide (atomicAt x.l 8)) = true ∧
    wit State.reset [.atom 0 0 0 0 0 0x7F, .cas 0 1 0] (ok 0x1000000000000) (ok 1) (ok 1) (fun _ x => decide (atomicAt x.l 8)) = true ∧
    wit State.reset [.atom 0 0 0 0 0 3, .cas 0 1 0] (ok 0xFFFFFFFFFFFFFFF8) (ok 1) (ok 1) (fun _ x => decide (atomicAt x.l 8)) = true := by decide
theorem test_meets_atomic_traps : wit State.reset [.atom 0 0 0 0 0 0, .cas 0 0 0] bad (ok 0) (ok 0) (fun _ x => x.lp) = true ∧
    wit State.reset [.atomn 0 0 0 0 0 0, .cas 0 0 0] (ok 0) bad (ok 0) (fun _ x => !x.lp && x.rp) = true ∧
    wit State.reset [.atom 0 0 0 0 0 0, .cas 0 0 0] (ok 0x7FFF8) (ok 0) (ok 0)
      (fun _ x => decide (outOfWindow x.l ∧ x.l.toNat / 2 ^ 48 ≠ 1 ∧ x.l.toNat < 2 ^ 56)) = true ∧
    wit State.reset [.atom 0 0 0 0 1 0, .cas 0 1 0] (ok 0x400004) (ok 0) (ok 0) (fun _ x => decide (¬outOfWindow x.l ∧ x.l.toNat % 8 ≠ 0)) = true := by decide

/-- A tile whose actor 0 has output 6 with a credit, tag 2 held through TAGA, and entry 0 legal with a pool of tags 2 and 3; input 7 is actor 0's. -/
def withChannels : State :=
  { State.reset with core := { CTile.reset with ch := { CTile.reset.ch with
      outs := [(6, ⟨.chan 2 0, 1, 1, 0, 0, false⟩)], taga := [(0, 2)], tasks := [(0, 2 * 2 ^ 75 + 1 * 2 ^ 71 + 0x80), (7, 0x80)] } } }

theorem test_meets_send : wit withChannels [.send 0 1 0 2 1 6 0, .sendr 0 0 0 0 1 6 0, .eos 0 0 0 6 0] (ok 1) (ok 2) (ok 0)
      (fun s _ => (s.out? s.act 6).isSome) = true ∧
    wit withChannels [.sendm 0 0 0 3 6 0] (ok 0x7FFE0) (ok 2) (ok 0)
      (fun s x => (localTrap x.l x.lp 8 32 0x7FFFF).isNone && (s.out? s.act 6).isSome) = true ∧
    wit withChannels [.send 0 0 0 0 1 5 0, .sendr 0 0 0 0 1 5 0, .eos 0 0 0 5 0] (ok 1) (ok 2) (ok 0) (fun s _ => (s.out? s.act 5).isNone) = true := by decide
theorem test_meets_tags : wit withChannels [.taga 0 0] (ok 0) (ok 0) (ok 0) (fun s _ => (freeTag s).isSome) = true := by decide +kernel
theorem test_meets_tag_return : wit withChannels [.tagr 0] (ok 2) (ok 0) (ok 0) (fun s x => !x.lp && decide ((s.act, BitVec.ofNat 8 x.l.toNat) ∈ s.core.ch.taga)) = true ∧
    wit withChannels [.tagr 0] (ok 3) (ok 0) (ok 0) (fun s x => !x.lp && decide ((s.act, BitVec.ofNat 8 x.l.toNat) ∉ s.core.ch.taga)) = true ∧
    wit withChannels [.tagr 0] bad (ok 0) (ok 0) (fun _ x => x.lp) = true := by decide
/-- The entry in legacy arc mode. -/
def legacyTile : State := { State.reset with core := { CTile.reset with ch := { CTile.reset.ch with tasks := [(0, 4)] } } }

theorem test_meets_no_tag : wit legacyTile [.taga 0 0] (ok 0) (ok 0) (ok 0) (fun s _ => (freeTag s).isNone) = true := by decide
theorem test_meets_inputs : wit withChannels [.tblk 0 7, .tunb 0 7] (ok 0) (ok 0) (ok 0) (fun s _ => isInput s 7) = true ∧
    wit withChannels [.tblk 0 63, .tunb 0 63] (ok 0) (ok 0) (ok 0) (fun s _ => !isInput s 63) = true := by decide

-- Waiting words (R134, R141, R144)

/-- A tile in which invocation 0 has an outbound operation in course. -/
def outbound : State := { State.reset with core := { CTile.reset with ch := { CTile.reset.ch with perf := [⟨9, 0, false, 0⟩] } } }

theorem test_meets_fence : wit State.reset [.fence 0 6 0] (ok 0) (ok 0) (ok 0) (fun s _ => fenceClear s 6) = true ∧
    wit outbound [.fence 0 2 0] (ok 0) (ok 0) (ok 0) (fun s _ => !fenceClear s 2) = true := by decide
theorem test_meets_barrier : wit State.reset [.bari 0 63 0 0] (ok 1) (ok 0) (ok 0) (fun _ x => !x.lp && x.l.toNat % 2 ^ 16 != 0) = true ∧
    wit State.reset [.bari 0 0 0 0] (ok 0x10000) (ok 0) (ok 0) (fun _ x => x.l.getLsbD 16) = true ∧
    wit State.reset [.bari 0 0 0 0] (ok 0x100000000) (ok 0) (ok 0) (fun _ x => !x.l.getLsbD 16 && x.l.toNat % 2 ^ 16 == 0) = true ∧
    wit State.reset [.bari 0 0 0 0] bad (ok 0) (ok 0) (fun _ x => x.lp) = true := by decide
theorem test_meets_barrier_wait : wit State.reset [.barx 0 63 0 0] (ok 0x10000) (ok 0) (ok 0)
      (fun s x => (s.barrier 63).g.toNat == x.l.toNat % 2 ^ 16) = true ∧
    wit State.reset [.barx 0 0 0 0] (ok 1) (ok 0) (ok 0) (fun s x => (s.barrier 0).g.toNat != x.l.toNat % 2 ^ 16) = true := by decide
theorem test_meets_sealw : wit (inInterval false) [.sealw 0 0] (ok 0) (ok 0) (ok 0)
      (fun s _ => (s.inv?.map (fun i => i.rin != 0 && !s.isSealed (i.rin - 1))).getD false) = true ∧
    wit State.reset [.sealw 0 0] (ok 0) (ok 0) (ok 0) (fun s _ => (s.inv?.map (fun i => i.rin == 0)).getD false) = true := by decide

-- Rows, the matrix unit and the engines (R149 to R206)

/-- A tile whose row slot 3 is RUNNING and slot 2 LOADED. -/
def rowTile : State :=
  { State.reset with core := { CTile.reset with row := { RowArray.reset with slots :=
      [RowSlot.reset, RowSlot.reset, { RowSlot.reset with st := .loaded }, { RowSlot.reset with st := .running }] } } }

theorem test_meets_row_load_traps : wit State.reset [.rld 0 0 0 0] bad (ok 0) (ok 0) (fun _ x => x.lp) = true ∧
    wit State.reset [.rld 0 0 0 0] (ok 8) (ok 0) (ok 0) (fun _ x => x.l.toNat % 16 != 0) = true ∧
    wit State.reset [.rld 0 0 0 0] (ok 0x7FA00) (ok 0) (ok 0) (fun _ x => decide (0x7FC00 < x.l.toNat + 528)) = true ∧
    wit State.reset [.rld 0 0 0 0] (ok 0x5FE00) (ok 0) (ok 0) (fun _ x => decide (x.l.toNat < 0x70000 ∧ 0x60000 < x.l.toNat + 528)) = true := by decide
theorem test_meets_row_go : wit rowTile [.rgo 0 2 0 0] (ok 1) (ok 0) (ok 0) (fun s x => !x.lp && (s.rowSlot 2).st != .empty) = true ∧
    wit rowTile [.rgo 0 0 0 0] (ok 1) (ok 0) (ok 0) (fun s _ => (s.rowSlot 0).st == .empty && !blockHasRld s 0) = true ∧
    wit rowTile [.rgo 0 0 0 0, .mfade 0 0 0 0] bad (ok 0) (ok 0) (fun _ x => x.lp) = true := by decide
theorem test_meets_row_drain : wit rowTile [.rdrain 0 0 2 0 0] (ok 0) (ok 0) (ok 0) (fun s _ => (s.rowSlot 2).st != .running) = true ∧
    wit rowTile [.rdrain 0 0 3 0 0] (ok 0) (ok 0) (ok 0) (fun s _ => (s.rowSlot 3).st == .running) = true ∧
    wit rowTile [.rdrain 0 1 0 0 0] (ok 0) (ok 0) (ok 0) (fun s _ => s.core.row.slots.any (fun r => r.st == .running)) = true ∧
    wit State.reset [.rdrain 0 1 0 0 0] (ok 0) (ok 0) (ok 0) (fun s _ => s.core.row.slots.all (fun r => r.st != .running)) = true := by decide

theorem test_meets_matrix_pass : wit State.reset [.mma 0 3 4 0 0] (ok 0x7F400) (ok 0) (ok 0)
      (fun _ x => !x.lp && !x.rp && !mxDescBad false 3 x.l false && !mxDescBad false 4 x.r true && decide (mxK x.l = 32) &&
        (mxRanges false 3 32 x.l ++ mxRanges false 4 32 x.r).all (fun r => decide (rangeOk r.1 16 r.2))) = true ∧
    wit State.reset [.mmas 0 3 4 0 0] (ok 0) (ok 1) (ok 0)
      (fun _ x => !mxDescBad true 3 x.l false && !mxDescBad true 4 x.r true && (mxRanges true 3 32 x.l).isEmpty) = true := by decide
theorem test_meets_matrix_traps : wit State.reset [.mma 0 3 4 0 0, .mmas 0 3 4 0 0] (ok 0) bad (ok 0) (fun _ x => x.rp) = true ∧
    wit State.reset [.mma 0 3 4 0 0, .mmas 0 3 4 0 0] (ok 0x2000000000000) (ok 0) (ok 0) (fun _ x => mxDescBad false 3 x.l false && mxDescBad true 3 x.l false) = true ∧
    wit State.reset [.mma 0 3 4 0 0] (ok 0) (ok 8) (ok 0)
      (fun _ x => mxRanges false 3 (mxK x.l) x.l ++ mxRanges false 4 (mxK x.l) x.r == [(0, 2048)] ++ (8, 2048) :: []) = true ∧
    wit State.reset [.mlda 0 0 0 0, .mdrain 0 0 0 0 0 0] bad (ok 0) (ok 0) (fun _ x => x.lp) = true ∧
    wit State.reset [.mdrain 0 0 0 0 0 0] (ok 0x1000000000) bad (ok 0) (fun _ x => !x.lp && x.rp) = true ∧
    wit State.reset [.mdrain 0 0 0 0 0 0] (ok 0x80000) (ok 0) (ok 0) (fun _ x => x.l.toNat / 2 ^ 19 % 2 ^ 13 != 0) = true ∧
    wit State.reset [.mdrain 0 0 0 0 0 0] (ok 0x1000000000) (ok 0) (ok 0) (fun _ x => decide (2 ^ 36 ≤ x.l.toNat)) = true := by decide
theorem test_meets_matrix_moves : wit State.reset [.mlda 0 3 0 0] (ok 0x7BC00) (ok 0) (ok 0) (fun _ x => decide (rangeOk x.l.toNat 16 16384)) = true ∧
    wit State.reset [.mlda 0 3 0 0] (ok 0x7BC10) (ok 0) (ok 0) (fun _ x => decide (0x7FC00 < x.l.toNat + 16384)) = true ∧
    wit State.reset [.mlda 0 3 0 0] (ok 0x5C010) (ok 0) (ok 0) (fun _ x => decide (0x5C000 < x.l.toNat ∧ x.l.toNat < 0x70000)) = true ∧
    wit withChannels [.mdrain 0 0 3 2 0 0] (ok 0xE00070000) (ok 0) (ok 0)
      (fun s x => !x.rp && x.l.getLsbD 35 && decide (rangeOk (x.l.toNat % 2 ^ 19) 16 (drainBytes 0)) && (s.out? s.act (x.l.extractLsb' 32 3)).isSome) = true := by decide

/-- A tile whose store holds the given words from address 0x100 on, in canonical form, with pattern 0 in window 0 and pattern 31 in the store. -/
def described (ws : List Nat) : State :=
  { withChannels with
    mem := memPuts [] (tileKey 0 0x100) ((ws.map (fun w => leBytes 8 w)).flatten)
    core := { withChannels.core with
      aps := [(0, [0x400000, 0, 0x700000001, 0, 0, 0]), (31, [0x100, 0, 0x700000001, 0, 0, 0])] } }
/-- The n words that the firing instruction's descriptor reads. -/
def descWords (s : State) (x : Args) (n : Nat) : List Nat := ((wordsAt s x (x.l.toNat % 2 ^ 32) n).1).map (fun w => w.toNat)

theorem test_meets_descriptor : wit (described [0x400000, 0x100, 16, 0]) [.bcopy 0 1 63 0 0, .apdef 0 31 0 0, .agcfg 0 0 0 0 0] (ok 0x100000100) (ok 0) (ok 0)
      (fun s x => !x.lp && decide (rangeOk (x.l.toNat % 2 ^ 32) 16 48) && descWords s x 4 == [0x400000, 0x100, 16, 0]) = true := by decide
theorem test_meets_row_load : wit (described [0x8000, 0, 0x2020000000000000]) [.rld 0 3 0 0] (ok 0x100) (ok 0) (ok 0)
      (fun s x => !x.lp && decide (rangeOk x.l.toNat 16 528) && (imageFault 0x8000 ((wordsAt s x x.l.toNat 66).1.drop 2)).isNone) = true ∧
    wit (described []) [.rld 0 3 0 0] (ok 0x7F9F0) (ok 0) (ok 0)
      (fun s x => decide (rangeOk x.l.toNat 16 528) && imageFault 0 ((wordsAt s x x.l.toNat 66).1.drop 2) == some 64) = true := by decide
theorem test_meets_copy : copyOk false 0x400000 0x100 16 0 = true ∧ (copyEndTrap 0x400000 16).isNone = true ∧ (copyEndTrap 0x100 16).isNone = true ∧
    copyOk true 0x0100000000000000 0x100 0xFFFFFFFF 0 = true ∧ copyOk false 0 0x100 0 0 = false ∧ copyOk true 0 0x100 16 0 = false ∧
    copyOk false 0 0x100 16 1 = false := by decide
theorem test_meets_pattern : apOk [0, 3, 0, 0, 0, 0] = true ∧ apOk [0, 4, 0, 0, 0, 0] = false ∧ apOk [0, 0, 0, 1, 0, 0] = false ∧
    agcfgOk 0x10000 = true ∧ agcfgOk 0x300000 = true ∧ agcfgOk 0 = false := by decide
theorem test_meets_stream : wit (described []) [.strmIn 0 7 0 0, .strmOut 0 0 0 0] (ok 31) (ok 0) (ok 0)
      (fun s x => decide (x.l.toNat < 2 ^ 12 ∧ x.l.toNat / 32 % 8 = 0) && (mget s.core.aps (x.l.toNat % 32)).isSome && !x.l.getLsbD 11) = true ∧
    wit (described []) [.strmIn 0 7 0 0, .strmOut 0 0 0 0] (ok 0xE00) (ok 0) (ok 0)
      (fun s x => (mget s.core.aps (x.l.toNat % 32)).isSome && x.l.getLsbD 11 && (s.out? s.act (x.l.extractLsb' 8 3)).isSome) = true ∧
    wit (described []) [.strmIn 0 7 0 0] (ok 0xF00) (ok 0) (ok 0) (fun s x => x.l.getLsbD 11 && (s.out? s.act (x.l.extractLsb' 8 3)).isNone) = true ∧
    wit (described []) [.strmIn 0 7 0 0, .strmOut 0 0 0 0] (ok 1) (ok 0) (ok 0) (fun s x => (mget s.core.aps (x.l.toNat % 32)).isNone) = true ∧
    wit (described []) [.strmIn 0 7 0 0] (ok 0x1000) (ok 0) (ok 0) (fun _ x => decide (2 ^ 12 ≤ x.l.toNat)) = true ∧
    wit (described []) [.strmIn 0 7 0 0, .coll 0 6 0 0, .eres 0 0 0, .mfsp 0 0 0] bad (ok 0) (ok 0) (fun _ x => x.lp) = true := by decide
theorem test_meets_stream_wait : wit State.reset [.sbar 0 0xFF 0 0] (ok 0) (ok 0) (ok 0) (fun s _ => (List.range 8).all (fun n => portQuiet (s.port n))) = true ∧
    wit { State.reset with core := { CTile.reset with ports := [⟨[1], none, none, false, [], false⟩] } } [.sbar 0 1 0 0] (ok 0) (ok 0) (ok 0)
      (fun s _ => !portQuiet (s.port 0)) = true := by decide
theorem test_meets_generator : wit (described []) [.aggo 0 3 0 0 0] (ok 0x001F) (ok 0xE) (ok 0)
      (fun s x => (match mget s.core.aps (x.l.toNat % 32), mget s.core.aps (x.l.toNat / 256 % 32) with
        | some a, some b => apBytes a == apBytes b && (baseInWindow s 0 a || baseInWindow s 0 b)
        | _, _ => false) && x.r.getLsbD 3 && (s.out? s.act (x.r.extractLsb' 0 3)).isSome) = true ∧
    wit (described []) [.aggo 0 3 0 0 0] (ok 0x0100) (ok 0) (ok 0) (fun s x => (mget s.core.aps (x.l.toNat / 256 % 32)).isNone) = true ∧
    wit (described []) [.aggo 0 3 0 0 0] (ok 0) bad (ok 0) (fun _ x => x.rp) = true := by decide
/-- A tile whose actor 0 has output 6 at a collective unit. -/
def collective : State :=
  { State.reset with core := { CTile.reset with ch := { CTile.reset.ch with outs := [(6, ⟨.coll 0 0, 1, 1, 0, 0, false⟩)] } } }
theorem test_meets_collective : wit collective [.coll 0 6 0 0] (ok 0xFFFFFFFF0003) (ok 0) (ok 0)
      (fun s x => (match s.out? s.act 6 with
        | some o => o.dest == .coll 0 0
        | none => false) && decide (x.l.toNat < 2 ^ 48 ∧ x.l.toNat / 64 % 2 ^ 10 = 0 ∧ x.l.toNat / 2 ^ 16 % 2 ^ 32 ≠ 0 ∧ x.l.toNat % 16 ≤ 3)) = true ∧
    wit collective [.coll 0 6 0 0] (ok 0x10004) (ok 0) (ok 0) (fun _ x => decide (3 < x.l.toNat % 16)) = true ∧
    wit collective [.coll 0 6 0 0] bad (ok 0) (ok 0) (fun _ x => x.lp) = true ∧
    wit collective [.coll 0 5 0 0] (ok 0) (ok 0) (ok 0) (fun s _ => (s.out? s.act 5).isNone) = true := by decide

-- The system words (R209 to R218)

/-- A partition of the whole field in its first interval. -/
def part0 : Partition :=
  { ix0 := 0, iy0 := 0, ix1 := 32, iy1 := 31, mem := ⟨List.replicate 64 0, 0, 0, 4, 0⟩, cap := 4, qfirst := 0, qcnt := 4, dom := 0, master := true,
    deleting := false, sealed := 0xFFFFFFFF, cur := 0, voidTo := 0xFFFFFFFF, wper := 1000, autow := 0, mrep := 0, rbk := 0, stall := 0, pend := false,
    wave := none, cuts := [], ring := 0, rings := [], telm := 0, telmAt := 0, inval := [], esaddr := 0, kmat := [], kcmd := 0, kres := 0, ran := [],
    tally := [], telmUndo := [] }
/-- An image of partition 0 with one region and two phases. -/
def image0 : Image :=
  { part := 0, queue := 0, image := 0, len := 0, phase := 0, supv := 0, iqb := 0, oqb := 0, done := 0, utag := 0, regs := [0], started := true, waits := 0,
    phs := [(0, 500), (0, 500)], powers := [], cswp := none }
/-- Its region: the island (0, 0), in state st. -/
def region0 (st : RegState) : Region :=
  { img := 0, index := 0, ix0 := 0, iy0 := 0, ix1 := 0, iy1 := 0, units := 4, theta := 0, st := st, drain := false, phase := 0, since := 0, quantum := 500, graceEnd := 20,
    seen := none, quiet := false, powerSum := 0, powerN := 0, causes := [], rver := 0, moved := [], move := none, hot := [], movedAt := [], mig := [],
    saved := [], answers := [], conf := [], confGens := [], cfgRin := 0, back := none, savedAt := 0, moves := 0, born := 0, grant := 0, demand := 0, floor := 0, forced := false,
    held := false, meas := ⟨0, 0, 0, 0, (0, 0), (0, 0), (0, 0), 0, false, false, false, 0⟩ }
/-- The tile in focus works for partition 0, in its region of state st. -/
def inPart (st : RegState) : State :=
  { State.reset with
    parts := [(0, part0)], images := [(0, image0)], regions := [(0, region0 st)]
    core := { CTile.reset with sys := { CTile.reset.sys with part := some 0, region := 0 } } }

theorem test_meets_answer : wit (inPart .run) [.eres 0 0 0, .ekill 0 0 0] (ok 0) (ok 0) (ok 0) (fun s x => !x.lp && handleOk s x.l) = true ∧
    wit (inPart .run) [.eres 0 0 0, .ekill 0 0 0] (ok 0x20000) (ok 0) (ok 0) (fun s x => !x.lp && !handleOk s x.l) = true := by decide
theorem test_meets_system_registers : wit State.reset [.mfsp 0 0 0] (ok 9) (ok 0) (ok 0) (fun s x => (sysRead s x.l.toNat).isSome) = true ∧
    wit State.reset [.mfsp 0 0 0] (ok 10) (ok 0) (ok 0) (fun _ x => decide (10 ≤ x.l.toNat)) = true ∧
    wit State.reset [.mtsp 0] (ok 3) (ok 7) (ok 0) (fun _ x => !x.rp && decide (1 ≤ x.l.toNat ∧ x.l.toNat ≤ 3)) = true ∧
    wit State.reset [.mtsp 0] (ok 4) (ok 7) (ok 0) (fun _ x => decide (3 < x.l.toNat)) = true ∧
    wit State.reset [.mtsp 0] (ok 1) bad (ok 0) (fun _ x => x.rp) = true := by decide
theorem test_meets_halt : wit (inPart .run) [.halt 0] (ok 0x10002) (ok 0) (ok 0)
      (fun s x => decide (x.l.toNat < 2 ^ 17) && isCTile (x.l.toNat % 2 ^ 16) && inPartition s (x.l.toNat % 2 ^ 16)) = true ∧
    wit (inPart .run) [.halt 0] (ok 1) (ok 0) (ok 0) (fun _ x => !isCTile (x.l.toNat % 2 ^ 16)) = true ∧
    wit (inPart .run) [.halt 0, .cswp 0, .wdog 0, .telm 0, .xflush 0 0 0] bad (ok 0) (ok 0) (fun _ x => x.lp) = true := by decide
theorem test_meets_telemetry : wit State.reset [.telm 0] (ok 0xFFFFFF02) (ok 0) (ok 0)
      (fun _ x => decide (x.l.toNat % 4 ≠ 3 ∧ x.l.toNat < 2 ^ 32 ∧ x.l.toNat / 4 % 64 = 0 ∧ x.l.toNat / 256 % 2 ^ 24 ≠ 0)) = true ∧
    wit State.reset [.telm 0] (ok 3) (ok 0) (ok 0) (fun _ x => x.l.toNat % 4 == 3) = true := by decide
theorem test_meets_switch : wit (inPart .run) [.cswp 0] (ok 0x10100) (ok 0) (ok 0)
      (fun s x => decide (x.l.toNat < 2 ^ 17) && regionDeclared s (x.l.toNat % 256) && phaseDeclared s (x.l.toNat / 256 % 256)) = true ∧
    wit (inPart .run) [.cswp 0] (ok 0x200) (ok 0) (ok 0) (fun s x => !phaseDeclared s (x.l.toNat / 256 % 256)) = true ∧
    wit (inPart .run) [.xflush 0 0 0] (ok 0x1FF) (ok 0) (ok 0) (fun _ x => x.l.toNat % 256 == 255 && decide (x.l.toNat < 2 ^ 9)) = true ∧
    wit (inPart .run) [.xflush 0 0 0] (ok 1) (ok 0) (ok 0) (fun s x => !regionDeclared s (x.l.toNat % 256)) = true := by decide
theorem test_meets_energy : wit (inPart .run) [.ecnt 0 0 0] (ok 0x7F6D0) (ok 5) (ok 0)
      (fun _ x => !x.lp && !x.rp && decide (rangeOk (x.l.toNat % 2 ^ 32) 16 1328)) = true ∧
    wit (inPart .run) [.ecnt 0 0 0] (ok 0x7F6D0) bad (ok 0) (fun _ x => x.rp && decide (rangeOk (x.l.toNat % 2 ^ 32) 16 1328)) = true ∧
    wit (inPart .run) [.ecnt 0 0 0, .dbg 0] bad (ok 0) (ok 0) (fun _ x => x.lp) = true := by decide

-- Firing, delivery and traps (R31, R61 to R63, R69, R364)

/-- The answer of standing: the form's predicate field, whether an operand is null, and the predicate operand. -/
def stands (i : Instr) (s : State) (f : Info → Slot → Bool) : Bool :=
  match standing i s with
  | some (x, sl) => f x sl
  | none => false

theorem test_meets_unfired : (standing (.add 0 0 0) State.reset).isNone = true ∧ (infoOf (.add 0 0 0)).isSome = true ∧
    stands (.brr 3 0) (withOps State.reset (.brr 3 0) (ok 0) (ok 0) bad) (fun f sl => !hasNull f sl && f.pr != 0 && opdPoison sl.t) = true ∧
    stands (.add 2 0 0) (withOps State.reset (.add 2 0 0) (ok 0) (ok 0) (ok 1)) (fun f sl => f.pr == 2 && !opdPoison sl.t && opdWord sl.t != 0) = true ∧
    stands (.add 3 0 0) (withOps State.reset (.add 3 0 0) (ok 0) (ok 0) (ok 0)) (fun f sl => f.pr == 3 && !opdPoison sl.t && opdWord sl.t == 0) = true := by decide
theorem test_meets_nullified : [Instr.write 0 63, .stD 0 0 0 0 0, .add 0 0 0, .brr 0 0].all (fun i =>
    stands i (withOps State.reset i .null (ok 0) (ok 0)) (fun f sl => hasNull f sl)) = true ∧
    (infoOf (.stD 0 0 0 0 0)).map (fun f => f.lsid.isSome) = some true ∧ (infoOf (.add 0 0 0)).map (fun f => (f.lsid, f.value)) = some (none, true) ∧
    (infoOf (.brr 0 0)).map (fun f => (f.lsid, f.value)) = some (none, false) := by decide
theorem test_meets_frame : (infoOf (.stD 0 0 0 0 0)).isSome = true ∧
    (match exec (.stD 0 0 0 0 0) (withOps State.reset (.stD 0 0 0 0 0) (ok 0) (ok 1) (ok 0)) with
      | .next t => t.cur == 0
      | _ => false) = true := by decide

/-- A slot of ADD, of BRR.t, with the operand l in its left buffer; fired or waiting. -/
def slotOf (i : Instr) (l : Option Opd) (st : SlotState) : Slot := ⟨(encode i).getD 0, l, none, none, st⟩
/-- The slot list in which slot 31 is the one given. -/
def slots31 (sl : Slot) : List Slot := List.replicate 31 (emptySlot 0) ++ [sl]

theorem test_meets_delivery : (slots31 (slotOf (.add 0 0 0) none .waiting))[(0x1F : BitVec 7).toNat % 32]? = some (slotOf (.add 0 0 0) none .waiting) ∧
    (0x1F : BitVec 7) ≠ noT ∧ (0x5F : BitVec 7) ≠ noT ∧ (0x1F : BitVec 7).toNat / 32 = 0 ∧ (0x3F : BitVec 7).toNat / 32 = 1 ∧ (0x5F : BitVec 7).toNat / 32 = 2 ∧
    (slotOf (.add 0 0 0) (some ⟨ok 0, 0⟩) .waiting).l ≠ none ∧ (slotOf (.add 0 0 0) none .fired).st = .fired ∧
    (wordInfo (slotOf (.brr 3 0) none .waiting).word).map (fun x => x.2.pr) = some 3 ∧ Opd.poison ⟨bad, 0⟩ = true ∧ Opd.poison ⟨ok 0, 0⟩ = false := by decide

/-- A level-0 or level-1 invocation with a running block; the tile's supervisor is v. -/
def running (hi : Bool) (v : BitVec 22) : State :=
  let s := ({ State.reset with core := { CTile.reset with run := some hi } } : State).withFetchWord 32 0x0900007F
  { s with core := { s.core with sys := { s.core.sys with supv := v } } }

theorem test_meets_trap : (running false 0xFFFF).core.run = some false ∧ ((running false 0xFFFF).core.level false).inv = some probeInv ∧
    ((running false 0xFFFF).core.level false).blk.isSome = true ∧ (running true 2).core.run = some true ∧ ((running true 2).core.level true).inv.isSome = true ∧
    (running true 2).core.sys.supv.toNat % 0x10000 ≠ 0xFFFF ∧ (running false 0xFFFF).core.sys.supv.toNat % 0x10000 = 0xFFFF := by decide
theorem test_meets_store_poison : (running false 0).inv?.isSome = true ∧ (running false 0).blk?.isSome = true ∧
    ((running false 0).core.sys.part.getD 64, Cause.poisonUse, tileKey 0 0) ∉ (running false 0).replays ∧
    ((running false 0).core.sys.part.getD 64, Cause.poisonUse, tileKey 0 0) ∈ ({ running false 0 with replays := [(64, .poisonUse, tileKey 0 0)] } : State).replays := by decide

-- Fetch (R27, R48, R58)

/-- A level-0 invocation, privileged if p, whose fetch at a ends in this cycle; the block there has header h and the words ws. -/
def fetching (p : Bool) (a h : Nat) (ws : List Nat) : State :=
  { State.reset with
    mem := memPuts [] (tileKey 0 a) (leBytes 16 h ++ (ws.map (fun w => leBytes 4 w)).flatten)
    core := { CTile.reset with
      run := some false
      l0 := { CTile.reset.l0 with inv := some { probeInv with priv := p }, fetch := some ⟨BitVec.ofNat 32 a, 0, false⟩ } } }
/-- The header and the words that the fetch reads, given to f. -/
def fetched (s : State) (a : Nat) (f : BitVec 128 → List Word32 → Bool) : Bool :=
  let h := BitVec.ofNat 128 (leNat (s.bytes (tileKey s.cur a) 16))
  f h (blockWords s (a + 16) (h.toNat % 32 + 1))

theorem test_meets_fetch : (fetching false 0x100 0x20 [0x06000000]).core.level false =
      { CTile.reset.l0 with inv := some { probeInv with priv := false }, fetch := some ⟨0x100, 0, false⟩ } ∧
    fetched (fetching false 0x100 0x20 [0x06000000]) 0x100 (fun h ws => headerOk h ws && ws == [0x06000000] && !illegalOp h ws 0 && !illegalTarget ws 0) = true ∧
    fetched (fetching false 0x7FBE0 0x20 [0x06000000]) 0x7FBE0 (fun h ws => headerOk h ws && !illegalOp h ws 0 && !illegalTarget ws 0) = true := by decide
theorem test_meets_fetch_traps :
    fetched (fetching false 0x100 0x8000020 [0x06000000]) 0x100 (fun h _ => h.getLsbD 27) = true ∧
    fetched (fetching false 0x100 0x40 [0x06000000]) 0x100 (fun h ws => !headerOk h ws && ws.length == 1) = true ∧
    fetched (fetching false 0x100 0x21 [0x06000000, 0x00000000]) 0x100 (fun h ws => headerOk h ws && illegalOp h ws 1 && !illegalOp h ws 0) = true ∧
    fetched (fetching false 0x100 0x21 [0x06000000, 0x14003F81]) 0x100
      (fun h ws => headerOk h ws && !illegalOp h ws 0 && !illegalOp h ws 1 && !illegalTarget ws 0 && illegalTarget ws 1) = true ∧
    fetched (fetching false 0x7FBF0 0x20 []) 0x7FBF0 (fun _ ws => decide (0x7FC00 < 0x7FBF0 + 16 + 16 * ((ws.length + 3) / 4))) = true := by decide

-- The commit (R58, R68)

theorem test_meets_entry : CTile.reset.l0.regs.length = 64 ∧ probeInv.entry.length ≤ 4 := by decide
/-- A block that has resolved g63 to 5 and g0 to nothing, with HEND as its exit. -/
def doneBlk : Blk := { newBlk State.reset 0 0x20 [0x06000000] with wregs := [(63, some ⟨5, false⟩), (0, none)], exit := some .hend }
theorem test_meets_commit_level : doneBlk.wregs.Pairwise (fun x y => x.1 ≠ y.1) ∧ (63, some ⟨5, false⟩) ∈ doneBlk.wregs ∧
    (∀ w ∈ doneBlk.wregs, w.1 = 0 → w.2 = none) ∧ (∀ w ∈ doneBlk.wregs, w.1 = 1 → w.2 = none) ∧
    ({ doneBlk with exit := some (.call 0x40) } : Blk).exit = some (.call 0x40) := by decide

/-- The tile with block b in its window, at level 0. -/
def holding (b : Blk) : State :=
  { State.reset with core := { CTile.reset with run := some false, l0 := { CTile.reset.l0 with inv := some probeInv, blk := some b } } }

theorem test_meets_cycle_end : canCommit doneBlk = true ∧ (holding doneBlk).blk? = some doneBlk := by decide
theorem test_meets_block_commit : (commitHold (holding { doneBlk with phase := .committing }) { doneBlk with phase := .committing }).any = false ∧
    (holding { doneBlk with phase := .commitWait }).blk? = some { doneBlk with phase := .commitWait } ∧
    (holding { doneBlk with phase := .commitWait }).inv? = some probeInv := by decide
/-- A block that fired a RLD of slot 3; one that stored to 0x100. -/
def rowBlk : Blk := { doneBlk with phase := .committing, acts := [⟨0, 0, .rowGo 3 1⟩] }
def storeBlk : Blk := { doneBlk with phase := .committing, stores := [⟨0, some 0, .store 0x100 8 7, 0, 0⟩] }
theorem test_meets_commit_wait : (commitHold { holding rowBlk with core := { (holding rowBlk).core with row := rowTile.core.row } } rowBlk).row = true ∧
    (commitHold { holding storeBlk with core := { (holding storeBlk).core with recov := { CTile.reset.recov with
      undo := List.replicate 1024 ⟨0, 0, [], [], none, 0⟩ } } } storeBlk).undo = true := by decide +kernel
/-- A block with one store and a jump, in the phase given. -/
def jumpBlk (p : BlkPhase) : Blk := { storeBlk with phase := p, exit := some (.jump 0x40) }
theorem test_meets_single_store : (commitHold (holding (jumpBlk .committing)) (jumpBlk .committing)).any = false ∧
    (commitHold (holding (jumpBlk .commitWait)) (jumpBlk .commitWait)).any = false ∧ (holding (jumpBlk .commitWait)).core.ch.outq = [] ∧
    (jumpBlk .commitWait).acts = [] ∧ (jumpBlk .commitWait).pend = none ∧ (holding (jumpBlk .committing)).regionOf 0 = none ∧
    ((jumpBlk .committing).stores.map (fun o => (o.ready, localWrite o.op))) = [(0, some (0x100, leBytes 8 7))] := by decide
theorem test_meets_store_write : localWrite (.store 0x100 8 7) = some (0x100, leBytes 8 7) ∧ (holding storeBlk).blk? = some storeBlk ∧ MemOk State.reset ∧
    tileKey 0 0x100 < 0x1000000000000000 := by decide
theorem test_meets_fetch_frame : ({ CTile.reset with sys := { CTile.reset.sys with fdutyNext := some 8 } } : CTile).sys.fdutyNext = some 8 ∧ CTile.reset.cyc % 16 = 0 := by decide

-- The traps of time (R70, R142, R237)

theorem test_meets_block_dead : ({ doneBlk with idle := 64, exit := none } : Blk).idle = 64 ∧ doneBlk.phase = .running ∧ doneBlk.trap = none ∧
    doneBlk.slots[0]?.map (fun x => x.st) = some .waiting := by decide
/-- The masked window's time is over; the watchdog's too. -/
def late (b : Option Blk) : State :=
  { State.reset with core := { CTile.reset with
      run := some false, cyc := 5, mwin := some 5, l0 := { CTile.reset.l0 with inv := some probeInv, blk := b, wdog := 100000001000000 } } }
theorem test_meets_late : (late (some doneBlk)).core.mwin = some 5 ∧ (late (some doneBlk)).core.cyc = 5 ∧ (late (some doneBlk)).blk? = some doneBlk ∧
    (late none).blk? = none ∧ (late none).inv? = some probeInv ∧ (late none).core.sys.wdlim.toNat < (late none).level.wdogNs ∧
    probeInv.frozen = none ∧ probeInv.pendTrap = none := by decide

-- Dispatch (R228 to R233)

/-- A data token of no words. -/
def token0 : Token := ⟨0, 0, [0, 0, 0, 0], 0, 0, 0, 0⟩
/-- Channel n of the tile in focus. -/
def chan0 (q : List (Nat × Token)) : InChan :=
  { src := .port 2 0 0, cap := 4, ret := false, legacy := false, queue := q, pos := 1, taken := 0, discard := false, border := none, cap0 := 4, awaited := true,
    trapFree := 0, asks := [], late := [] }
/-- A tile with the tokens ts on channels 0 and 63; entry 0 is legal (j: joined with channel 63; e: ME set). -/
def offered (j e : Bool) (t u : Token) : State :=
  { State.reset with core := { CTile.reset with ch := { CTile.reset.ch with
      tasks := [(0, BitVec.ofNat 128 ((if j then 2 ^ 64 + 63 * 2 ^ 65 else 0) + (if e then 8 else 0) + 0x80 + 4 * 2 ^ 83)), (63, 0)]
      ins := [(0, chan0 [(0, t)]), (63, chan0 [(0, u)])] } } }

theorem test_meets_dispatch : decisionLevel (offered false false token0 token0) = some false ∧
    ((offered false false token0 token0).core.level false).inv = none ∧ pickEntry (offered false false token0 token0).core false = some 0 ∧
    headTok (offered false false token0 token0).core 0 = some token0 ∧
    lowestTag (offered false false token0 token0).core 0 0 1 = some 0 := by decide
theorem test_meets_joined : decisionLevel (offered true true token0 { token0 with kind := 8 }) = some false ∧
    pickEntry (offered true true token0 { token0 with kind := 8 }).core false = some 0 ∧ decisionLevel State.reset = none ∧
    headTok (offered true true token0 { token0 with kind := 8 }).core 63 = some { token0 with kind := 8 } ∧
    decisionLevel (offered true false token0 { token0 with kind := 8 }) = some false ∧ isEos token0 = false ∧ isEos { token0 with kind := 8 } = true := by decide
/-- An aborted invocation, or one whose fetch stands, out of the window. -/
def waitingInv (ab : Bool) : State :=
  { State.reset with core := { CTile.reset with l0 := { CTile.reset.l0 with
      inv := some { probeInv with aborted := ab }, fetch := if ab then none else some ⟨0x40, 3, false⟩ } } }
theorem test_meets_window_again : decisionLevel (waitingInv true) = some false ∧ decisionLevel (waitingInv false) = some false ∧
    ((waitingInv false).core.level false).fetch.isSome = true := by decide

-- Messages at a compute tile (R65, R210, R224 to R238, R276)

def org0 : Origin := ⟨2, 0, false, 0, 0, 0, 0, 0, 5, 0⟩
/-- A message from tile 2 to the tile in focus. -/
def msg (b : Payload) : Msg := ⟨7, 2, 0, org0, b⟩
/-- State s with one message waiting at the tile in focus. -/
def receiving (s : State) (b : Payload) : State := { s with inbox := [(0, [msg b])] }

theorem test_meets_token : oldest (receiving (offered false false token0 token0) (.token 63 0 token0)) isTileToken (msg (.token 63 0 token0)) ∧
    mget (offered false false token0 token0).core.ch.ins 63 = some (chan0 [(0, token0)]) ∧ taskV (BitVec.ofNat 128 0x80) = true ∧
    token0.kind.getLsbD 3 = false ∧ (chan0 []).awaited = true ∧ (chan0 []).border = none ∧ (chan0 []).discard = false := by decide
theorem test_meets_stray_token : oldest (receiving State.reset (.token 63 0 token0)) isTileToken (msg (.token 63 0 token0)) ∧
    mget State.reset.core.ch.ins 63 = none := by decide
theorem test_meets_tag_message : oldest (receiving withChannels (.tret 0 2)) isTret (msg (.tret 0 2)) ∧ (0, (2 : BitVec 8)) ∈ withChannels.core.ch.taga ∧
    (0, (3 : BitVec 8)) ∉ withChannels.core.ch.taga ∧ oldest (receiving withChannels (.ack 0 6)) isAck (msg (.ack 0 6)) ∧
    oldest (receiving withChannels (.credit 0 6)) isTileCredit (msg (.credit 0 6)) ∧ (mget withChannels.core.ch.outs (0 * 8 + 6)).isSome = true := by decide

/-- The supervisor's trap pool on channel 63, with n free places. -/
def trapPool (n : Nat) : State :=
  { State.reset with core := { CTile.reset with ch := { CTile.reset.ch with ins := [(63, { chan0 [] with src := .trap, trapFree := n })] } } }
theorem test_meets_trap_pool : oldest (receiving (trapPool 1) (.trapAsk 63 none)) isTrapAsk (msg (.trapAsk 63 none)) ∧
    ((mget (trapPool 1).core.ch.ins 63).map (fun i => i.trapFree)) = some 1 ∧ ((mget (trapPool 0).core.ch.ins 63).map (fun i => i.trapFree)) = some 0 := by decide
/-- A trap token waits at the tile. -/
def trapWaiting : State :=
  { State.reset with core := { CTile.reset with ch := { CTile.reset.ch with traps := [⟨[0, 0, 0, 0], 0, 0, 0, some false, false, false⟩] } } }
theorem test_meets_trap_token : (noticesOf (receiving trapWaiting .trapGrant) 0).length = 1 ∧
    oldest (receiving trapWaiting .trapGrant) isTrapGrant (msg .trapGrant) ∧ isCTile trapWaiting.cur = true ∧ (mgetD trapWaiting.inbox 0 []).length = 0 ∧
    (noticesOf trapWaiting 0).all (fun n => !n.asked) = true := by decide
/-- Level 0 holds a frozen invocation of tag 0; the region's state is st. -/
def frozenTile (st : RegState) : State :=
  { inPart st with core := { (inPart st).core with l0 := { CTile.reset.l0 with
      inv := some { probeInv with frozen := some ⟨0, .userTrap, none, 0, 0, false, false⟩ }, blk := some doneBlk } } }
theorem test_meets_trap_answer : oldest (receiving (frozenTile .run) (.answer false 0)) isAnswer (msg (.answer false 0)) ∧
    oldest (receiving (frozenTile .run) (.answer true 0)) isAnswer (msg (.answer true 0)) ∧
    frozenLevel (receiving (frozenTile .run) (.answer false 0)).core 0 = some false ∧ (frozenTile .run).core.l0.blk.isSome = true ∧
    ((frozenTile .run).regionOf 0).map (fun r => r.st) = some .run ∧
    frozenLevel (frozenTile .run).core 0x01000000 = none ∧ suspendedFor (frozenTile .run) 0 0x01000000 = none := by decide
theorem test_meets_held_answer : (frozenTile .save).regionKey 0 = some 0 ∧ ((frozenTile .save).regionOf 0).map (fun r => (r.st, r.answers)) = some (.save, []) ∧
    (frozenLevel (frozenTile .save).core 0).isSome = true := by decide

/-- A block whose slot 0, an ADD to slot 1, is owed the reply of identity 7. -/
def owedBlk : Blk := { newBlk State.reset 0 0x20 [0x14003F81, 0x14003FFF] with owed := [⟨7, 0, false, 8, none, 0, List.replicate 8 none, 0, 0⟩] }
theorem test_meets_reply : oldest (receiving (holding owedBlk) (.reply 5 false none)) isReply (msg (.reply 5 false none)) ∧
    owedLevel (holding owedBlk).core 7 = some false ∧ owedLevel (holding doneBlk).core 7 = none ∧
    (landDeliv { owedBlk with owed := [] } ⟨0, 0, 1, noT, .val 5 false, 0, none, none⟩).trap = none := by decide
theorem test_meets_reports : oldest (receiving State.reset (.atomReply 5 none)) isAtomReply (msg (.atomReply 5 none)) ∧
    oldest (receiving State.reset (.report .protection 0)) isReport (msg (.report .protection 0)) ∧
    (([⟨7, 0, false, 0⟩] : List Perf).find? (fun x => x.id == (msg .void).id)).isSome = true ∧
    oldest (receiving State.reset (.halt true)) isHalt (msg (.halt true)) ∧ oldest (receiving State.reset (.halt false)) isHalt (msg (.halt false)) := by decide

-- The SC ring, barrier lines and the ends of waits (R135, R141, R201)

/-- The ring token of partition 0 is at the tile in focus, a live one, whose SC queue is q. -/
def ringTile (q : List ScOp) (spent : Nat) : State :=
  { inPart .run with
    head := { Headland.reset with bootStep := 7 }
    core := { (inPart .run).core with ch := { CTile.reset.ch with sc := q, scSpent := spent } } }
theorem test_meets_ring : ((ringTile [] 0).parts.find? (fun x => x.2.ring == (ringTile [] 0).cur)).isSome = true ∧ (ringTile [] 0).live 0 = true ∧
    ([⟨1, org0, 0, none, false⟩, ⟨2, org0, 0x100, some 5, false⟩] : List ScOp).find? (fun x => x.data.isSome) = some ⟨2, org0, 0x100, some 5, false⟩ ∧
    (∀ x ∈ ([⟨1, org0, 0, none, false⟩] : List ScOp), x.sent = false ∧ x.data = none) ∧ (ringTile [] 16).core.ch.scSpent = 16 ∧
    oldest (receiving State.reset (.scAck none)) isScAck (msg (.scAck none)) := by decide
theorem test_meets_line : (ringTile [] 0).regionKey 0 = some 0 ∧ inRegion 0 (ringTile [] 0).core = true ∧ holdsLine (ringTile [] 0).core 7 = false ∧
    (ringTile [] 0).tiles = [] := by decide
theorem test_barrier_object : bobjUpdate (0xFFFFFFFF + 0 * 2 ^ 32 + 5 * 2 ^ 64) false = (5 * 2 ^ 64, none) ∧
    bobjUpdate (1 + 2 * 2 ^ 32 + 0xFFFFFFFF * 2 ^ 64 + (2 ^ 9 + 63 * 2 ^ 10) * 2 ^ 96) false =
      (2 * 2 ^ 32 + (2 ^ 9 + 63 * 2 ^ 10) * 2 ^ 96, some (63, 0)) := by decide
theorem test_meets_barrier_object : oldest (receiving State.reset (.bobj 63 false)) isBobj (msg (.bobj 63 false)) ∧ CTile.reset.recov.slotsUsed < 1024 ∧
    (bobjUpdate (leNat (State.reset.bytes (tileKey 0 (0x7FC00 + 16 * 63)) 16)) false).2 = none := by decide
/-- A block in which the XFLUSH of slot 0, or the ECNT, waits. -/
def waitBlk (w : WaitFor) : Blk := { newBlk State.reset 0 0x20 [0x7802FF81, 0x14003FFF] with waits := [⟨0, 0, w⟩] }
theorem test_meets_wait_end : (waitBlk (.xflush 0)).waits = [⟨0, 0, .xflush 0⟩] ∧ State.reset.inp.n = 0 ∧
    (wordInfo (((waitBlk (.xflush 0)).slots[0]?).getD (emptySlot 0)).word).isSome = true ∧
    (landDeliv { waitBlk (.xflush 0) with waits := [] } ⟨0, 0, 1, noT, .val 0 false, 0, none, none⟩).trap = none ∧
    ((holding (waitBlk (.record 0 []))).core.level true).blk = none := by decide

-- The row array, the matrix unit and the engines at work (R165, R178, R194, R330 to R338)

theorem test_meets_row_cycle : rowFrozen (frozenTile .save) = true ∧ rowFrozen rowTile = false ∧ rowTile.core.row.slots.length = 4 ∧
    rowTile.core.row.slots[3]?.map (fun r => (r.st, r.allow)) = some (.running, some 0) ∧ (∀ h ∈ rowTile.core.row.holders, h = none) ∧
    exitReady (landRow 0 { RowSlot.reset with st := .running, desc := 0x8000 }) = false ∧ RowSlot.reset.ages.length = 4 := by decide
theorem test_meets_row_end : slotComplete { RowSlot.reset with st := .running, desc := 0x8000 } = true ∧
    ({ RowSlot.reset with st := .running, stall := 256 } : RowSlot).stallSent = false := by decide
/-- A matrix operation of kind k that began in cycle b. -/
def mxOp (k : MxKind) (b : Option Nat) : MxOp := ⟨1, k, 0, org0, none, b, 0, 0, 0, none, false⟩
def matrixTile (q : List MxOp) (cyc : Nat) : State := { State.reset with core := { CTile.reset with cyc := cyc, mx := { Matrix.reset with queue := q } } }
theorem test_meets_matrix_begin : (matrixTile [mxOp (.lutsel 3) none] 0).core.mx.queue.find? (fun o => o.began.isNone) = some (mxOp (.lutsel 3) none) ∧
    ([mxOp (.lutsel 3) none].map (fun o => o.id)).Nodup ∧ mayBegin (matrixTile [mxOp (.lutsel 3) none] 0).core.mx [] (mxOp (.lutsel 3) none) 0 = true := by decide
theorem test_meets_matrix_end : endHasSpace (matrixTile [mxOp (.mclr 3) (some 0)] 64) (mxOp (.mclr 3) (some 0)) = true ∧ mxLasts (.mclr 3) ≤ 64 ∧
    0 < mxLasts (.mclr 3) := by decide
theorem test_meets_staging : (matrixTile [mxOp (.pass true 3 3 0 1) none] 0).core.mx.queue.find? (fun o => o.began.isNone && isMmas o.kind) =
      some (mxOp (.pass true 3 3 0 1) none) ∧ Matrix.reset.staging = none ∧ Matrix.reset.stageFree ≤ 0 ∧ Matrix.reset.ballast = none := by decide
/-- A stream in from the tile's store through port 0: 64 bytes at 0x100, of which n have moved. -/
def streamBind (n : Nat) (sig : Option (BitVec 3)) : Binding := ⟨3, false, [0x100, 0, 0x3F00000001, 0, 0, 0], sig, org0, n, false, false⟩
def streamTile (n : Nat) (sig : Option (BitVec 3)) : State :=
  { State.reset with core := { CTile.reset with ports := ⟨[], some (streamBind n sig), none, false, [], false⟩ :: List.replicate 7 Port.reset } }
theorem test_meets_stream_beat : ((streamTile 0 none).port 0).active = some (streamBind 0 none) ∧ apBytes (streamBind 0 none).ap = 64 ∧
    enginesStopped (streamTile 0 none) 0 = false ∧ (streamTile 0 none).core.copies = [] ∧ (apAddr (streamBind 0 none).ap 0).toNat < 0x80000 ∧
    touchesUndo (apAddr (streamBind 0 none).ap 0).toNat 64 = false ∧ (streamTile 0 none).isBad (tileKey 0 0x100) 64 = none ∧
    apRun (streamBind 0 none).ap 0 64 = 64 := by decide
theorem test_meets_stream_end : apBytes (streamBind 64 none).ap ≤ (streamBind 64 none).moved ∧ (streamBind 64 (some 6)).sig = some 6 ∧
    enginesStopped (inPart .suspended) 0 = true := by decide
theorem test_meets_stream_error : oldest (receiving (streamTile 0 none) (.engData (.port 0 3) [] false (some .protection))) isStreamError
      (msg (.engData (.port 0 3) [] false (some .protection))) ∧
    oldest (receiving (streamTile 0 (some 6)) (.engDone (.port 0 3) 0 (some .protection))) isStreamError (msg (.engDone (.port 0 3) 0 (some .protection))) ∧
    ((streamTile 0 none).port 0).pending = none ∧ (streamBind 0 none).id = 3 := by decide
theorem test_meets_generator_end : oldest (receiving State.reset (.aggoEnd 3 3 none none)) isAggoEnd (msg (.aggoEnd 3 3 none none)) ∧
    oldest (receiving State.reset (.aggoEnd 0 0 (some 6) none)) isAggoEnd (msg (.aggoEnd 0 0 (some 6) none)) := by decide

-- Memory tiles and remote stores (R125 to R130, R204, R290 to R292)

theorem test_atomic_writes : atomWrite 32 0 0xFFFFFFFF 1 none = some 0 ∧ atomWrite 32 4 0x80000000 1 none = some 0x80000000 ∧
    atomWrite 64 7 1 0xFFFFFFFFFFFFFFFF none = some 0xFFFFFFFFFFFFFFFF ∧ atomWrite 64 0 5 9 (some 5) = some 9 ∧ atomWrite 64 0 5 9 (some 6) = none := by decide

/-- Memory tile 1 of the region, next to the compute tile 2 of the same image, with segment 0 of mode md over its first 64 KiB and request b waiting. -/
def memTile (md : SegMode) (pres : List Nat) (b : Payload) : State :=
  { ringTile [] 0 with
    agent := 1
    tiles := [(2, (inPart .run).core)]
    mts := [(1, { MTile.reset with
      segs := { Segment.reset with mode := md, size := 1 } :: List.replicate 3 Segment.reset
      pres := pres
      region := some 0 })]
    inbox := [(1, [{ msg b with dst := 1 }])] }
/-- What reaches says of request b of n bytes at off in mode md. -/
def arrives (s : State) (f : Payload → Bool) (b : Payload) (md : SegMode) (off n : Nat) : Bool :=
  let m : Msg := { msg b with dst := 1 }
  decide (oldest s f m) && (s.mt 1).input.isEmpty && ownsSite (without s m) m.org 1 && decide (off + n ≤ (48 - (s.mt 1).units) * 65536) &&
    (match segOf (s.mt 1) off with
    | some x => x.2.mode == md
    | none => false) && !undoShort (without s m) 1 m off n && (s.isBad (tileKey 1 off) n).isNone

theorem test_meets_owner : arrives (memTile .owner [] (.atomic 0xFFF8 0 true 1 none true)) isAtomic (.atomic 0xFFF8 0 true 1 none true) .owner 0xFFF8 8 = true ∧
    arrives (memTile .owner [] (.store 0xFFFF 1 1)) isPlainReq (.store 0xFFFF 1 1) .owner 0xFFFF 1 = true ∧
    arrives (memTile .owner [] (.load 0 8)) isPlainReq (.load 0 8) .owner 0 8 = true ∧
    (atomBytes 0 true (State.reset.bytes (tileKey 1 0xFFF8) 8) 1 none).isSome = true := by decide
theorem test_meets_once : arrives (memTile .once [] (.sto 0xFFF8 1)) isSto (.sto 0xFFF8 1) .once 0xFFF8 8 = true ∧
    arrives (memTile .once [0x1FFF] (.sto 0xFFF8 1)) isSto (.sto 0xFFF8 1) .once 0xFFF8 8 = true ∧
    arrives (memTile .once [0] (.clro 0 16)) isClro (.clro 0 16) .once 0 128 = true ∧
    arrives (memTile .once [] (.ldo 0)) isPlainReq (.ldo 0) .once 0 8 = true ∧
    arrives (memTile .once [0] (.ldo 0)) isPlainReq (.ldo 0) .once 0 8 = true ∧
    arrives (memTile .once [0] (.store 0 1 9)) isPlainReq (.store 0 1 9) .once 0 1 = true ∧
    0 + 8 * 8192 ≤ ({ Segment.reset with mode := .once, size := 1 } : Segment).lo' + ({ Segment.reset with mode := .once, size := 1 } : Segment).bytes := by
  decide +kernel
/-- The same tile holding a deferred read of a word that is now present. -/
def heldTile : State :=
  let s := memTile .once [0] .void
  { s with inbox := [], mts := s.mts.map (fun x => (x.1, { x.2 with held := [{ msg (.ldo 0) with dst := 1 }] })) }
theorem test_meets_release : (firstFree heldTile 1 (heldTile.mt 1).held).1.isSome = true ∧ (heldTile.mt 1).held = [{ msg (.ldo 0) with dst := 1 }] ∧
    (heldTile.mt 1).input = [] ∧ ownsSite heldTile org0 1 = true ∧ (segOf (heldTile.mt 1) 0).map (fun x => x.2.mode) = some .once ∧
    0 ∈ (heldTile.mt 1).pres ∧ heldTile.isBad (tileKey 1 0) 8 = none := by decide
/-- The same tile with an AGCFG of segment 3 that waits. -/
def cfgTile : State :=
  let s := memTile .off [] .void
  { s with inbox := [], mts := s.mts.map (fun x => (x.1, { x.2 with cfgs := [{ msg (.agcfg 3 0x6000C0000 0) with dst := 1 }] })) }
theorem test_meets_waiting_agcfg : segIdle cfgTile 1 3 = true ∧ ownsSite cfgTile org0 1 = true ∧ mgetD cfgTile.inbox 1 [] = [] ∧
    segClash (cfgTile.mt 1) 3 (newSegment 0x6000C0000 0 org0) = false := by decide
theorem test_meets_agcfg : segIdle (memTile .off [] .void) 1 3 = true ∧ ownsSite (memTile .off [] .void) org0 1 = true ∧
    segClash ((memTile .off [] .void).mt 1) 3 (newSegment 0x6000C0000 0 org0) = false ∧ (newSegment 0x6000C0000 0 org0).mode = .owner ∧
    (mgetD (memTile .off [] .void).inbox 1 []).all (fun m => !isAgcfg m.body) = true := by decide
/-- A request of tile 2 waits at the compute tile 0. -/
def tileReq (b : Payload) : State := { memTile .off [] .void with agent := 0, inbox := [(0, [msg b])] }
theorem test_meets_remote : oldest (tileReq (.store 0x7FFF8 8 5)) isTileReq (msg (.store 0x7FFF8 8 5)) ∧
    tileShort (without (tileReq (.store 0x7FFF8 8 5)) (msg (.store 0x7FFF8 8 5))) 0 (msg (.store 0x7FFF8 8 5)) = false ∧
    ownsSite (without (tileReq (.store 0x7FFF8 8 5)) (msg (.store 0x7FFF8 8 5))) org0 0 = true ∧ touchesUndo 0x7FFF8 8 = false ∧
    oldest (tileReq (.load 0x60000 8)) isTileReq (msg (.load 0x60000 8)) ∧ touchesUndo 0x60000 8 = true ∧ touchesUndo 0x5FFF8 8 = false := by decide

-- Interfaces, walks and invalidation (R298 to R306, R373, R374, R439)

/-- Partition 0 with span 0 on shore actor 0, a page table at 0x1000 of that stack that maps the first GiB, and key 0 in use. -/
def mapped : State :=
  { ringTile [] 0 with
    agent := 0x10000
    parts := [(0, { part0 with mem := { part0.mem with spans := 0x4000000000000001 :: List.replicate 63 0, root := 0x1001 } })]
    head := { Headland.reset with bootStep := 7, keys := [(0, List.replicate 64 0)] }
    mem := memPuts (memPuts (memPuts [] (shoreKey 0x1000) (leBytes 8 0x2001)) (shoreKey 0x2000) (leBytes 8 0x3001)) (shoreKey 0x3000) (leBytes 8 0xF) }
def leaf0 : CLeaf := ⟨0, 0, 30, 0, 0, 0, 0, 0, true, true, none⟩
/-- An engine's read of 64 bytes at partition virtual address 0x10000. -/
def pageRead : Msg := ⟨7, 2, 0x10000, org0, .engRead (.port 0 3) 0x0100000000010000 64⟩
theorem test_meets_virtual : inputBlocked mapped 0x10000 = false ∧ mapped.portUp 0x10000 = true ∧ isShoreTok pageRead.body = false ∧
    virtReq pageRead.body = some (0x0100000000010000, 0, 64) ∧ (mget mapped.parts pageRead.org.part).isSome = true ∧
    ((mget mapped.parts 0).map (fun q => kindAt 0x10000 q.mem 0x10000)) = some (some .shore) ∧ leaf0.covers 0 0x10000 = true ∧
    (mapped.recv 0x10000).faults = [] ∧ (mapped.recv 0x10000).leaves.find? (fun x => x.covers 0 0x10000) = none := by decide
/-- The page is cached, readable if r; the stack behind it is in use. -/
def cachedPage (r : Bool) : State :=
  { mapped with
    recvs := [(0x10000, { Recv.reset with leaves := [{ leaf0 with r := r }] })]
    inbox := [(0x10000, [pageRead])]
    head := { mapped.head with hbmok := 0xFFFFFFFF } }
theorem test_meets_cached : leaf0.permits 0 = true ∧ ({ leaf0 with r := false } : CLeaf).permits 0 = false ∧ (cachedPage true).keyUsable 0 = true ∧
    mgetD (cachedPage true).inbox 0x10000 [] = [pageRead] ∧ inputBlocked (cachedPage false) 0x10000 = false ∧
    ((cachedPage true).recv 0x10000).leaves.find? (fun x => x.covers 0 0x10000) = some leaf0 ∧
    (cachedPage true).head.hbmok.getLsbD 0 = true ∧ (cachedPage true).isBad (shoreKey 0x10000) 64 = none := by decide
/-- The walk of the page of pageRead has ended. -/
def walkedPage : State :=
  { cachedPage true with recvs := [(0x10000, { Recv.reset with walks := [⟨0, 1, 0x1001, [pageRead], false, 0⟩] })], inp := Input.none }
theorem test_meets_walk_end : ((walkedPage.recv 0x10000).walks[walkedPage.inp.n]?).map (fun w => (w.noticed, w.reqs)) = some (false, [pageRead]) ∧
    (walkedPage.recv 0x10000).missq = [] ∧ (walkedPage.recv 0x10000).ins = [] ∧ (walkedPage.recv 0x10000).late = [] ∧ walkedPage.keyUsable 0 = true ∧
    1 * 65536 / 2 ^ 30 * 2 ^ 30 ≤ 0x10000 ∧ walkedPage.isBad (shoreKey 0x10000) 64 = none := by decide
theorem test_meets_walk : ((mget mapped.parts 0).map (fun q => (walkPage mapped 0x10000 q.mem ⟨0, 1, 0x1001, [pageRead], false, 0⟩).map (fun x => x.2.1))) =
      some (some (.leaf { rcl := 0, sub := 0, plc := 0, key := 0, pa := 0x10000, w := true, r := true })) ∧
    ((mget mapped.parts 0).map (fun q => (walkPage mapped 0x10000 q.mem ⟨0, 0x4000, 0x1001, [], false, 0⟩).map (fun x => x.2.1))) =
      some (some (.fault 0)) := by decide
/-- The interface's fault table holds the read of an unmapped page, and FRETRY names partition 0. -/
def faulting : State :=
  { mapped with recvs := [(0x10000, { Recv.reset with faults := [⟨0, 0x4000, 0x1001, [pageRead], false, 0⟩] })], inp := { Input.none with flag := true } }
theorem test_meets_retry : faulting.recvs.length = 1 ∧ faulting.inp.flag = true ∧ faulting.inp.p.toNat = 0 ∧ (mget faulting.parts faulting.inp.p.toNat).isSome = true ∧
    ((mget faulting.parts 0).map (fun q => (walkPage (faulting.setRecv 0x10000 Recv.reset) 0x10000 q.mem ⟨0, 0x4000, 0x1001, [pageRead], false, 0⟩).map
      (fun x => x.2.1))) = some (some (.fault 0)) := by decide
theorem test_meets_invalidation : (mget mapped.parts 0).map (fun q => q.inval) = some [] ∧
    ({ part0 with inval := [none] } : Partition).inval = [none] := by decide
theorem test_meets_interface_tokens : oldest { State.reset with agent := 0x10000, inbox := [(0x10000, [msg (.shoreTok 0 token0)])] } isShoreTok (msg (.shoreTok 0 token0)) ∧
    oldest { State.reset with agent := 0x10050, inbox := [(0x10050, [msg (.hostTok 1 token0)])] } isHostTok (msg (.hostTok 1 token0)) ∧
    oldest { State.reset with agent := 0x1004F, inbox := [(0x1004F, [msg (.collTok 6 token0)])] } isCollTok (msg (.collTok 6 token0)) ∧
    (State.reset.fjs[0x1004F - 0x10020]?).map fjEn = some false ∧
    oldest { State.reset with agent := 0x10050, inbox := [(0x10050, [msg (.creditTo (.hostIn 0 1))])] } isCredit (msg (.creditTo (.hostIn 0 1))) := by decide

/-- Shore port 0 of the interface, busy with a request; host stream 1 is not enabled; Fjoith port 47 gives no tokens onward. -/
def interfaces : State :=
  { State.reset with
    agent := 0x10000
    recvs := [(0x10000, { Recv.reset with ins := [(0, { chan0 [] with taken := 1 })] })]
    inbox := [(0x10000, [msg (.shoreTok 0 token0)])]
    queues := [(1, { base := 0, ctl := 0, head := 0, tail := 0, read := 0, port := none, chan := some (chan0 []), eos := false, placed := 0, cuts := [],
                     waitSince := none, img := none, start := none, bound := 0 })] }
theorem test_meets_busy_interface : oldest interfaces isShoreTok (msg (.shoreTok 0 token0)) ∧
    mget (interfaces.recv 0x10000).ins 0 = some { chan0 [] with taken := 1 } ∧ token0.kind ≠ 9 ∧ ((chan0 []).taken : Nat) = 0 ∧
    (mget interfaces.queues 1).map (fun q => (q.en, q.chan)) = some (false, some (chan0 [])) := by decide

-- Time, power and the scheduling of phases (R237, R350 to R363, R375)

theorem test_meets_grants : (0 : Rat) ≤ 1 ∧ (∀ c ∈ ([(0, 1)] : List (Rat × Rat)), 0 ≤ c.1 ∧ c.1 ≤ c.2) ∧ (([(0, 1)] : List (Rat × Rat)).map (fun c => c.1)).sum ≤ 1 := by
  norm_num
/-- An island that has drawn no power: every estimate is 0. -/
def idleIsland : Island := ⟨1500, 750, 16, 0, 0, false, 0, 1900, 0, 0, 0⟩
theorem est_idle (i x y : Nat) : est i idleIsland x y = 0 := by simp [est, idleIsland, Island.own, Island.ballast]
theorem test_meets_point : (1900 % 4 = 0 ∧ 500 ≤ 1900 ∧ 1900 ≤ idleIsland.fcap ∧ est 0 idleIsland 1900 16 ≤ 0 ∧
      ∀ y, y % 4 = 0 → 1900 < y → y ≤ idleIsland.fcap → ¬ est 0 idleIsland y 16 ≤ 0) ∧
    ∀ y, y % 4 = 0 → 500 ≤ y → y ≤ idleIsland.fcap → ¬ est 0 idleIsland y 16 ≤ -1 := by
  refine ⟨⟨rfl, by decide, by decide, by rw [est_idle], fun y _ h g => absurd (show y ≤ 1900 from g) (by omega)⟩, fun y _ _ _ => ?_⟩
  rw [est_idle]; decide
theorem test_meets_telemetry_period : ({ part0 with telm := 0x101 } : Partition).telm.toNat % 4 = 1 ∧
    (({ part0 with telm := 0x102, telmAt := 5 } : Partition).telm.toNat % 4 = 2 ∧ ({ part0 with telm := 0x102, telmAt := 5 } : Partition).telmAt ≠ 0) := by decide

/-- Region 0 in state g, at time t. -/
def regionAt (g : Region) (t : Nat) : State := { ringTile [] 0 with regions := [(0, g)], time := t }
theorem test_meets_move : (mget (regionAt { region0 .run with move := some ⟨0, 2, 0, 0⟩ } 5).regions 0).map (fun g => g.move) = some (some ⟨0, 2, 0, 0⟩) ∧
    moveQuiet CTile.reset = true ∧ ((regionAt (region0 .run) 5).tile? 0).isSome = true ∧ 0 + 100 ≤ 100 := by decide
/-- A program image of one region and one phase, without tasks. -/
def imageBytes : List Byte :=
  leBytes 4 1 ++ leBytes 4 128 ++ leBytes 2 1 ++ leBytes 2 1 ++ leBytes 4 2 ++ leBytes 8 64 ++ leBytes 2 0xFFFF ++ List.replicate 38 0 ++
  (leBytes 2 1 ++ leBytes 2 0xFFFF ++ leBytes 4 1 ++ leBytes 8 96) ++ (leBytes 2 2 ++ leBytes 2 0xFFFF ++ leBytes 4 1 ++ leBytes 8 112) ++
  ([0, 0, 0, 0, 4, 0] ++ List.replicate 10 0) ++ (leBytes 2 0 ++ leBytes 2 0 ++ leBytes 4 500 ++ leBytes 4 0xFFFFFFFF ++ leBytes 4 0)
/-- The image of region 0 lies at partition virtual address 0x10000, and its phase 0 is to be configured. -/
def loading : State :=
  { encWrite mapped (shoreKey 0x10000) imageBytes 0 with
    images := [(0, { image0 with image := 0x10000, len := 128, phs := [(0, 500)] })]
    regions := [(0, region0 .load)] }
theorem test_meets_configure : mayConfigure loading 0 (region0 .load) = true ∧ (mget (region0 .load).saved 0).isNone = true ∧
    (match mget loading.images 0 with
      | some m => (match readImage loading m with
        | .ok bs => bs == imageBytes && (match parseImage bs m.len with
          | some i => phaseOk loading m.inQueue m.outQueue i 0
          | none => false)
        | _ => false)
      | none => false) = true ∧ parseImage imageBytes 129 = none := by decide +kernel
theorem test_meets_preempt : (.cswpForce ∈ ({ region0 .run with causes := [.cswpForce] } : Region).causes) ∧ (region0 .run).since + (region0 .run).quantum ≤ 500 ∧
    499 < (region0 .run).since + (region0 .run).quantum ∧ (region0 .run).move = none ∧ (region0 .grace).graceEnd ≤ 20 ∧
    (∀ x ∈ regTiles (regionAt (region0 .grace) 5) 0, graceOver x.2 = true) ∧
    (regTiles (running false 0) 64).length = 0 := by decide
theorem test_meets_grace_open : ∃ x ∈ regTiles { regionAt (region0 .grace) 19 with core := { (inPart .run).core with l0 := { CTile.reset.l0 with inv := some probeInv } } } 0,
    graceOver x.2 = false := by decide
/-- Two images: region 0 runs at the island that image 1 waits for, which is mapped in a launch slot. -/
def contest (st : RegState) (f : Bool) : State :=
  { regionAt { region0 st with quiet := f, seen := some ⟨f, 0, 0⟩ } 500 with
    images := [(0, image0), (1, { image0 with queue := 1, regs := [1] })]
    regions := [(0, { region0 st with quiet := f, seen := some ⟨f, 0, 0⟩ }), (1, { region0 .free with img := 1 })]
    lslots := some ⟨1, 0⟩ :: List.replicate 63 none
    recvs := if f then [(0x10000, { Recv.reset with faults := [⟨0, 0x4000, 0x1001, [{ pageRead with org := { org0 with tile := 0 } }], false, 0⟩] })] else [] }
theorem test_meets_contention : contended (contest .run true) 0 = true := by decide
theorem test_meets_starved : quiescent (contest .run true) 0 { region0 .run with quiet := true, seen := some ⟨true, 0, 0⟩ } = true ∧
    phaseFault (contest .run true) 0 = true := by decide
/-- A region that drains in its grace; one whose move has reached step 4. -/
def draining : Region := { region0 .grace with drain := true }
theorem test_meets_drain : regionAtRest (regionAt draining 30) 0 draining = true ∧ draining.st = .grace ∧
    regionAtRest { regionAt draining 30 with core := { (inPart .run).core with ports := (streamTile 0 none).core.ports } } 0 draining = false ∧
    (mget (regionAt { region0 .run with move := some ⟨0, 2, 0, 4⟩ } 5).regions 0).map (fun g => g.move.map (fun m => m.step)) = some (some 4) := by decide
theorem test_meets_save : saveReady (regionAt (region0 .save) 5) 0 (region0 .save) = true := by decide
theorem test_meets_finish : phaseDone (regionAt { region0 .run with quiet := true, seen := some ⟨true, 0, 0⟩ } 5) 0
      { region0 .run with quiet := true, seen := some ⟨true, 0, 0⟩ } = true ∧
    nextPhase image0 = some 1 ∧ nextPhase { image0 with phase := 1 } = none ∧ nextPhase { image0 with cswp := some (0, 0) } = some 0 := by decide
def saved0 : Saved := ⟨[], [], [], 0xFFFFFFFF, 0, [], [], [], [], [], [], [], [], 0, []⟩
theorem test_meets_resumption : mget ({ region0 .load with saved := [(0, saved0)] } : Region).saved 0 = some saved0 ∧
    (regionAt (region0 .load) 5).settled (0 / 256) saved0.rin = true := by decide

/-- A queue of partition 0 with control word c, one entry in its ring at host address 0x1000. -/
def queue0 (c : Word) : Queue :=
  { base := 0x1000, ctl := c, head := 0, tail := 1, read := 0, port := none, chan := none, eos := false, placed := 0, cuts := [], waitSince := none,
    img := none, start := none, bound := 0 }
/-- LAUNCH queues 0 and 1 wait for a slot since the times a and b; port 0 is up. -/
def waitingQueues (a b : Nat) : State :=
  { regionAt (region0 .free) 1000 with
    queues := [(0, { queue0 0x8000000000000000 with waitSince := some a }), (1, { queue0 0x8000000000000000 with waitSince := some b })]
    images := []
    ports := ⟨true, false, 0⟩ :: List.replicate 3 ⟨false, false, 0⟩ }
theorem test_meets_slot : (dropSlots (waitingQueues 7 5) (slotIdle (waitingQueues 7 5))).lslots.findIdx? Option.isNone = some 0 ∧
    oldestWaiting (dropSlots (waitingQueues 7 5) (slotIdle (waitingQueues 7 5))) = some 1 ∧ (waitingQs (waitingQueues 7 5)).length = 2 := by decide
/-- Image 0 waits for its free region; its last power was p. -/
def pickable (p : Nat) : State :=
  { regionAt (region0 .free) 1000 with images := [(0, { image0 with powers := [(0, p)] })], lslots := some ⟨0, 0⟩ :: List.replicate 63 none }
theorem test_meets_pick : (pickPhase (pickable 28000000)).map (fun w => w.2.2) = some 0 ∧ (pickPhase (startImages (pickable 28000001))).map (fun w => w.2.2) = some 0 := by
  decide

-- Recovery (R386 to R406)

/-- Partition 0 with a wave that closes interval 0: c says whether it is complete; its actor 0 at the tile in focus has an output. -/
def waving (c : Bool) : State :=
  { ringTile [] 0 with
    parts := [(0, { part0 with cur := 1, wave := some ⟨0, [], true, c, [], [], false⟩, cuts := [(0, ⟨[], [], [], []⟩)] })]
    core := { (inPart .run).core with ch := { CTile.reset.ch with tasks := [(0, 0x80)], outs := [(7, ⟨.chan 2 63, 1, 1, 0, 0, false⟩)] } } }
/-- The same tile with its actor aligned; then in the next interval. -/
def aligned : State := { waving false with core := { (waving false).core with recov := { CTile.reset.recov with aligned := [(0, 0)] } } }
def cutOver (c : Bool) (counts : Map (Nat × Nat)) : State :=
  { waving c with core := { (waving c).core with recov := { CTile.reset.recov with rin := 1 }, ch := { (waving c).core.ch with counts := counts } } }

theorem test_meets_wave_start : waveFree { part0 with pend := true } = true ∧ (part0.sealed = part0.cur - 1) ∧ part0.wave = none ∧
    (part0.dom = 0 ∨ part0.master = true) ∧ waveFree part0 = false := by decide
/-- Partition 0 belongs to domain 3, whose seal master is another module; Fjoith port 0 leads there. -/
def otherModule : State :=
  { ringTile [] 0 with
    parts := [(0, { part0 with dom := 3 , master := false })]
    fjs := List.replicate 48 { FjPort.reset with bind := 0x8002010000030000, peer := 0x8001020000030000, lanes := 8 } }
theorem test_meets_wave_request : (mget otherModule.parts otherModule.inp.p.toNat).map (fun q => (q.dom == 0, q.master, q.pend)) = some (false, false, false) ∧
    domPorts otherModule 0 ≠ [] := by decide
theorem test_meets_align : waveAt (waving false) (waving false).core = some 0 ∧ alignReady (waving false).core 0 0 = true ∧ 0 ∈ actorsOf (waving false).core ∧
    (mget (waving false).core.ch.outs (0 * 8 + 7)).map (fun o => o.dest) = some (.chan 2 63) := by decide
theorem test_meets_cut : waveAt aligned aligned.core = some 0 ∧ cutReady aligned.core 0 = true ∧
    ((aligned.regionOf 0).bind (fun g => g.move)).any (fun m => m.src == 0 || m.dst == 0) = false ∧
    ((mget aligned.parts 0).bind (fun q => mget q.cuts 0)).isSome = true := by decide
/-- Memory tile 1 of the same region, which has not cut. -/
def cutting : State := { waving false with agent := 1, mts := [(1, { MTile.reset with region := some 0 })] }
theorem test_meets_agent_cut : isCTile 1 = false ∧ (mget cutting.parts (cutting.mPart 1)).isSome = true ∧ later (cutting.mt 1).rin 0 = false ∧
    (cutting.mt 1).sweep = false := by decide
theorem test_meets_wave_complete : waveDone (cutOver false []) 0 { part0 with cur := 1, wave := some ⟨0, [], true, false, [], [], false⟩ } ⟨0, [], true, false, [], [], false⟩ = true ∧
    imbalance (cutOver false []) 0 0 = none ∧ (cutOver false []).replays = [] := by decide
/-- Two ports of equal weight of actor 0, one of which carried a token in interval 0. -/
def unbalanced : State :=
  let s := cutOver false [(countKey false 7 0, (1, 0))]
  { s with core := { s.core with ch := { s.core.ch with outs := [(7, ⟨.chan 0 63, 1, 1, 0, 0, false⟩)] } } }
theorem test_meets_imbalance : (imbalance unbalanced 0 0).isSome = true ∧
    waveDone unbalanced 0 { part0 with cur := 1, wave := some ⟨0, [], true, false, [], [], false⟩ } ⟨0, [], true, false, [], [], false⟩ = true := by decide
theorem test_meets_seal : writesOpen (cutOver true []) 0 0 = false ∧ sweepsDone (cutOver true []) 0 = true ∧ (domTiles (cutOver true []) 0).length = 1 ∧
    (cutOver true []).agent = (cutOver true []).cur ∧ isCTile 0 = true := by decide
theorem test_meets_rollback : (partAt State.reset 0 (tileKey 0 0x7FFFF), Cause.uncorrectable, tileKey 0 0x7FFFF) ∉ State.reset.replays ∧
    tileKey 0 0x7FFFF < 0x1000000000000000 ∧ (mget (inPart .run).parts (inPart .run).inp.p.toNat).isSome = true := by decide
theorem test_meets_backwash : later (5 : BitVec 32) 4 = true ∧ later (4 : BitVec 32) 4 = false ∧ later (0 : BitVec 32) 0xFFFFFFFF = true ∧
    (⟨5, 3, [1], [], none, 0⟩ : UndoSlot).key = none := by decide

-- The fabric and the Fjoith links (R410 to R431)

theorem test_meets_connection : outEntry State.reset 0 2 = none ∧ (0 : Nat) ≠ 2 ∧ freeIndex State.reset 0 = some 0 ∧
    mget (State.reset.iface 2).ents 0 = none := by decide
/-- Tile 0 has asked for a connection to tile 2. -/
def asking : State := { ringTile [] 0 with fabric := { Fabric.reset with setups := [(0, 2)] } }
theorem test_meets_setup : asking.fabric.setups = [(0, 2)] ∧ asking.landing 2 = 2 ∧ outEntry asking 0 2 = none ∧ freeIndex asking 0 = some 0 ∧
    freeIndex asking 2 = some 0 := by decide
theorem test_meets_route : deadEnd (ringTile [] 0) 2 = false ∧ (turnList (ringTile [] 0) 0 2).isSome = true := by decide
/-- An entry of interface 0 to site 2 with n flits unacknowledged. -/
def out0 (n : BitVec 6) : Entry := ⟨.out, false, false, 0, 2, none, 0, n, 0, [(1, 2)], 0, none, none, 0, 0⟩
def inn0 (v : BitVec 4) : Entry := ⟨.inn, false, false, 0, 2, none, v, 0, 0, [(1, 2)], 1, some 0, none, 0, 0⟩
def faceOf (e : Entry) : State :=
  { ringTile [] 0 with fabric := { Fabric.reset with ifs := [(0, { ents := [(0, e)], shadow := [], retry := [], grace := false })] } }
theorem test_meets_injection : outEntry (faceOf (out0 31)) 0 2 = some (0, out0 31) ∧ unacked (out0 31) = 31 ∧ unacked (out0 32) = 32 ∧
    ((faceOf (out0 31)).iface 0).retry.length < retryCap 0 ∧ (out0 31).dead = false := by decide
/-- A flit at site 0 that goes east, or one that has arrived. -/
def flit0 (route : BitVec 46) (b : FlitBody) (place : Nat) : Flit := ⟨0, 0, 0, route, b, place, none⟩
def flying (f : Flit) (e : Entry) : State := { faceOf e with fabric := { (faceOf e).fabric with flits := [f] } }
theorem test_meets_hop : (flying (flit0 9 (.msg (msg .void)) 0) (out0 0)).net = [] ∧
    ((steer (ringTile [] 0) (flit0 9 (.msg (msg .void)) 0)).map (fun g => decide (g.place < 0x40000))) = some true ∧
    ((steer (ringTile [] 0) (flit0 0 (.msg (msg .void)) 0)).map (fun g => g.place)) = some (0x40000 + 0) := by decide
theorem test_meets_receive : (flying (flit0 0 (.msg (msg .trapGrant)) 0x40000) (inn0 0)).fabric.flits.find? (fun f => f.place == 0x40000 + 0 && (match f.body with
      | .msg _ => true
      | .ack _ => false)) = some (flit0 0 (.msg (msg .trapGrant)) 0x40000) ∧
    mget ((flying (flit0 0 (.msg (msg .trapGrant)) 0x40000) (inn0 0)).iface 0).ents 0 = some (inn0 0) ∧ (inn0 0).nseq = 0 ∧
    (flying (flit0 0 (.msg (msg .trapGrant)) 0x40000) (inn0 0)).aliasOf 0 = 0 ∧ (inn0 0).fresh ≠ 0 ∧
    (flit0 0 (.msg (msg .void)) 0).seq ≠ ({ inn0 0 with nseq := 1 } : Entry).nseq := by decide
theorem test_meets_ack : (flying (flit0 0 (.ack false) 0x40000) (out0 1)).fabric.flits.find? (fun f => f.place == 0x40000 + 0 && (match f.body with
      | .msg _ => false
      | .ack _ => true)) = some (flit0 0 (.ack false) 0x40000) ∧
    ((0 : BitVec 6) + 1 - (out0 1).aseq).toNat ≤ unacked (out0 1) ∧ unacked (out0 0) < ((0 : BitVec 6) + 1 - (out0 0).aseq).toNat ∧
    unacked (out0 1) ≠ 0 ∧ (out0 1).prog + 8 ≤ 8 := by decide
theorem test_meets_deaths : (State.reset.link 1).dead = false ∧ inField 0 = true ∧ ((ringTile [] 0).site 0).dead = false ∧
    holdsState (ringTile [] 0) 0 = true ∧ (({ State.reset with fabric := { Fabric.reset with links := [(1, ⟨true, 0, []⟩)] } } : State).link 1).dead = true := by decide
/-- A flip of region 0 in course, its FLIP sent at t. -/
def flip0 (t : Option Nat) : FlipJob := ⟨[(0, 5)], 0, t, none, []⟩
theorem test_meets_flip : (flip0 none).sent = none ∧ (flip0 none).moved = none ∧ ((flip0 none).regions.map (fun x => x.1)).Nodup ∧
    (flip0 (some 3)).sent.isSome = true ∧ (mget (inPart .run).regions 0).isSome = true := by decide
/-- Fjoith port 47 of module 1 toward module 2, bound to partition 0 of domain 3, with 8 lanes. -/
def link47 : FjPort :=
  { FjPort.reset with bind := 0x8002010000030000, peer := 0x8001020000030000, lanes := 8, sent := [⟨false, [], 0, 0, [0, 0, 0, 0], true⟩] }
def frame0 (ok : Bool) (b : List FjBody) : Frame := ⟨false, b, 0, 0, [0, 0, 0, 0], ok⟩
def linked47 (ok : Bool) (b : List FjBody) : State :=
  { inPart .run with
    agent := 0x1004F
    parts := [(0, { part0 with dom := 3 })]
    fjs := List.replicate 47 FjPort.reset ++ [link47]
    inp := { Input.none with frame := some (frame0 ok b), n := 47 } }
theorem test_meets_frame_receive : (linked47 true []).fjs[0x1004F - 0x10020]? = some link47 ∧ linkOk (linked47 true []) link47 = true ∧
    (frame0 true []).fseq = link47.expect ∧ (frame0 false []).ok = false ∧ link47.sent ≠ [] ∧ link47.prog + 4 ≤ 4 ∧ FjPort.reset.lanes = 0 ∧
    0 < (linked47 true []).inp.n := by decide
theorem test_meets_control : (linked47 true [.sealed 0]).fjs[47]? = some link47 ∧ (mget (linked47 true []).parts (fjPart link47)).isSome = true ∧
    (linked47 true [.sealed 0]).settled (fjPart link47) 0 = false ∧ part0.wave = none := by decide

-- Host, management, firmware and energy (R433 to R455)

/-- Partition definition 1: islands (0, 0) to (32, 31), keys and queues from 0. -/
def defined (w0 : Word) : State :=
  { State.reset with
    inp := { Input.none with p := 1 }
    ports := [⟨true, true, 63⟩, ⟨false, false, 0⟩, ⟨false, false, 0⟩, ⟨false, false, 0⟩]
    head := { Headland.reset with bootStep := 7, partdefs := [(1, ⟨w0, 0, 0, 0⟩)] } }
theorem test_meets_create : createError (defined 0x02003E0000000000) 1 ((defined 0x02003E0000000000).partdef 1).fields = 0 ∧
    ((defined 0x02003E0000000000).partdef 1).fields.ix1 = 32 ∧ ((defined 0x02003E0000000000).partdef 1).fields.iy1 = 31 ∧
    funcEnabled (defined 0x02003E0000000000) 1 = true ∧ mget (defined 0x02003E0000000000).parts 1 = none ∧
    createError (defined 0x0210000000000000) 1 ((defined 0x0210000000000000).partdef 1).fields = 1 := by decide
theorem test_meets_delete : part0.deleting = false ∧ hasWork (waitingQueues 0 0) 0 (queue0 0x8000000000000000) = true ∧
    ({ part0 with deleting := true } : Partition).deleting = true ∧
    (inPart .run).queues.all (fun x => !hasWork (inPart .run) x.1 x.2) = true := by decide
theorem test_meets_queue : (queue0 0).typ = some .launch ∧ (queue0 1).typ = some .input ∧ (queue0 2).typ = some .output ∧ 0 < part0.qcnt ∧
    (queue0 0).entry 0 = hostKey 0x1000 := by decide
/-- LAUNCH queue 0 in a slot, with the record given in its ring; INPUT queue 0 bound to channel 63 of tile 2. -/
def reading (c : Word) (o : Option OutPort) (rec : List Byte) : State :=
  { waitingQueues 0 0 with
    queues := [(0, { queue0 c with port := o })]
    lslots := some ⟨0, 0⟩ :: List.replicate 63 none
    mem := memPuts [] (hostKey 0x1000) rec }
theorem test_meets_launch_record : mayRead (reading 0x8000000000000000 none (leBytes 8 0x10000)) 0 (queue0 0x8000000000000000) = true ∧
    (launchRecord (reading 0x8000000000000000 none (leBytes 8 0x10000)) 0 ((reading 0x8000000000000000 none (leBytes 8 0x10000)).bytes (hostKey 0x1000) 64)).isSome = true ∧
    launchRecord State.reset 0 (leBytes 64 1) = none := by decide
theorem test_meets_input_record : mayRead (reading 0x8000000000000001 (some ⟨.chan 2 63, 1, 1, 0, 0, false⟩) []) 0
      { queue0 0x8000000000000001 with port := some ⟨.chan 2 63, 1, 1, 0, 0, false⟩ } = true ∧
    (inputToken (State.reset.bytes (hostKey 0x1000) 64) 0).isSome = true := by decide
theorem test_meets_key_command : keyBusy State.reset 4095 = false ∧ keyBusy { inPart .run with parts := [(0, part0)] } 0 = true ∧
    (leBytes 64 1).take 32 ≠ (leBytes 64 1).drop 32 ∧ (List.replicate 64 (0 : Byte)).take 32 = (List.replicate 64 (0 : Byte)).drop 32 ∧
    ¬(part0.mem.kfirst ≤ 4 ∧ 4 < part0.mem.kfirst + part0.mem.kcnt) := by decide
theorem test_meets_register : part0.mem.spans.length = 64 ∧ (0x201F8 : BitVec 18) = BitVec.ofNat 18 (0x20000 + 8 * 63) ∧ (0x20201 : BitVec 18).toNat % 8 ≠ 0 := by decide
theorem test_meets_management : (∃ x ∈ ([(⟨.smbus, 3⟩, [])] : List (MctpEp × List Byte)), x.1 = ⟨.smbus, 3⟩) ∧
    (∀ x ∈ State.reset.head.mctpReplies, x.1 ≠ ⟨.vdm, 3⟩) ∧
    mget ([(64, ⟨5, 0, 6, 1, 2⟩)] : Map Energy) 64 = some ⟨5, 0, 6, 1, 2⟩ := by decide
theorem test_meets_firmware : State.reset.head.fwResult ≠ 1 ∧ ({ Headland.reset with fwResult := 1 } : Headland).fwResult = 1 ∧
    ({ Fuses.built with minSvn := 0 } : Fuses).minSvn < ({ Headland.reset with fwSvn := 1 } : Headland).fwSvn.toNat ∧
    ({ Headland.reset with bootStep := 7 } : Headland).bootStep = 7 ∧ Headland.reset.bootStep ≠ 7 := by decide

/-- A module whose two slots hold a and b, with fuse parity p. -/
def built (a b : List Byte) (p : Bool) : State := { State.reset with fuses := { Fuses.built with slotA := a, slotB := b, parityOk := p, minSvn := 0 } }
theorem test_meets_no_slot : bootSlot (built [] [] true) = none := by
  have h : slotCheck (built [] [] true) [] ≠ 2 := by
    unfold slotCheck
    split
    · decide
    · rw [if_pos (by decide)]; decide
  simp only [bootSlot, built] at h ⊢
  simp [h]
/-- Whether a slot boots rests on the free value Config.verifies; where it accepts the contents, the slot runs. -/
theorem test_meets_slot_a (h : Config.verifies 0 (List.replicate 8 0) [] = true) (n : 8 ≤ Config.slotBytes) :
    bootSlot (built (List.replicate 8 0) [] false) = some false ∧ mapError (built (List.replicate 8 0) [] false).fuses = 5 := by
  have a : slotCheck (built (List.replicate 8 0) [] false) (List.replicate 8 0) = 2 := by
    unfold slotCheck
    have e : (List.replicate 8 (0 : Byte)).take (slotBody (List.replicate 8 0)) = List.replicate 8 0 := by decide
    have d : (List.replicate 8 (0 : Byte)).drop (slotBody (List.replicate 8 0)) = [] := by decide
    rw [if_neg (by simp only [List.length_replicate]; omega), if_neg (by decide), e, d, h]
    decide
  have b : slotCheck (built (List.replicate 8 0) [] false) [] ≠ 2 := by
    unfold slotCheck
    split
    · decide
    · rw [if_pos (by decide)]; decide
  refine ⟨?_, rfl⟩
  rw [bootSlot, show (built (List.replicate 8 0) [] false).fuses.slotA = List.replicate 8 0 from rfl,
    show (built (List.replicate 8 0) [] false).fuses.slotB = [] from rfl]
  simp only [a, b, not_false_eq_true, true_or, and_self, if_true]

-- The step (R60, R240, R458)

theorem test_meets_step : State.reset.agenda.length = 1 ∧ (State.reset.withFetchWord 32 0x14003F85).agenda = [] ∧
    pickSlot (State.reset.withFetchWord 32 0x14003F85) = some 0 ∧
    (decode 0x14003F85 = .ok (.add 0 0x7F 5)) ∧ encode (.add 0 0x7F 5) = some 0x14003F85 := by decide
/-- Nothing is due anywhere. -/
def still : State := { State.reset with agenda := [] }
theorem test_meets_idle : pickSlot still = none ∧ tileStep still = none ∧ nextArrival still = none ∧ askingAgent still = none ∧ fabricStep still = none ∧
    moduleStep still = none := by decide
theorem test_step_runs_word : (match step (State.reset.withFetchWord 32 0x14003F85) with
    | .next t => (t.blk?.bind (fun b => b.slots[0]?)).map (fun x => x.st)
    | _ => none) = some .fired := by decide
theorem test_reset_memory : memWf State.reset.mem = true := by decide

-- Clauses about traps of words, landings, copies, generators, walks, time, waves and links

theorem test_meets_sendm_traps : wit withChannels [.sendm 0 0 0 3 6 0] bad (ok 0) (ok 0) (fun _ x => x.lp) = true ∧
    wit withChannels [.sendm 0 0 0 3 6 0] (ok 4) (ok 0) (ok 0) (fun _ x => x.l.toNat % 8 != 0) = true ∧
    wit withChannels [.sendm 0 0 0 3 6 0] (ok 0x7FFE8) (ok 0) (ok 0) (fun _ x => decide (0x80000 < x.l.toNat + 32)) = true ∧
    wit withChannels [.sendm 0 0 0 3 6 0] (ok 0x6FFF8) (ok 0) (ok 0) (fun _ x => decide (x.l.toNat < 0x70000 ∧ 0x60000 < x.l.toNat + 32)) = true ∧
    wit withChannels [.sendm 0 0 0 3 5 0] (ok 0) (ok 0) (ok 0) (fun s x => (localTrap x.l x.lp 8 32 0x7FFFF).isNone && (s.out? s.act 5).isNone) = true := by decide
/-- The ranges of an MMA or MMAS whose operands are l and r. -/
def passRanges (mmas : Bool) (x : Args) : List (Nat × Nat) := mxRanges mmas 3 (mxK x.l) x.l ++ mxRanges mmas 4 (mxK x.l) x.r
theorem test_meets_pass_ranges : wit State.reset [.mma 0 3 4 0 0] (ok 0) (ok 0x7FC00) (ok 0) (fun _ x => passRanges false x == [(0, 2048)] ++ (0x7FC00, 2048) :: []) = true ∧
    wit State.reset [.mma 0 3 4 0 0] (ok 0) (ok 0x60000) (ok 0) (fun _ x => passRanges false x == [(0, 2048)] ++ (0x60000, 2048) :: []) = true ∧
    wit State.reset [.mmas 0 3 4 0 0] (ok 0x1000000000000) (ok 0x1000000400000) (ok 0)
      (fun _ x => passRanges true x == [(0, 64)] ++ (8, 64) :: [] && !mxDescBad true 3 x.l false && !mxDescBad true 4 x.r true) = true ∧
    wit State.reset [.mmas 0 3 4 0 0] (ok 0x1000000000000) (ok (2 ^ 48 + 0x7FC00 * 2 ^ 19)) (ok 0) (fun _ x => passRanges true x == [(0, 64)] ++ (0x7FC00, 64) :: []) = true ∧
    wit State.reset [.mmas 0 3 4 0 0] (ok 0x1000000000000) (ok (2 ^ 48 + 0x60000 * 2 ^ 19)) (ok 0) (fun _ x => passRanges true x == [(0, 64)] ++ (0x60000, 64) :: []) = true := by decide
theorem test_meets_drain_traps : wit withChannels [.mdrain 0 0 3 2 0 0] (ok 8) (ok 0) (ok 0) (fun _ x => x.l.toNat % 2 ^ 19 % 16 != 0) = true ∧
    wit withChannels [.mdrain 0 0 3 2 0 0] (ok 0x7FC00) (ok 0) (ok 0) (fun _ x => decide (0x7FC00 < x.l.toNat % 2 ^ 19 + drainBytes 0)) = true ∧
    wit withChannels [.mdrain 0 0 3 2 0 0] (ok 0x60000) (ok 0) (ok 0) (fun _ x => decide (x.l.toNat % 2 ^ 19 < 0x70000 ∧ 0x60000 < x.l.toNat % 2 ^ 19 + drainBytes 0)) = true ∧
    wit withChannels [.mdrain 0 0 3 2 0 0] (ok 0xD00070000) (ok 0) (ok 0)
      (fun s x => x.l.getLsbD 35 && decide (rangeOk (x.l.toNat % 2 ^ 19) 16 (drainBytes 0)) && (s.out? s.act (x.l.extractLsb' 32 3)).isNone) = true := by decide

/-- A result of slot 0 on its way to slot 1's left operand, due in cycle 1. -/
def flying1 : Blk := { newBlk State.reset 0 0x20 [0x14003F81, 0x14003FFF] with fly := [⟨1, 0, 1, noT, .val 5 false, 0, none, none⟩] }
theorem test_meets_landing : canCommit flying1 = false ∧ flying1.phase = .running ∧ flying1.trap = none ∧ flying1.pend = none ∧ flying1.waits = [] ∧
    (landTarget flying1.slots 1 ⟨.val 5 false, 0⟩).2 = none ∧ (landDue 1 flying1).pend = none ∧ (∀ d ∈ flying1.fly, ¬ 1 < d.due) := by decide
/-- A block that waits for row slot 3 to drain. -/
def drainBlk : Blk := { newBlk State.reset 0 0x20 [0x7802FF81, 0x14003FFF] with waits := [⟨0, 0, .rowIdle (some 3)⟩] }
theorem test_meets_row_landing : slotComplete { RowSlot.reset with st := .running, desc := 0x8000 } = true ∧ drainBlk.waits = [⟨0, 0, .rowIdle (some 3)⟩] ∧
    drained State.reset (some 3) = some (rowStatus RowSlot.reset) ∧ (wordInfo ((drainBlk.slots[0]?).getD (emptySlot 0)).word).isSome = true := by decide
/-- The grace of the region is over while a block with a RUNNING row slot waits to commit. -/
def stuck : State :=
  { holding { rowBlk with phase := .commitWait } with
    parts := [(0, part0)], images := [(0, image0)], regions := [(0, draining)]
    core := { (holding { rowBlk with phase := .commitWait }).core with row := rowTile.core.row, sys := { CTile.reset.sys with part := some 0 } } }
theorem test_meets_row_stuck : (stuck.regionOf stuck.cur).map (fun g => g.past) = some true ∧
    (stuck.blk?.map (fun b => (commitHold stuck b).row && !(commitHold stuck b).undo && !(commitHold stuck b).other)) = some true := by decide
theorem test_meets_whole_forward : (fwdBytes (holding { rowBlk with stores := [⟨1, some 0, .sto 0x0001000000000000 5, 0, 0⟩] }) 2 0x0001000000000000 8).1.all Option.isSome = true := by
  decide

/-- Phase 1 of the region is suspended with a frozen invocation of tile 0. -/
def frozenAway : State :=
  { inPart .run with regions := [(0, { region0 .run with saved := [(1, { saved0 with tiles := [(0, (frozenTile .run).core)] })] })] }
theorem test_meets_suspended_answer : suspendedFor frozenAway 0 0 = some (0, 1) ∧ frozenLevel frozenAway.core 0 = none ∧ (∀ x ∈ saved0.answers, x.2.2 ≠ 0) ∧
    (∃ x ∈ ({ region0 .save with answers := [(0, false, 0)] } : Region).answers, x.2.2 = 0) := by decide
theorem test_meets_unconfigured : State.reset.core.sys.part = none ∧ (inPart .run).core.sys.part.isSome = true := by decide

/-- A copy of 128 bytes from 0x100 to 0x1000 in its own tile's store, m bytes done and buf read. -/
def copy0 (m : Nat) (buf : List Byte) : Copy := ⟨3, 0x100, 0x1000, 128, some 5, false, org0, m, buf, false, none, false⟩
def copying (x : Copy) : State := { State.reset with core := { CTile.reset with copies := [x] } }
theorem test_meets_copy_beat : copyChunk (copy0 0 []) = 64 ∧ ((0x100 : Word) + BitVec.ofNat 64 0).toNat < 0x80000 ∧ touchesUndo 0x100 64 = false ∧
    enginesStopped (copying (copy0 0 [])) 0 = false ∧ (copying (copy0 0 [])).isBad (tileKey 0 0x100) 64 = none ∧
    (∀ p, p < 8 → ((copying (copy0 0 [])).port p).active = none) ∧ touchesUndo 0x1040 64 = false ∧ CTile.reset.recov.slotsUsed < 1024 ∧
    0 + (List.replicate 64 1).length < 128 ∧ 128 ≤ 64 + (List.replicate 64 1).length ∧
    placeOf State.reset 0x100 = some (0, 0x100) ∧ placeOf State.reset 0x1000 = some (0, 0x1000) ∧ overlaps 0x100 128 0x1000 128 = false := by decide
/-- Generator 0 of memory tile 1 runs a command of tile 2. -/
def gen0 (m : Nat) (buf : List Byte) (w : Bool) : Gen := ⟨0, 2, 0, [0x400000, 0, 0x3F00000001, 0, 0, 0], [0x100, 0, 0x3F00000001, 0, 0, 0], some 6, org0, m, buf, w, 0, 9⟩
def generating (x : Gen) : State :=
  let s := memTile .off [] .void
  { s with inbox := [], mts := s.mts.map (fun y => (y.1, { y.2 with gens := [x] })) }
theorem test_meets_generator_beat : (generating (gen0 0 [] false)).agent ≠ (generating (gen0 0 [] false)).cur ∧ enginesStopped (generating (gen0 0 [] false)) 1 = false ∧
    ((generating (gen0 0 [] false)).mt 1).gens = [gen0 0 [] false] ∧ apBytes (gen0 0 [] false).src = 64 ∧
    storeAhead (generating (gen0 0 [] false)) 1 (gen0 0 [] false) = false := by decide
/-- A store of tile 2 to another tile is on its way. -/
def storeOnWay : State :=
  let s := generating (gen0 0 [] false)
  { s with tiles := s.tiles.map (fun x => (x.1, { x.2 with ch := { x.2.ch with perf := [⟨8, 0, false, 0x0001000000000000⟩] } }))
           net := [{ msg (.store 0 8 5) with id := 8 }] }
theorem test_meets_store_ahead : storeAhead storeOnWay 1 (gen0 0 [] false) = true := by decide
def answering (b : Payload) : State :=
  { generating (gen0 0 [1] true) with inbox := [(1, [{ msg b with dst := 1 }])] }
theorem test_meets_generator_replies : oldest (answering (.engData (.gen 0) [1] false none)) isEngReply { msg (.engData (.gen 0) [1] false none) with dst := 1 } ∧
    oldest (answering (.engDone (.gen 0) 64 none)) isEngReply { msg (.engDone (.gen 0) 64 none) with dst := 1 } ∧
    0 + 32 < apBytes (gen0 0 [] false).src ∧ apBytes (gen0 0 [] false).src ≤ 0 + 64 := by decide

/-- The page of pageRead was faulting; since then its leaf permits reading, or is still unreadable. -/
def released (r : Bool) : State :=
  { mapped with
    head := { mapped.head with hbmok := 0xFFFFFFFF }
    mem := memPuts mapped.mem (shoreKey 0x3000) (leBytes 8 (if r then 0xF else 0xD))
    recvs := [(0x10000, { Recv.reset with faults := [⟨0, 1, 0x1001, [pageRead], true, 0⟩] })], inp := { Input.none with flag := true } }
theorem test_meets_released_page : [false, true].map (fun r => ((mget mapped.parts 0).map (fun q =>
      (walkPage ((released r).setRecv 0x10000 Recv.reset) 0x10000 q.mem ⟨0, 1, 0x1001, [pageRead], true, 0⟩).map (fun x => match x.2.1 with
        | .leaf l => some l.r
        | .fault _ => none)))) = [some (some (some false)), some (some (some true))] ∧ (released true).isBad (shoreKey 0x10000) 64 = none := by decide
theorem test_meets_old_walk : (∃ w ∈ ([⟨0, 1, 0x2001, [], false, 0⟩] : List PageWait), w.part = 0 ∧ w.noticed = false ∧ w.root ≠ (0x1001 : Word)) ∧
    ((mget mapped.parts 0).map (fun q => q.mem.root)) = some 0x1001 ∧ 0 < faultRoom (mapped.recv 0x10000) 0 := by decide

theorem test_meets_time : inField State.reset.agent = true ∧ isCTile 0 = true ∧ CTile.reset.sys.tlost = none ∧ (1023 + 1) % 1024 = 0 ∧
    ({ CTile.reset with sys := { CTile.reset.sys with tlost := some (3, 0) } } : CTile).sys.tlost = some (3, 0) := by decide
theorem test_meets_heat : (∃ x ∈ ([⟨5, 1, 1760⟩] : List IslandMeasure), x.island.toNat < 1056 ∧ 1760 ≤ x.temp) ∧
    ({ Input.none with flow := some (21000, 30000) } : Input).flow = some (21000, 30000) := by decide
/-- Another module's Headland is the master of the domain of partition 0, whose wave is complete here. -/
def slaveWave : Partition := { part0 with dom := 3, master := false, cur := 1, wave := some ⟨0, [], true, true, [0], [], false⟩ }
theorem test_meets_slave : slaveWave.dom ≠ 0 ∧ slaveWave.master = false ∧ sealMaster slaveWave = false ∧ (slaveWave.wave.map (fun w => (w.complete, w.told))) = some (true, false) ∧
    writesOpen { cutOver true [] with parts := [(0, slaveWave)] } 0 0 = false ∧ sweepsDone { cutOver true [] with parts := [(0, slaveWave)] } 0 = true ∧
    domPorts { cutOver true [] with parts := [(0, slaveWave)] } 0 = [] := by decide
theorem test_meets_open_seal : sealItem 0 ⟨0, .sealed, Input.none⟩ = true ∧ (∀ i ∈ still.agenda, sealItem 0 i = false) ∧ sealMaster part0 = true := by decide
theorem test_meets_known_imbalance : (imbalances unbalanced 0 0).length = 1 ∧ (∀ x ∈ imbalances unbalanced 0 0,
      (0, Cause.tokenImbalance, x.1 * 4096 + x.2) ∈ ([(0, .tokenImbalance, 7 * 0 + x.1 * 4096 + x.2)] : List (Nat × Cause × Nat)) ∧
      (0, Cause.tokenImbalance, x.1 * 4096 + x.2) ∉ unbalanced.replays) := by decide
theorem test_meets_movable : (flying (flit0 9 (.msg (msg .void)) 0) (out0 0)).fabric.flits.find? (movable (flying (flit0 9 (.msg (msg .void)) 0) (out0 0))) =
      some (flit0 9 (.msg (msg .void)) 0) ∧
    (faceOf (out0 0)).fabric.flits.find? (movable (faceOf (out0 0))) = none ∧
    15 ≤ ((List.replicate 15 (1, 0) : List (Nat × Nat)).filter (fun x => decide (x.1 = 1 ∧ 0 ≤ x.2 + 1))).length := by decide
theorem test_meets_ack_timer : mget ((faceOf { inn0 0 with fresh := 1, since := some 0 }).iface 0).ents 0 = some { inn0 0 with fresh := 1, since := some 0 } ∧
    State.reset.core.elapsed < 0 + 500000000 ∧ ackDue { faceOf (inn0 0) with core := { CTile.reset with elapsed := 500000000 } }
      { inn0 0 with fresh := 1, since := some 0 } = true := by decide
theorem test_meets_control_requests : (linked47 true [.cause]).inp.frame.map (fun x => x.slots) = some [.cause] ∧
    (linked47 true [.written 0]).inp.frame.map (fun x => x.slots) = some [.written 0] ∧ (linked47 true [.rollback 4]).inp.frame.map (fun x => x.slots) = some [.rollback 4] ∧
    (linked47 true [.ask]).inp.frame.map (fun x => x.slots) = some [.ask] ∧ (∀ i ∈ still.agenda, sealItem 0 i = false) := by decide
theorem test_meets_window : (State.reset.window 3).spans.length = 64 ∧ mget State.reset.parts 3 = none := by decide
theorem test_meets_bindings : (MctpRequest.read ⟨.vdm, 3⟩ .module 0x10).ep.binding = .vdm ∧ State.reset.portUp (hostIf 0) = false ∧
    (MctpRequest.control ⟨.smbus, 3⟩ []).ep.binding ≠ .vdm := by decide

-- The published ciphers and hash that R303, R442 and R447 name: the worked examples of FIPS 197 (C.3) and FIPS 202 (the empty message)

theorem test_aes : aesEncrypt (aesKeys (List.range 32)) ((List.range 16).map (fun i => 17 * i)) =
      [0x8E, 0xA2, 0xB7, 0xCA, 0x51, 0x67, 0x45, 0xBF, 0xEA, 0xFC, 0x49, 0x90, 0x4B, 0x49, 0x60, 0x89] ∧
    aesDecrypt (aesKeys (List.range 32)) [0x8E, 0xA2, 0xB7, 0xCA, 0x51, 0x67, 0x45, 0xBF, 0xEA, 0xFC, 0x49, 0x90, 0x4B, 0x49, 0x60, 0x89] =
      (List.range 16).map (fun i => 17 * i) := by decide +kernel
theorem test_xts_back : xtsLine true 7 3 (xtsLine false 7 3 (List.range 64)) = List.range 64 := by decide +kernel
theorem test_shake : (shake512 []).take 8 = [0x46, 0xB9, 0xDD, 0x2B, 0x0B, 0xA8, 0x8D, 0x13] := by decide +kernel

end Sys2Proof.Tests
end

section
/-!
PROOFS. The sites of the field (R2 to R4): tile IDs and coordinates, the kind of a site as a parity, and the counts of each kind.
-/

namespace Sys2Proof.Sites

open Sys2Proof Sys2Proof.Machine

-- A tile ID and its two coordinates (R3)

@[simp] theorem tileX_tileId {x : Nat} (hx : x < 256) (y : Nat) : tileX (tileId x y) = x := by
  simp only [tileX, tileId]
  omega

@[simp] theorem tileY_tileId {x : Nat} (hx : x < 256) (y : Nat) : tileY (tileId x y) = y := by
  simp only [tileY, tileId]
  omega

theorem tileX_lt (t : Nat) : tileX t < 256 := Nat.mod_lt t (by decide)

theorem tileId_lt {x y : Nat} (hx : x < 256) (hy : y < 256) : tileId x y < 2 ^ 16 := by
  simp only [tileId]
  omega

theorem inField_tileId {x y : Nat} (hx : x ≤ 131) (hy : y ≤ 127) : inField (tileId x y) = true := by
  have hx' : x < 256 := by omega
  simp [inField, hx', hx, hy]

/-- Bits 15:8 of a tile ID are Y. -/
theorem tileId_bits_y {x : Nat} (hx : x < 256) (y : Nat) :
    (BitVec.ofNat 16 (tileId x y)).extractLsb' 8 8 = BitVec.ofNat 8 y := by
  apply BitVec.eq_of_toNat_eq
  simp only [BitVec.extractLsb'_toNat, BitVec.toNat_ofNat, Nat.shiftRight_eq_div_pow, tileId]
  omega

/-- Bits 7:0 of a tile ID are X. -/
theorem tileId_bits_x (x y : Nat) : (BitVec.ofNat 16 (tileId x y)).extractLsb' 0 8 = BitVec.ofNat 8 x := by
  apply BitVec.eq_of_toNat_eq
  simp only [BitVec.extractLsb'_toNat, BitVec.toNat_ofNat, Nat.shiftRight_zero, tileId]
  omega

-- The kind of a site (R4)

theorem isCTile_iff (t : Nat) : isCTile t = true ↔ (tileX t + tileY t) % 2 = 0 := decide_eq_true_iff

theorem isCTile_tileId {x : Nat} (hx : x < 256) (y : Nat) : isCTile (tileId x y) = true ↔ (x + y) % 2 = 0 := by
  rw [isCTile_iff, tileX_tileId hx, tileY_tileId hx]

/-- A neighbour is the site one step away along one axis (R2). -/
theorem neighbour_coords {t w u : Nat} (h : neighbour t w = some u) :
    (tileX u = tileX t ∧ (tileY u = tileY t + 1 ∨ tileY t = tileY u + 1)) ∨
    (tileY u = tileY t ∧ (tileX u = tileX t + 1 ∨ tileX t = tileX u + 1)) := by
  have hx := tileX_lt t
  simp only [neighbour] at h
  split_ifs at h <;> cases h
  all_goals
    rw [tileX_tileId (by omega), tileY_tileId (by omega)]
    omega

/-- One step along one axis changes the parity of x + y. -/
theorem neighbour_isCTile {t w u : Nat} (h : neighbour t w = some u) : isCTile u = !isCTile t := by
  have hc := neighbour_coords h
  rw [Bool.eq_not, ne_eq, Bool.eq_iff_iff, isCTile_iff, isCTile_iff]
  omega

-- The sites of each kind in a row

/-- In row y the C-tiles are the x of y's parity, of which the 132 columns hold half. -/
theorem row_cTiles (y : Nat) : ((List.range 132).filter (fun x => isCTile (tileId x y))).length = 66 := by
  have parity : ∀ x ∈ List.range 132, isCTile (tileId x y) = true ↔ decide (x ≡ y [MOD 2]) = true := by
    intro x hx
    have hx' := List.mem_range.mp hx
    rw [isCTile_tileId (by omega), decide_eq_true_iff, Nat.ModEq]
    omega
  calc ((List.range 132).filter (fun x => isCTile (tileId x y))).length
    _ = Nat.count (· ≡ y [MOD 2]) 132 := by rw [← List.countP_eq_length_filter, List.countP_congr parity, Nat.count]
    _ = 66 := by simp [Nat.count_modEq_card 132 Nat.zero_lt_two]

/-- The other sites of the row are M-tiles. -/
theorem row_mTiles (y : Nat) : ((List.range 132).filter (fun x => !isCTile (tileId x y))).length = 66 := by
  have total := List.length_eq_length_filter_add (l := List.range 132) (fun x => isCTile (tileId x y))
  rw [List.length_range, row_cTiles] at total
  omega

/-- Settles O55: the coordinates and the kind of a site are read off its tile ID, and each of the 128 rows holds 66 sites of each kind. -/
theorem sitesOfTheField : Obligations.SitesOfTheField := by
  unfold Obligations.SitesOfTheField
  refine ⟨fun x y hx hy => ?_, fun t w u => neighbour_isCTile, fun y _ => ⟨row_cTiles y, row_mTiles y⟩, ?_, ?_⟩
  · have hx' : x < 256 := by omega
    exact ⟨tileId_bits_y hx' y, tileId_bits_x x y, tileId_lt hx' (by omega), inField_tileId hx hy, isCTile_tileId hx' y⟩
  · simp [row_cTiles]
  · simp [row_mTiles]

end Sys2Proof.Sites
end

section
/-!
PROOFS. The landing of a token in an operand buffer (R61, R63): the slot and the buffer that a target field names, the overrun at a full buffer
or a fired instruction, and the filling of a free buffer with the trap of a poisoned predicate (R31).
-/

namespace Sys2Proof.Landing

open Sys2Proof Sys2Proof.Machine

-- The two fields of a target (R29)

theorem targetSlot_toNat (t : BitVec 7) : (t.extractLsb' 0 5).toNat = t.toNat % 32 := by
  simp only [BitVec.extractLsb'_toNat, Nat.shiftRight_zero]

theorem targetBuffer_eq_iff (t : BitVec 7) (c : BitVec 2) : t.extractLsb' 5 2 = c ↔ t.toNat / 32 = c.toNat := by
  have ht := t.isLt
  have hb : (t.extractLsb' 5 2).toNat = t.toNat / 32 := by
    rw [BitVec.extractLsb'_toNat, Nat.shiftRight_eq_div_pow, Nat.mod_eq_of_lt (by omega)]
  rw [BitVec.toNat_eq, hb]

-- The buffers of a slot by the number that a target gives them

/-- The operand buffer that the upper field of a target names: 0 left, 1 right, else the third operand, the predicate included (R29). -/
def buffer (sl : Slot) : Nat → Option Opd
  | 0 => sl.l
  | 1 => sl.r
  | _ => sl.t

/-- The slot with the operand in that buffer. -/
def fill (sl : Slot) (o : Opd) : Nat → Slot
  | 0 => { sl with l := some o }
  | 1 => { sl with r := some o }
  | _ => { sl with t := some o }

/-- Whether the word's instruction is predicated, so that its third buffer holds a predicate (R31). -/
def predicated (w : Word32) : Bool := ((wordInfo w).map (fun x => x.2.pr != 0)).getD false

theorem predicated_of_wordInfo {w : Word32} {i : Instr} {f : Info} (hw : wordInfo w = some (i, f)) (hpr : f.pr ≠ 0) : predicated w = true := by
  simpa [predicated, hw] using hpr

/-- The trap that R63 raises at slot k. -/
def overrun (k : Nat) : PTrap := ⟨k, .operandOverrun, none, 0, 0, false, false⟩

section
variable {slots : List Slot} {t : BitVec 7} {sl : Slot} (o : Opd) (ht : t ≠ noT) (hk : slots[t.toNat % 32]? = some sl)
include ht hk

/-- `landTarget` at a slot of the window, on its numbered buffers. -/
theorem landTarget_eq : landTarget slots t o =
    if sl.st = .fired ∨ (buffer sl (t.toNat / 32)).isSome then (slots, some (overrun (t.toNat % 32)))
    else (slots.set (t.toNat % 32) (fill sl o (t.toNat / 32)),
      if 2 ≤ t.toNat / 32 ∧ o.poison = true ∧ predicated sl.word = true then some (predTrap (t.toNat % 32)) else none) := by
  simp only [landTarget, ht, if_false, targetSlot_toNat, hk, targetBuffer_eq_iff]
  by_cases hst : sl.st = .fired
  · simp [hst, overrun]
  · rcases hb : t.toNat / 32 with _ | _ | b
    · simp [hst, buffer, fill, overrun]
    · simp [hst, buffer, fill, overrun]
    · simp [hst, buffer, fill, overrun, predicated]

theorem landTarget_overrun (h : sl.st = .fired ∨ buffer sl (t.toNat / 32) ≠ none) :
    landTarget slots t o = (slots, some (overrun (t.toNat % 32))) := by
  rw [landTarget_eq o ht hk, if_pos (h.imp_right Option.isSome_iff_ne_none.mpr)]

theorem landTarget_free (hst : sl.st ≠ .fired) (hb : buffer sl (t.toNat / 32) = none) :
    landTarget slots t o = (slots.set (t.toNat % 32) (fill sl o (t.toNat / 32)),
      if 2 ≤ t.toNat / 32 ∧ o.poison = true ∧ predicated sl.word = true then some (predTrap (t.toNat % 32)) else none) := by
  rw [landTarget_eq o ht hk, if_neg (by simp [hst, hb])]

end

/-- Settles O22: a full buffer or a fired slot overruns, a free buffer fills, and only a poisoned predicate then traps. -/
theorem operandDelivery : Obligations.OperandDelivery := by
  unfold Obligations.OperandDelivery
  intro slots t o sl ht hk k full
  have overruns (h : sl.st = .fired ∨ buffer sl (t.toNat / 32) ≠ none) : landTarget slots t o = (slots, full) :=
    landTarget_overrun o ht hk h
  have fills (hst : sl.st ≠ .fired) (hb : buffer sl (t.toNat / 32) = none) := landTarget_free o ht hk hst hb
  refine ⟨fun hst => overruns (.inl hst), fun hst h0 hl => ?_, fun h0 hl => ?_, fun hst h1 hr => ?_, fun h1 hr => ?_,
    fun hst h2 hp => ?_, fun h2 hp => ?_⟩
  · simpa [h0, fill] using fills hst (by rwa [h0])
  · exact overruns (.inr (by rwa [h0]))
  · simpa [h1, fill] using fills hst (by rwa [h1])
  · exact overruns (.inr (by rwa [h1]))
  · rw [fills hst (by rwa [h2]), h2]
    refine ⟨rfl, fun hclean => by simp [hclean], fun hpoison i f hw hpr => ?_⟩
    exact if_pos ⟨le_rfl, hpoison, predicated_of_wordInfo hw hpr⟩
  · exact overruns (.inr (by rwa [h2]))

end Sys2Proof.Landing
end

section
/-!
PROOFS. The order of FP32 patterns and the order of the values they stand for (R99, R101, R102): a pattern as a sign and a magnitude, the exact
value of a magnitude, and the comparison of two values as that of their places.
-/

namespace Sys2Proof.FloatOrder

open Sys2Proof Sys2Proof.Machine Sys2Proof.Safety

-- A pattern as a sign and a magnitude

/-- Bits 30:0 of a pattern. -/
def magnitude (x : F32) : Nat := x.toNat % 2 ^ 31

/-- A number under the sign that a sign bit gives it. -/
def signed (neg : Bool) (v : Int) : Int := if neg then -v else v

theorem msb_iff (x : F32) : x.msb = true ↔ 2 ^ 31 ≤ x.toNat := by
  rw [x.msb_eq_decide, decide_eq_true_iff]

theorem valueKey_eq (x : F32) : valueKey x = signed x.msb (magnitude x) := by
  simp only [valueKey, signed, msb_iff, magnitude]
  split_ifs <;> omega

theorem nanPat_iff (x : F32) : nanPat x = true ↔ 0x7F800000 < magnitude x := decide_eq_true_iff

theorem nanPat_eq_false_iff (x : F32) : nanPat x = false ↔ magnitude x ≤ 0x7F800000 := by
  rw [← Bool.not_eq_true, nanPat_iff, Nat.not_lt]

-- The value of a pattern (R248, R249)

/-- The integer significand of a finite magnitude, with the hidden bit of a normal number. -/
def significand (c : Nat) : Nat := if c / 2 ^ 23 = 0 then c % 2 ^ 23 else 2 ^ 23 + c % 2 ^ 23

/-- The power of two over 2^-149 that the significand counts. -/
def scale (c : Nat) : Nat := c / 2 ^ 23 - 1

/-- The value of a finite magnitude in units of 2^-149. -/
def units (c : Nat) : Nat := significand c * 2 ^ scale c

theorem val32_eq (x : F32) : val32 x =
    if magnitude x / 2 ^ 23 = 255 then (if magnitude x % 2 ^ 23 = 0 then .inf x.msb else .nan (!x.getLsbD 22))
    else .fin x.msb (significand (magnitude x)) (scale (magnitude x) + -149) := by
  have hx := x.isLt
  have sign : (x.toNat / 2 ^ 31 % 2 == 1) = x.msb := by
    rw [Bool.eq_iff_iff, msb_iff, beq_iff_eq]
    omega
  have signalling : (x.toNat % 2 ^ 23 / 2 ^ 22 == 0) = !x.getLsbD 22 := by
    rw [← BitVec.testBit_toNat, Nat.testBit_eq_decide_div_mod_eq, Bool.eq_iff_iff, beq_iff_eq, Bool.not_eq_true', decide_eq_false_iff_not]
    omega
  have exponent : x.toNat / 2 ^ 23 % 2 ^ 8 = magnitude x / 2 ^ 23 := by
    simp only [magnitude]
    omega
  have fraction : x.toNat % 2 ^ 23 = magnitude x % 2 ^ 23 := by
    simp only [magnitude]
    omega
  simp only [val32, Fmt.val, fp32, Fmt.emin, significand, scale, sign, exponent, signalling, Bool.true_and, true_and]
  rw [fraction]
  generalize magnitude x / 2 ^ 23 = e, magnitude x % 2 ^ 23 = t
  rcases e with _ | e
  · simp
  · have hexp : ((e + 1 : Nat) : Int) - 127 - (23 : Nat) = (e : Int) + -149 := by omega
    simp [← hexp]

theorem val32_nan {x : F32} (h : 0x7F800000 < magnitude x) : val32 x = .nan (!x.getLsbD 22) := by
  have hx : magnitude x < 2 ^ 31 := Nat.mod_lt _ (by decide)
  rw [val32_eq, if_pos (by omega), if_neg (by omega)]

theorem val32_inf {x : F32} (h : magnitude x = 0x7F800000) : val32 x = .inf x.msb := by
  rw [val32_eq, if_pos (by omega), if_pos (by omega)]

theorem val32_fin {x : F32} (h : magnitude x < 0x7F800000) :
    val32 x = .fin x.msb (significand (magnitude x)) (scale (magnitude x) + -149) := by
  rw [val32_eq, if_neg (by omega)]

theorem units_lt (c : Nat) : units c < 2 ^ (23 + c / 2 ^ 23) := by
  unfold units significand scale
  rcases c / 2 ^ 23 with _ | e
  · simpa using Nat.mod_lt c (show 0 < 2 ^ 23 by decide)
  · rw [if_neg e.succ_ne_zero, show 23 + (e + 1) = 24 + e by omega, pow_add]
    exact Nat.mul_lt_mul_of_pos_right (by omega) (Nat.two_pow_pos e)

theorem le_units {c : Nat} (h : c / 2 ^ 23 ≠ 0) : 2 ^ (22 + c / 2 ^ 23) ≤ units c := by
  obtain ⟨e, he⟩ := Nat.exists_eq_succ_of_ne_zero h
  rw [units, significand, scale, if_neg h, he, Nat.succ_sub_one, show 22 + e.succ = 23 + e by omega, pow_add]
  exact Nat.mul_le_mul_right _ (Nat.le_add_right _ _)

/-- The value of a magnitude grows with it: within an exponent by the fraction, and from one exponent to the next by the leading bit. -/
theorem units_strictMono : StrictMono units := by
  intro c d hcd
  rcases (Nat.div_le_div_right hcd.le : c / 2 ^ 23 ≤ d / 2 ^ 23).eq_or_lt with he | he
  · have hsig : significand c < significand d := by
      simp only [significand, he]
      split <;> omega
    rw [units, units, scale, scale, he]
    exact Nat.mul_lt_mul_of_pos_right hsig (Nat.two_pow_pos _)
  · calc units c
      _ < 2 ^ (23 + c / 2 ^ 23) := units_lt c
      _ ≤ 2 ^ (22 + d / 2 ^ 23) := Nat.pow_le_pow_right (by decide) (by omega)
      _ ≤ units d := le_units (by omega)

theorem units_zero : units 0 = 0 := rfl

-- The comparison of two values

theorem sign_congr {u v : Int} (neg : u < 0 ↔ v < 0) (pos : 0 < u ↔ 0 < v) : u.sign = v.sign := by
  rcases lt_trichotomy u 0 with h | h | h
  · rw [Int.sign_eq_neg_one_of_neg h, Int.sign_eq_neg_one_of_neg (neg.mp h)]
  · rw [show u = v by omega]
  · rw [Int.sign_eq_one_of_pos h, Int.sign_eq_one_of_pos (pos.mp h)]

/-- An increasing scale of magnitudes from zero orders signed magnitudes as they stand. -/
theorem sign_signed_sub {g : Nat → Nat} (hg : StrictMono g) (h0 : g 0 = 0) (n₁ n₂ : Bool) (c d : Nat) :
    (signed n₁ (g c) - signed n₂ (g d)).sign = (signed n₁ c - signed n₂ d).sign := by
  have hlt : g c < g d ↔ c < d := hg.lt_iff_lt
  have hgt : g d < g c ↔ d < c := hg.lt_iff_lt
  have hc : 0 < g c ↔ 0 < c := by simpa [h0] using hg.lt_iff_lt (a := 0) (b := c)
  have hd : 0 < g d ↔ 0 < d := by simpa [h0] using hg.lt_iff_lt (a := 0) (b := d)
  simp only [signed]
  split_ifs <;> apply sign_congr <;> omega

/-- A factor that aligns one exponent with the lesser of two. -/
theorem pow2_align_left (k l : Nat) (q : Int) : pow2 (k + q - min (k + q) (l + q)) * 2 ^ min k l = 2 ^ k := by
  rw [pow2, show (k + q - min (k + q) (l + q)).toNat = k - min k l by omega, ← pow_add, Nat.sub_add_cancel (Nat.min_le_left k l)]

theorem pow2_align_right (k l : Nat) (q : Int) : pow2 (l + q - min (k + q) (l + q)) * 2 ^ min k l = 2 ^ l := by
  rw [min_comm (k + q), Nat.min_comm, pow2_align_left]

theorem factor_mul_eq_signed (n : Bool) (v : Int) : (if n then -1 else 1) * v = signed n v := by
  cases n <;> simp [signed]

theorem signed_not (n : Bool) (v : Int) : signed (!n) v = -signed n v := by
  cases n <;> simp [signed]

theorem signed_mul (n : Bool) (u v : Nat) : signed n (u * v : Nat) = signed n u * v := by
  cases n <;> simp [signed]

/-- Finite values compare by the sign of their exact difference. -/
theorem fvCmp_fin_eq_sign (n₁ n₂ : Bool) (m₁ m₂ : Nat) (e₁ e₂ : Int) : fvCmp (.fin n₁ m₁ e₁) (.fin n₂ m₂ e₂) =
    (signed n₁ (m₁ * pow2 (e₁ - min e₁ e₂) : Nat) - signed n₂ (m₂ * pow2 (e₂ - min e₁ e₂) : Nat)).sign := by
  simp only [fvCmp, dyAdd, factor_mul_eq_signed, signed_not, ← Int.sub_eq_add_neg]
  generalize signed n₁ _ - signed n₂ _ = v
  rcases lt_trichotomy v 0 with h | rfl | h
  · simp [h, h.ne, Int.sign_eq_neg_one_of_neg h]
  · rfl
  · simp [h.ne', h.not_gt, Int.sign_eq_one_of_pos h]

/-- Finite values compare as their multiples of a common unit 2^q. -/
theorem fvCmp_fin (n₁ n₂ : Bool) (m₁ m₂ k₁ k₂ : Nat) (q : Int) : fvCmp (.fin n₁ m₁ (k₁ + q)) (.fin n₂ m₂ (k₂ + q)) =
    (signed n₁ (m₁ * 2 ^ k₁ : Nat) - signed n₂ (m₂ * 2 ^ k₂ : Nat)).sign := by
  have hpos : (0 : Int) < (2 ^ min k₁ k₂ : Nat) := Int.natCast_pos.mpr (Nat.two_pow_pos _)
  rw [fvCmp_fin_eq_sign, ← pow2_align_left k₁ k₂ q, ← pow2_align_right k₁ k₂ q, ← Nat.mul_assoc, ← Nat.mul_assoc,
    signed_mul n₁ (m₁ * _), signed_mul n₂ (m₂ * _), ← Int.sub_mul, Int.sign_mul, Int.sign_eq_one_of_pos hpos, Int.mul_one]

/-- Beside a greater magnitude, the sign of that one decides. -/
theorem sign_signed_sub_of_lt {c d : Nat} (h : c < d) (n₁ n₂ : Bool) : (signed n₁ c - signed n₂ d).sign = if n₂ then 1 else -1 := by
  cases n₂
  · exact Int.sign_eq_neg_one_of_neg (by cases n₁ <;> simp [signed] <;> omega)
  · exact Int.sign_eq_one_of_pos (by cases n₁ <;> simp [signed] <;> omega)

theorem sign_signed_sub_of_gt {c d : Nat} (h : d < c) (n₁ n₂ : Bool) : (signed n₁ c - signed n₂ d).sign = if n₁ then -1 else 1 := by
  rw [← neg_sub, Int.sign_neg, sign_signed_sub_of_lt h]
  cases n₁ <;> rfl

/-- The order of values is that of the places of R102. -/
theorem fvCmp_val32 {x y : F32} (hx : nanPat x = false) (hy : nanPat y = false) :
    fvCmp (val32 x) (val32 y) = (valueKey x - valueKey y).sign := by
  rw [nanPat_eq_false_iff] at hx hy
  rw [valueKey_eq, valueKey_eq]
  rcases hx.lt_or_eq with hx | hx <;> rcases hy.lt_or_eq with hy | hy
  · rw [val32_fin hx, val32_fin hy, fvCmp_fin]
    exact sign_signed_sub units_strictMono units_zero _ _ _ _
  · rw [val32_fin hx, val32_inf hy, sign_signed_sub_of_lt (hx.trans_eq hy.symm)]
    rfl
  · rw [val32_inf hx, val32_fin hy, sign_signed_sub_of_gt (hy.trans_eq hx.symm)]
    rfl
  · rw [val32_inf hx, val32_inf hy, hx, hy]
    cases x.msb <;> cases y.msb <;> rfl

end Sys2Proof.FloatOrder
end

section
/-!
PROOFS. The comparing words of chapter 4 (R101, R102): FMIN and FMAX, the four tests, and FCLASS, each as its operation on patterns and then as
the firing of its word.
-/

namespace Sys2Proof.FloatCompare

open Sys2Proof Sys2Proof.Machine Sys2Proof.Safety Sys2Proof.FloatOrder

-- NaNs and their status (R99)

theorem val32_of_not_nan {x : F32} (h : nanPat x = false) : (∃ n, val32 x = .inf n) ∨ ∃ n m e, val32 x = .fin n m e := by
  rcases ((nanPat_eq_false_iff x).mp h).lt_or_eq with hfin | hinf
  · exact .inr ⟨_, _, _, val32_fin hfin⟩
  · exact .inl ⟨_, val32_inf hinf⟩

@[simp] theorem isNan_val32 (x : F32) : (val32 x).isNan = nanPat x := by
  cases hx : nanPat x
  · obtain ⟨n, h⟩ | ⟨n, m, e, h⟩ := val32_of_not_nan hx <;> rw [h] <;> rfl
  · rw [val32_nan ((nanPat_iff x).mp hx)]
    rfl

@[simp] theorem sigNV_val32 (x : F32) : sigNV (val32 x) = nvIf (sigPat x) := by
  cases hx : nanPat x
  · rw [sigPat, hx]
    obtain ⟨n, h⟩ | ⟨n, m, e, h⟩ := val32_of_not_nan hx <;> rw [h] <;> rfl
  · rw [val32_nan ((nanPat_iff x).mp hx), sigPat, hx]
    cases x.getLsbD 22 <;> rfl

@[simp] theorem nvIf_or (c d : Bool) : nvIf c ||| nvIf d = nvIf (c || d) := by
  cases c <;> cases d <;> rfl

-- FMIN and FMAX (R101)

theorem orderKey_eq (x : F32) : orderKey x = if x.msb then -1 - (magnitude x : Int) else magnitude x := by
  simp only [orderKey, msb_iff, magnitude]
  split_ifs <;> omega

/-- Operands of one place are the same pattern, so that which of them is delivered does not matter. -/
theorem orderKey_injective : Function.Injective orderKey := by
  intro x y h
  have hx := x.isLt
  have hy := y.isLt
  apply BitVec.eq_of_toNat_eq
  simp only [orderKey] at h
  split_ifs at h <;> omega

/-- The comparison of FMIN and FMAX: the values, and -0 below +0 among equal ones. -/
theorem less_eq_orderKey_lt {x y : F32} (hx : nanPat x = false) (hy : nanPat y = false) :
    (decide (fvCmp (val32 x) (val32 y) < 0) || (fvCmp (val32 x) (val32 y) == 0 && x.msb && !y.msb)) = decide (orderKey x < orderKey y) := by
  rw [fvCmp_val32 hx hy, Bool.eq_iff_iff]
  simp only [Bool.or_eq_true, Bool.and_eq_true, decide_eq_true_eq, beq_iff_eq, Int.sign_neg_iff, Int.sign_eq_zero_iff_zero, valueKey_eq, orderKey_eq]
  cases x.msb <;> cases y.msb <;> simp [signed] <;> omega

theorem fMinMax_eq (isMax : Bool) (x y : F32) : fMinMax isMax x y =
    (if nanPat x && nanPat y then qnan32 else if nanPat x then y else if nanPat y then x
      else if decide (orderKey x < orderKey y) = isMax then y else x, nvIf (sigPat x || sigPat y)) := by
  simp only [fMinMax, isNan_val32, sigNV_val32, nvIf_or]
  cases hx : nanPat x <;> cases hy : nanPat y
  · simp [less_eq_orderKey_lt hx hy]
  · simp
  · simp
  · simp

theorem fMinMax_false : fMinMax false = fun x y => (minPat orderKey x y, nvIf (sigPat x || sigPat y)) := by
  funext x y
  rw [fMinMax_eq, minPat]
  rcases lt_trichotomy (orderKey x) (orderKey y) with h | h | h
  · simp [h, h.le, qnan32]
  · simp [orderKey_injective h, qnan32]
  · simp [h.not_gt, h.not_ge, qnan32]

theorem fMinMax_true : fMinMax true = fun x y => (minPat (fun z => -orderKey z) x y, nvIf (sigPat x || sigPat y)) := by
  funext x y
  rw [fMinMax_eq, minPat]
  by_cases h : orderKey x < orderKey y
  · simp [h, h.not_ge, qnan32]
  · simp [h, not_lt.mp h, qnan32]

-- The tests (R102)

theorem fTest_fst (op : Nat) (x y : F32) : (fTest op x y).1 =
    if op = 3 then nanPat x || nanPat y else if nanPat x || nanPat y then false
    else if op = 0 then decide (valueKey x = valueKey y) else if op = 1 then decide (valueKey x < valueKey y)
    else decide (valueKey x ≤ valueKey y) := by
  simp only [fTest, isNan_val32]
  cases hx : nanPat x <;> cases hy : nanPat y
  · simp [fvCmp_val32 hx hy, Int.sign_neg_iff, Int.sign_nonpos_iff, Int.sign_eq_zero_iff_zero, Int.sub_eq_zero, beq_eq_decide]
  · simp
  · simp
  · simp

theorem fTest_snd (op : Nat) (x y : F32) : (fTest op x y).2 =
    nvIf (if op = 1 ∨ op = 2 then nanPat x || nanPat y else sigPat x || sigPat y) := by
  simp only [fTest, isNan_val32, sigNV_val32, nvIf_or]
  by_cases hop : op = 1 ∨ op = 2
  · cases hnan : nanPat x || nanPat y
    · obtain ⟨hx, hy⟩ := Bool.or_eq_false_iff.mp hnan
      simp [hop, sigPat, hx, hy]
    · simp [hop, stNV, nvIf]
  · simp [hop]

/-- A test as an operation on patterns. -/
theorem onT_eq (op : Nat) : onT op = on2 (fun x y => (if (fTest op x y).1 then 1 else 0, (fTest op x y).2)) := by
  funext x y
  simp only [onT, on2]
  cases (fTest op (f32Of x) (f32Of y)).1 <;> rfl

/-- A test that fails on NaNs and compares the places of R102 otherwise. -/
theorem onT_of_relation {op : Nat} {P : F32 → F32 → Prop} [∀ x y, Decidable (P x y)] {nv : F32 → F32 → Bool}
    (hbit : ∀ x y, (fTest op x y).1 = if nanPat x || nanPat y then false else decide (P x y)) (hnv : ∀ x y, (fTest op x y).2 = nvIf (nv x y)) :
    onT op = on2 (fun x y => (if nanPat x || nanPat y then 0 else if P x y then 1 else 0, nvIf (nv x y))) := by
  rw [onT_eq]
  congr 1
  funext x y
  rw [hbit, hnv]
  cases nanPat x || nanPat y <;> simp

-- FCLASS (R102)

theorem significand_eq_zero_iff (c : Nat) : significand c = 0 ↔ c = 0 := by
  simp only [significand]
  split <;> omega

/-- The normal numbers are those with the hidden bit. -/
theorem significand_lt_iff (c : Nat) : significand c < 2 ^ 23 ↔ c < 0x00800000 := by
  simp only [significand]
  split <;> omega

theorem classOf_eq (x : F32) : classOf x =
    if 0x7F800000 < magnitude x then (if x.getLsbD 22 then 9 else 8)
    else if magnitude x = 0x7F800000 then (if x.msb then 0 else 7)
    else if magnitude x = 0 then (if x.msb then 3 else 4)
    else if magnitude x < 0x00800000 then (if x.msb then 2 else 5)
    else if x.msb then 1 else 6 := by
  rw [x.msb_eq_decide]
  rfl

theorem fClass_eq (x : F32) : fClass x = 2 ^ classOf x := by
  rw [classOf_eq, fClass]
  rcases lt_trichotomy (magnitude x) 0x7F800000 with h | h | h
  · rw [val32_fin h, if_neg h.not_gt, if_neg h.ne]
    simp only [significand_eq_zero_iff, significand_lt_iff]
    cases x.msb <;> split_ifs <;> rfl
  · rw [val32_inf h, h]
    cases x.msb <;> rfl
  · rw [val32_nan h, if_pos h]
    cases x.getLsbD 22 <;> rfl

-- The words

theorem givesF1_of_exec {i : Instr} {v w : Word → Word × Status} (hexec : ∀ s, exec i s = fireF1 i s v) (hv : v = w) : GivesF1 i w := by
  subst hv
  intro s f a h
  rw [hexec, fireF1, Laws.fire_firing h]

theorem givesF2_of_exec {i : Instr} {v w : Word → Word → Word × Status} (hexec : ∀ s, exec i s = fireF2 i s v) (hv : v = w) : GivesF2 i w := by
  subst hv
  intro s f a h
  rw [hexec, fireF2, Laws.fire_firing h]

/-- The encoding of an operation of opcode 0x30 with rounding mode 000, by its number (R38). -/
theorem enc_fp (op : Nat) (p : BitVec 2) (b a : BitVec 7) :
    enc_23_22_13_7_6_0 (0x30000000 + op * 2 ^ 14) p b a = 0x30000000 + p.toNat * 2 ^ 22 + op * 2 ^ 14 + b.toNat * 2 ^ 7 + a.toNat := by
  simp only [enc_23_22_13_7_6_0]
  omega

/-- Settles O6: the values compare as the places of R102, and the sign settles the zeros, so that the comparison is that of the places of R101. -/
theorem floatMinMaxResults : Obligations.FloatMinMaxResults := by
  unfold Obligations.FloatMinMaxResults
  intro p b a
  refine ⟨?_, ?_, ?_, ?_⟩
  · exact givesF2_of_exec (Laws.exec_fmin p b a) (by rw [fMinMax_false])
  · exact givesF2_of_exec (Laws.exec_fmax p b a) (by rw [fMinMax_true])
  · exact congrArg some (enc_fp 0x05 p b a)
  · exact congrArg some (enc_fp 0x06 p b a)

/-- Settles O7: the values compare as the places of R102, and FCLASS reads the class off the sign and the magnitude. -/
theorem floatTestAndClassResults : Obligations.FloatTestAndClassResults := by
  unfold Obligations.FloatTestAndClassResults
  intro p b a
  refine ⟨?_, ?_, ?_, ?_, ?_⟩
  · exact givesF2_of_exec (Laws.exec_fteq p b a) (onT_of_relation (fTest_fst 0) (fTest_snd 0))
  · exact givesF2_of_exec (Laws.exec_ftlt p b a) (onT_of_relation (fTest_fst 1) (fTest_snd 1))
  · exact givesF2_of_exec (Laws.exec_ftle p b a) (onT_of_relation (fTest_fst 2) (fTest_snd 2))
  · exact givesF2_of_exec (Laws.exec_ftun p b a) (by simp [onT_eq, fTest_fst, fTest_snd])
  · exact givesF1_of_exec (Laws.exec_fclass p b a) (by funext x; rw [fClass_eq, f32Of])

end Sys2Proof.FloatCompare
end
